-- ==== Sys2Proof/Word.lean ====
section
/-! DEFINITION. The words of the T640: bytes of the shop loop, readings of the millisecond time base, and the
numbers of its furnaces, circuits, points and contacts (spec/00_scope.md, Conventions). -/

namespace Sys2Proof

/-- One byte of a frame, a table image or a read record. -/
abbrev Byte := BitVec 8

/-- A reading of the 32-bit millisecond count, which wraps after 2^32 ms (spec/00_scope.md, Time base). -/
abbrev Time := BitVec 32

/-- Furnace f of the manual (1 to 6) is `f - 1` here. -/
abbrev Furnace := Fin 6

/-- Cooling circuit c of the manual (1 to 8) is `c - 1` here. -/
abbrev CircuitNo := Fin 8

/-- A point number, 0 to 127, as the manual numbers it. -/
abbrev PointNo := Fin 128

/-- A contact input DI0 to DI15. -/
abbrev InputNo := Fin 16

/-- A contact output DO0 to DO7. -/
abbrev OutputNo := Fin 8

end Sys2Proof
end

