-- ==== Sys2Proof/Config.lean ====
section
/-! DEFINITION. The values the manual leaves open. Each is a constant WITHOUT A BODY: nothing can evaluate it, and
a statement that holds of the model holds whatever it is. Log entries 8 and 9. -/

namespace Sys2Proof

/-- What a circuit number outside 1 to 8 contributes to a derate. Only the entry of an UNRATED furnace, which the
validator does not check (R37), can hold such a number; R101 then states no derate for READ FURNACE to report
(R120), but the bound of 0 to 100 that the model holds the value to. No demand depends on it. Free value, log entry 8. -/
opaque Config.noCircuitDerate : Byte → Byte

/-- The persistence time in ms of a filter class code above 3. Only an input entry of function NONE, which the
validator does not check (R37), can hold one; R44 states no time for it. Free value, log entry 9. -/
opaque Config.unlistedPersistence : BitVec 4 → Nat

/-- Whether an edge selection code above 3 selects an edge (`true` for a rising one). Only an input entry of function
NONE can hold one; R46 states nothing for it. Free value, log entry 9. -/
opaque Config.unlistedEdge : BitVec 4 → Bool → Bool

end Sys2Proof
end

