-- ==== Sys2Proof/Syntax.lean ====
section
/-! DEFINITION. The commands of the T640: one constructor per row of spec/opcode_table.json.

The manual's part acts on events (spec/00_scope.md, The part in the shop). An event carries `dt`, the milliseconds
that pass between the step before it and the event: the table has no row for the passing of time (log entry 1).
The management commands are items of MGMT frames (R187); each is also a command of its own here, as the table lists
it (log entry 2). Operands have the widths of the encodings of spec/12, so that every value the loop can carry is a
value of the operand, the refused ones too. -/

namespace Sys2Proof

/-- The events and management commands of spec/opcode_table.json. -/
inductive Instr where
  /-- COLD_RESET (R20, R1): power-up or release of the reset pin; the straps and the raw contact levels are sampled. -/
  | coldReset (addressStraps : BitVec 3) (rateStraps : BitVec 2) (rawLevels : BitVec 16)
  /-- FRAME_ARRIVAL (R2): the end mark of a frame; `bytes` are all the bytes between its two marks. -/
  | frameArrival (dt : Time) (bytes : List Byte)
  /-- LINK_COMPLETION (R16): the ring-out link completes the frame it carries. -/
  | linkCompletion (dt : Time)
  /-- VALIDATION_COMPLETE (R39). -/
  | validationComplete (dt : Time)
  /-- RAW_LEVEL_CHANGE (R44): the raw level of an input becomes `closed`. -/
  | rawLevelChange (dt : Time) (input : InputNo) (closed : Bool)
  /-- PERSISTENCE_TIMER_EXPIRY (R44). -/
  | persistenceTimerExpiry (dt : Time) (input : InputNo)
  /-- STALE_TIMER_EXPIRY (R30). -/
  | staleTimerExpiry (dt : Time) (point : PointNo)
  /-- LOOP_SILENCE_EXPIRY (R18). -/
  | loopSilenceExpiry (dt : Time)
  /-- APPROVAL_TIMER_EXPIRY (R69). -/
  | approvalTimerExpiry (dt : Time) (furnace : Furnace)
  /-- HOLD_TIMER_EXPIRY (R71). -/
  | holdTimerExpiry (dt : Time) (furnace : Furnace)
  /-- RAMP_TIMER_EXPIRY (R108). -/
  | rampTimerExpiry (dt : Time) (furnace : Furnace)
  /-- REFRESH_TIMER_EXPIRY (R111). -/
  | refreshTimerExpiry (dt : Time) (furnace : Furnace)
  /-- FOLLOW_TIMER_EXPIRY (R114). -/
  | followTimerExpiry (dt : Time) (furnace : Furnace)
  /-- START_TIMER_EXPIRY (R146). -/
  | startTimerExpiry (dt : Time) (circuit : CircuitNo)
  /-- DIP_AGE_TIMER_EXPIRY (R156). -/
  | dipAgeTimerExpiry (dt : Time) (furnace : Furnace)
  /-- TILT_START_TIMER_EXPIRY (R167). -/
  | tiltStartTimerExpiry (dt : Time)
  /-- POUR_TIMER_EXPIRY (R168). -/
  | pourTimerExpiry (dt : Time)
  /-- RETURN_TIMER_EXPIRY (R169). -/
  | returnTimerExpiry (dt : Time)
  /-- WATCHDOG_TIMER_EXPIRY (R179). -/
  | watchdogTimerExpiry (dt : Time)
  /-- TABLE_DATA (R191): a table-data item, or trailing data. -/
  | tableData (dt : Time) (bytes : List Byte)
  /-- SELECT_TABLE (R190). -/
  | selectTable (dt : Time) (table copy : Byte) (offset : BitVec 16)
  /-- READ_TABLE (R192). -/
  | readTable (dt : Time) (count : Byte)
  /-- COMMIT_TABLE (R35). -/
  | commitTable (dt : Time) (table : Byte)
  /-- RELOAD_STAGING (R193). -/
  | reloadStaging (dt : Time)
  /-- SET_PARAMETER (R194): `value` is a signed 32-bit number. -/
  | setParameter (dt : Time) (number : Byte) (value : BitVec 32)
  /-- READ_PARAMETER (R194). -/
  | readParameter (dt : Time) (number : Byte)
  /-- LOCK (R196). -/
  | lock (dt : Time)
  /-- UNLOCK (R196). -/
  | unlock (dt : Time)
  /-- OPEN_HEAT (R61). -/
  | openHeat (dt : Time) (furnace : Byte) (id : BitVec 32)
  /-- DRAIN (R73). -/
  | drain (dt : Time) (furnace : Byte)
  /-- SET_MASS (R74). -/
  | setMass (dt : Time) (furnace : Byte) (mass : BitVec 32)
  /-- SET_BAND (R75): four signed temperatures. -/
  | setBand (dt : Time) (furnace : Byte) (holdLow holdHigh tapLow tapHigh : BitVec 16)
  /-- APPROVE (R68). -/
  | approve (dt : Time) (furnace : Byte) (id : BitVec 32) (minutes : Byte)
  /-- REVOKE (R69). -/
  | revoke (dt : Time) (furnace : Byte)
  /-- RESET_CIRCUIT (R147). -/
  | resetCircuit (dt : Time) (circuit : Byte)
  /-- RESET_FURNACE (R117). -/
  | resetFurnace (dt : Time) (furnace : Byte)
  /-- WD_START (R177). -/
  | wdStart (dt : Time)
  /-- HEARTBEAT (R178). -/
  | heartbeat (dt : Time) (token : BitVec 16)
  /-- WD_PAUSE (R180). -/
  | wdPause (dt : Time)
  /-- WD_FORCE (R181). -/
  | wdForce (dt : Time)
  /-- WD_RESTART (R181). -/
  | wdRestart (dt : Time)
  /-- ALL_STOP (R183): an addressed command, or an executed broadcast one, from station `source`. -/
  | allStop (dt : Time) (broadcast : Bool) (source : Byte)
  /-- RESUME (R184). -/
  | resume (dt : Time)
  /-- HOLD_TAPS (R160). -/
  | holdTaps (dt : Time)
  /-- RELEASE_TAPS (R160). -/
  | releaseTaps (dt : Time)
  /-- ACK_CHANGE (R48). -/
  | ackChange (dt : Time)
  /-- SET_OUTPUT (R52). -/
  | setOutput (dt : Time) (output level : Byte)
  /-- CLEAR_CONDITION (R199). -/
  | clearCondition (dt : Time) (kind subject : Byte)
  /-- READ_FURNACE (R78). -/
  | readFurnace (dt : Time) (furnace part : Byte)
  /-- READ_CIRCUIT (R152). -/
  | readCircuit (dt : Time) (circuit part : Byte)
  /-- READ_POINT (R32). -/
  | readPoint (dt : Time) (point part : Byte)
  /-- READ_QUEUES (R173). -/
  | readQueues (dt : Time) (part : Byte)
  /-- READ_CONDITIONS (R200). -/
  | readConditions (dt : Time) (part : Byte)
  /-- READ_COUNTERS (R200). -/
  | readCounters (dt : Time) (part : Byte)
  /-- CLEAR_COUNTERS (R201). -/
  | clearCounters (dt : Time)
  /-- RESTART (R202), in a MGMT frame of station `source` with sequence `seq`, which its reply answers. -/
  | restart (dt : Time) (source seq : Byte)
  /-- RESET_PIN_HELD_LOW (R55): the reset pin is driven low. -/
  | resetPinHeldLow
  deriving DecidableEq, Repr

end Sys2Proof
end

