-- ==== Sys2Proof/Decode.lean ====
section
/-! DEFINITION. spec/opcode_table.json gives no row any bits, so no table word spells a command. What the loop itself
spells is a command item of a MGMT body (R211): its code and arguments, read and written here. -/

namespace Sys2Proof

/-- The command a word spells by the table's bits: the table gives none, so there is none. -/
def decodeTableWord (_nbits _w : Nat) : Option Instr := none

/-- Two bytes, most significant first (R205, spec/12). -/
def word16 (hi lo : Byte) : BitVec 16 := hi ++ lo

/-- Four bytes, most significant first. -/
def word32 (a b c d : Byte) : BitVec 32 := word16 a b ++ word16 c d

/-- The bytes of a 16-bit field, most significant first. -/
def bytes16 (w : BitVec 16) : List Byte := [w.extractLsb' 8 8, w.extractLsb' 0 8]

/-- The bytes of a 32-bit field, most significant first. -/
def bytes32 (w : BitVec 32) : List Byte :=
  [w.extractLsb' 24 8, w.extractLsb' 16 8, w.extractLsb' 8 8, w.extractLsb' 0 8]

/-- The commands without arguments of R211, by code. -/
def decodeBare (source seq : Byte) (broadcast : Bool) (code : Nat) : Option Instr :=
  match code with
  | 0x04 => some (.reloadStaging 0)
  | 0x07 => some (.lock 0)
  | 0x08 => some (.unlock 0)
  | 0x20 => some (.wdStart 0)
  | 0x22 => some (.wdPause 0)
  | 0x23 => some (.wdForce 0)
  | 0x24 => some (.wdRestart 0)
  | 0x28 => some (.allStop 0 broadcast source)
  | 0x29 => some (.resume 0)
  | 0x2A => some (.holdTaps 0)
  | 0x2B => some (.releaseTaps 0)
  | 0x30 => some (.ackChange 0)
  | 0x3E => some (.clearCounters 0)
  | 0x3F => some (.restart 0 source seq)
  | _ => none

/-- The commands of one argument byte of R211. -/
def decodeOne (code : Nat) (a : Byte) : Option Instr :=
  match code with
  | 0x02 => some (.readTable 0 a)
  | 0x03 => some (.commitTable 0 a)
  | 0x06 => some (.readParameter 0 a)
  | 0x11 => some (.drain 0 a)
  | 0x15 => some (.revoke 0 a)
  | 0x18 => some (.resetCircuit 0 a)
  | 0x19 => some (.resetFurnace 0 a)
  | 0x3B => some (.readQueues 0 a)
  | 0x3C => some (.readConditions 0 a)
  | 0x3D => some (.readCounters 0 a)
  | _ => none

/-- The commands of two argument bytes of R211. -/
def decodeTwo (code : Nat) (a b : Byte) : Option Instr :=
  match code with
  | 0x21 => some (.heartbeat 0 (word16 a b))
  | 0x31 => some (.setOutput 0 a b)
  | 0x32 => some (.clearCondition 0 a b)
  | 0x38 => some (.readFurnace 0 a b)
  | 0x39 => some (.readCircuit 0 a b)
  | 0x3A => some (.readPoint 0 a b)
  | _ => none

/-- The command of a command item's bytes, its code first (R211). `none` where the code is not listed or the length
is not one plus the argument length of the command (R188: the item is INVALID). `source`, `seq` and `broadcast` are
those of the MGMT frame; the command takes no time of its own within the frame's arrival. -/
def decodeCommand (source seq : Byte) (broadcast : Bool) : List Byte → Option Instr
  | [c] => decodeBare source seq broadcast c.toNat
  | [c, a] => decodeOne c.toNat a
  | [c, a, b] => decodeTwo c.toNat a b
  | [c, a, b0, b1, b2] =>
    if c = 0x01 then some (.selectTable 0 a b0 (word16 b1 b2)) else none
  | [c, a, b0, b1, b2, b3] =>
    if c = 0x05 then some (.setParameter 0 a (word32 b0 b1 b2 b3))
    else if c = 0x10 then some (.openHeat 0 a (word32 b0 b1 b2 b3))
    else if c = 0x12 then some (.setMass 0 a (word32 b0 b1 b2 b3))
    else none
  | [c, a, b0, b1, b2, b3, m] =>
    if c = 0x14 then some (.approve 0 a (word32 b0 b1 b2 b3) m) else none
  | [c, a, b0, b1, b2, b3, b4, b5, b6, b7] =>
    if c = 0x13 then some (.setBand 0 a (word16 b0 b1) (word16 b2 b3) (word16 b4 b5) (word16 b6 b7)) else none
  | _ => none

/-- The bytes of a command item for a management command, its code first, from the same table R211; `none` for what
is no command item (an event, or table data). -/
def encodeCommand : Instr → Option (List Byte)
  | .selectTable _ t c o => some ([0x01, t, c] ++ bytes16 o)
  | .readTable _ n => some [0x02, n]
  | .commitTable _ t => some [0x03, t]
  | .reloadStaging _ => some [0x04]
  | .setParameter _ n v => some ([0x05, n] ++ bytes32 v)
  | .readParameter _ n => some [0x06, n]
  | .lock _ => some [0x07]
  | .unlock _ => some [0x08]
  | .openHeat _ f i => some ([0x10, f] ++ bytes32 i)
  | .drain _ f => some [0x11, f]
  | .setMass _ f m => some ([0x12, f] ++ bytes32 m)
  | .setBand _ f a b c d => some ([0x13, f] ++ bytes16 a ++ bytes16 b ++ bytes16 c ++ bytes16 d)
  | .approve _ f i m => some ([0x14, f] ++ bytes32 i ++ [m])
  | .revoke _ f => some [0x15, f]
  | .resetCircuit _ c => some [0x18, c]
  | .resetFurnace _ f => some [0x19, f]
  | .wdStart _ => some [0x20]
  | .heartbeat _ t => some ([0x21] ++ bytes16 t)
  | .wdPause _ => some [0x22]
  | .wdForce _ => some [0x23]
  | .wdRestart _ => some [0x24]
  | .allStop _ _ _ => some [0x28]
  | .resume _ => some [0x29]
  | .holdTaps _ => some [0x2A]
  | .releaseTaps _ => some [0x2B]
  | .ackChange _ => some [0x30]
  | .setOutput _ o l => some [0x31, o, l]
  | .clearCondition _ k s => some [0x32, k, s]
  | .readFurnace _ f p => some [0x38, f, p]
  | .readCircuit _ c p => some [0x39, c, p]
  | .readPoint _ n p => some [0x3A, n, p]
  | .readQueues _ p => some [0x3B, p]
  | .readConditions _ p => some [0x3C, p]
  | .readCounters _ p => some [0x3D, p]
  | .clearCounters _ => some [0x3E]
  | .restart _ _ _ => some [0x3F]
  | _ => none

end Sys2Proof
end

