-- ==== Sys2Proof/Machine/State.lean ====
section
/-! DEFINITION. The state of the T640, block by block as spec/00_scope.md lists the blocks, and its value after reset.
The enumerations stand in the order in which their owning rules first name their members, because R205 sends a member
as its index in that order. -/

namespace Sys2Proof.Machine

/-! ### Stops -/

/-- Why the machine could stop. No meaning raises one: every command of the table has an effect in every state. -/
inductive Fault where
  /-- Raised by nobody. It stands here so that the type has a member to name in a claim; stopping would be safe. -/
  | noFault
  deriving DecidableEq, Repr

/-- Why a command could have no meaning. -/
inductive Refusal where
  /-- Raised by `exec` alone, for a command without a meaning, by its mnemonic. No arm raises it. Safe. -/
  | notModelled (mnemonic : String)
  deriving DecidableEq, Repr

/-! ### Timers -/

/-- A timer measured against a limit that is read when it expires (R98, R108, R113, R179). -/
inductive Timer where
  | idle
  | running (start : Time)
  deriving DecidableEq, Repr

/-- A timer that keeps the duration it was started with (R111, R195: "a RUNNING timer keeps its expiry"). -/
inductive FixedTimer where
  | idle
  | running (start : Time) (ms : Nat)
  deriving DecidableEq, Repr

/-- A timer that can stand expired, measured from a time another field holds (hold start R70, anchor time R156). -/
inductive Lapse where
  | idle
  | running
  | expired
  deriving DecidableEq, Repr

/-- The start timer of a circuit, "with its start time while RUNNING" (R135). -/
inductive StartTimer where
  | idle
  | running (start : Time)
  | expired
  deriving DecidableEq, Repr

/-! ### Tables (R34) -/

/-- The image of one copy of a table: the bytes that differ from 00h, by rising byte address. -/
abbrev Image := List Host.Cell

/-- The two copies of one table. -/
structure Copies where
  staging : Image
  active : Image
  deriving DecidableEq, Repr

/-- The four loadable tables, in the order of their numbers 0 to 3. -/
inductive TableNo where
  | point
  | profile
  | cooling
  | contact
  deriving DecidableEq, Repr

/-- The tables, each held twice (R34). -/
structure Tables where
  point : Copies
  profile : Copies
  cooling : Copies
  contact : Copies
  deriving DecidableEq, Repr

/-! ### Conditions (R197) -/

/-- The kinds of condition, highest priority first. -/
inductive Kind where
  | allStop
  | circuitTrip
  | followFault
  | tiltFault
  | watchdogExpired
  | stale
  | tapAbort
  | validationFailed
  | overheld
  | changeOverrun
  | dipLow
  | overcharge
  | chargeRefused
  | loopDown
  | mgmtOverrun
  deriving DecidableEq, Repr

/-- One pair of the latched-condition set, with the time of its latest raise. -/
structure Latched where
  kind : Kind
  subject : Nat
  time : Time
  deriving DecidableEq, Repr

/-! ### Loop port (chapter 1) -/

/-- The receiver: the stored bytes of the frame being received and its over-long mark (R2). -/
structure Receiver where
  bytes : List Byte
  overLong : Bool
  deriving DecidableEq, Repr

/-- The class of an order record (R13). -/
inductive OrderClass where
  | safety
  | normal
  deriving DecidableEq, Repr

/-- An order record (R13). -/
structure OrderRec where
  value : Nat
  station : Byte
  channel : Byte
  cls : OrderClass
  deriving DecidableEq, Repr

/-- The action of a permit record (R13, R207). -/
inductive PermitAction where
  | grant
  | withdraw
  deriving DecidableEq, Repr

/-- A permit record (R13). -/
structure PermitRec where
  action : PermitAction
  drive : Byte
  demand : Byte
  deriving DecidableEq, Repr

/-- The reply in the reply slot: its destination and body (R14, R212). -/
structure ReplyRec where
  dest : Byte
  body : List Byte
  deriving DecidableEq, Repr

/-- What a REPORT says (R198, R210). -/
inductive ReportBody where
  | condition (kind : Kind) (subject : Nat) (time : Time) (topKind : Kind) (topSubject others : Nat)
  | change (levels : BitVec 16) (time : Time) (input : InputNo) (overrun : Bool)
  deriving DecidableEq, Repr

/-- An entry of the report FIFO; the destination is fixed at placement (R15). -/
structure Report where
  dest : Byte
  body : ReportBody
  deriving DecidableEq, Repr

/-- The statuses of R158, with the codes of R209 counting from 1. -/
inductive StatusKind where
  | queued
  | busy
  | full
  | bad
  | assigned
  | requeued
  | cancelled
  | done
  | short
  | unknown
  | cleared
  deriving DecidableEq, Repr

/-- An entry of the demand-status FIFO (R158); the destination is fixed at placement (R15). -/
structure Status where
  dest : Byte
  kind : StatusKind
  demand : Option Byte
  furnace : Option Furnace
  poured : Option Nat
  deriving DecidableEq, Repr

/-- The ring-out link (1.7): idle, or sending the frame whose bytes it holds. -/
inductive Link where
  | idle
  | sending (frame : List Byte)
  deriving DecidableEq, Repr

/-- The arbiter's turn (1.7). -/
inductive Turn where
  | transit
  | insert
  deriving DecidableEq, Repr

/-- The loop-down live state (R18). -/
inductive Live where
  | up
  | down
  deriving DecidableEq, Repr

/-- The loop counters of R19, in the table's order. -/
structure LoopCounters where
  valid : Nat
  bad : Nat
  hopExpired : Nat
  stripped : Nat
  rejectedMgmt : Nat
  mgmtOverrun : Nat
  rejectedDemands : Nat
  foreignOrders : Nat
  transitOverrun : Nat
  reportDrops : Nat
  statusDrops : Nat
  transmitted : Nat
  deriving DecidableEq, Repr

/-- The loop port's state (chapter 1). The silence timer runs from `lastValid` exactly while `live` is `up` (R18). -/
structure LoopPort where
  station : Byte
  lineRate : BitVec 2
  seq : Byte
  receiver : Receiver
  transit : List (List Byte)
  orders : Vector (Option OrderRec) 6
  permits : Vector (Option PermitRec) 6
  reply : Option ReplyRec
  reports : List Report
  statuses : List Status
  link : Link
  turn : Turn
  live : Live
  lastValid : Time
  counters : LoopCounters
  deriving DecidableEq, Repr

/-! ### Point intake (chapter 2) -/

/-- The live state of a used point entry (R22). The point's stale timer runs from `staleRef` exactly while its stale
limit is not 0 and `stale` is clear (R30). -/
structure PointLive where
  value : Option Int
  seq : Option Byte
  accepted : Option Time
  staleRef : Time
  clampedLast : Bool
  questionableLast : Bool
  stale : Bool
  deriving DecidableEq, Repr

/-- The stale indications of one circuit (R31). -/
structure CoolingStale where
  flow : Bool
  supply : Bool
  ret : Bool
  pressure : Bool
  deriving DecidableEq, Repr

/-- The stale indications (R31). -/
structure StaleInd where
  power : Vector Bool 6
  tilt : Vector Bool 6
  ladle : Bool
  cooling : Vector CoolingStale 8
  deriving DecidableEq, Repr

/-- The intake counters of R33, in the table's order. -/
structure IntakeCounters where
  unmatched : Nat
  duplicates : Nat
  clamped : Nat
  shortBodies : Nat
  deriving DecidableEq, Repr

/-- Point intake's state (chapter 2). -/
structure Intake where
  live : Vector (Option PointLive) 128
  stale : StaleInd
  counters : IntakeCounters
  deriving DecidableEq, Repr

/-! ### Contact unit (chapter 3) -/

/-- The change latch's snapshot (R46): the filtered levels, the time and the input whose edge took it. -/
structure Snapshot where
  levels : BitVec 16
  time : Time
  input : InputNo
  deriving DecidableEq, Repr

/-- The function indications of R45. -/
structure Indications where
  estop : Bool
  flowSwitch : Vector Bool 8
  leak : Vector Bool 8
  pumpRun : Vector Bool 8
  tiltHome : Vector Bool 6
  deriving DecidableEq, Repr

/-- The contact unit's state (chapter 3). Levels: `true` is closed, or on. -/
structure Contacts where
  raw : Vector Bool 16
  filtered : Vector Bool 16
  persistence : Vector Timer 16
  ind : Indications
  changePending : Bool
  overrun : Bool
  snapshot : Option Snapshot
  driven : Vector Bool 8
  commanded : Vector Bool 8
  frozen : Vector Bool 8
  deriving DecidableEq, Repr

/-! ### Heat records (chapters 4 and 5) -/

/-- The phases of a heat (R56). -/
inductive Phase where
  | empty
  | melting
  | superheat
  | holding
  | tapAssigned
  | tapping
  deriving DecidableEq, Repr

/-- The causes of a lockout (R56, R116). -/
inductive Lockout where
  | follow
  | tilt
  deriving DecidableEq, Repr

/-- A dip record (R56). -/
structure Dip where
  temp : Int
  time : Time
  deriving DecidableEq, Repr

/-- A chemistry approval (R56); the approval timer runs exactly while there is one (R69). -/
structure Approval where
  granted : Time
  minutes : Nat
  deriving DecidableEq, Repr

/-- The four band temperatures of a heat (R56). -/
structure Bands where
  holdLow : Int
  holdHigh : Int
  tapLow : Int
  tapHigh : Int
  deriving DecidableEq, Repr

/-- A heat record (R56, R80). -/
structure Heat where
  id : Option Nat
  phase : Phase
  mass : Nat
  energy : Nat
  residue : Nat
  progress : Option Nat
  temp : Option Int
  uncertain : Bool
  dip : Option Dip
  anchor : Option Time
  approval : Option Approval
  bands : Option Bands
  holdStart : Option Time
  holdTimer : Lapse
  lockout : Option Lockout
  deriving DecidableEq, Repr

/-- A heat record after a cold reset (R79). -/
def Heat.cold : Heat :=
  { id := none, phase := .empty, mass := 0, energy := 0, residue := 0, progress := none, temp := none,
    uncertain := false, dip := none, anchor := none, approval := none, bands := none, holdStart := none,
    holdTimer := .idle, lockout := none }

/-! ### Power allocator (chapter 6) -/

/-- What the allocator holds of a furnace (R98). -/
structure Power where
  ordered : Nat
  demand : Nat
  grant : Nat
  issued : Nat
  actual : Option Nat
  ramp : Timer
  refresh : FixedTimer
  follow : Timer
  deriving DecidableEq, Repr

/-- The allocator's state of a furnace after a cold reset (R121). -/
def Power.cold : Power :=
  { ordered := 0, demand := 0, grant := 0, issued := 0, actual := none, ramp := .idle, refresh := .idle,
    follow := .idle }

/-! ### Holding controller (chapter 7) -/

/-- The band positions (R123). -/
inductive Position where
  | low
  | inBand
  | high
  deriving DecidableEq, Repr

/-- What the last comparison decided on (R123). -/
inductive Basis where
  | temperature
  | uncertain
  | tpAbsent
  deriving DecidableEq, Repr

/-- What the holding controller holds of a furnace (R123). -/
structure Holding where
  position : Option Position
  basis : Option Basis
  compared : Option Int
  level : Nat
  since : Option Time
  deriving DecidableEq, Repr

/-- The holding controller's state of a furnace after a cold reset (R132). -/
def Holding.cold : Holding :=
  { position := none, basis := none, compared := none, level := 0, since := none }

/-! ### Cooling monitor (chapter 8) -/

/-- The circuit states (R135). -/
inductive CircuitState where
  | disabled
  | starting
  | normal
  | alert
  | derate
  | trip
  deriving DecidableEq, Repr

/-- The levels of a quantity (R135). -/
inductive Level where
  | ok
  | warn
  | derate
  | trip
  deriving DecidableEq, Repr

/-- One quantity of a circuit: its level, the beyond count of each of its thresholds, its recovery count and its last
evaluated value (R135). Pressure has no warn and no derate threshold, and those counts stay 0. -/
structure Quantity where
  level : Level
  warnCount : Nat
  derateCount : Nat
  tripCount : Nat
  recovery : Nat
  last : Option Int
  deriving DecidableEq, Repr

/-- A quantity at level OK with every count 0 and no value (R145, R153). -/
def Quantity.cold : Quantity :=
  { level := .ok, warnCount := 0, derateCount := 0, tripCount := 0, recovery := 0, last := none }

/-- The four quantities of a circuit, in the order of R141. -/
inductive QuantityNo where
  | flow
  | ret
  | rise
  | pressure
  deriving DecidableEq, Repr

/-- The cooling kinds of point, in the order of R143. -/
inductive CoolingKind where
  | flow
  | supply
  | ret
  | pressure
  deriving DecidableEq, Repr

/-- The cause a trip record names (R143). -/
inductive TripCause where
  | leak
  | flowSwitch
  | quantity (q : QuantityNo)
  | stale (kind : CoolingKind)
  deriving DecidableEq, Repr

/-- A trip record (R135, R143). -/
structure TripRec where
  cause : TripCause
  time : Time
  value : Option Int
  deriving DecidableEq, Repr

/-- One cooling circuit (R135). -/
structure Circuit where
  state : CircuitState
  flow : Quantity
  ret : Quantity
  rise : Quantity
  pressure : Quantity
  start : StartTimer
  trip : Option TripRec
  water : Bool
  deriving DecidableEq, Repr

/-- A circuit after a cold reset (R153). -/
def Circuit.cold : Circuit :=
  { state := .disabled, flow := Quantity.cold, ret := Quantity.cold, rise := Quantity.cold,
    pressure := Quantity.cold, start := .idle, trip := none, water := false }

/-! ### Tap coordinator (chapter 9) -/

/-- A demand of the pouring line (R154, R157). -/
structure Demand where
  id : Byte
  mass : Nat
  low : Int
  high : Int
  deriving DecidableEq, Repr

/-- An entry of the ready list (R154). -/
structure Ready where
  furnace : Furnace
  since : Time
  deriving DecidableEq, Repr

/-- The states of the pour station (R154). -/
inductive Station where
  | idle
  | assigned
  | permitted
  | pouring
  | returning
  deriving DecidableEq, Repr

/-- The pour station's record (R154). -/
structure Pour where
  demand : Demand
  furnace : Furnace
  drive : Option Byte
  tare : Option Nat
  poured : Nat
  abort : Bool
  deriving DecidableEq, Repr

/-- The tap coordinator's state (R154). -/
structure Taps where
  ready : List Ready
  queue : List Demand
  station : Station
  pour : Option Pour
  tiltStart : FixedTimer
  pourTimer : FixedTimer
  returnTimer : FixedTimer
  held : Bool
  tilt : Vector (Option Nat) 6
  ladle : Option Nat
  dipAge : Vector Lapse 6
  malformed : Nat
  deriving DecidableEq, Repr

/-- The tap coordinator after a cold reset (R174). -/
def Taps.cold : Taps :=
  { ready := [], queue := [], station := .idle, pour := none, tiltStart := .idle, pourTimer := .idle,
    returnTimer := .idle, held := false, tilt := Vector.replicate 6 none, ladle := none,
    dipAge := Vector.replicate 6 .idle, malformed := 0 }

/-! ### Supervision watchdog (chapter 10) -/

/-- The watchdog states (R176). -/
inductive WatchState where
  | stopped
  | expectA
  | expectB
  | paused
  | expired
  deriving DecidableEq, Repr

/-- The tokens (R176). -/
inductive Token where
  | a
  | b
  deriving DecidableEq, Repr

/-- The shop run state (R183). -/
inductive Run where
  | run
  | allStop
  deriving DecidableEq, Repr

/-- Why ALL_STOP was entered (R183). -/
inductive StopCause where
  | estop
  | addressed
  | broadcast
  deriving DecidableEq, Repr

/-- The stop record (R183): `number` is the input number of an ESTOP, or the source station of a command. -/
structure StopRec where
  cause : StopCause
  number : Byte
  time : Time
  deriving DecidableEq, Repr

/-- The supervision watchdog's state (R176, R183). -/
structure Watch where
  state : WatchState
  expected : Token
  timer : Timer
  expiries : Nat
  run : Run
  stop : Option StopRec
  deriving DecidableEq, Repr

/-- The watchdog after a cold reset (R186). -/
def Watch.cold : Watch :=
  { state := .stopped, expected := .a, timer := .idle, expiries := 0, run := .run, stop := none }

/-! ### Management unit (chapter 11) -/

/-- The shop parameter record (R194), in the order of the parameter numbers. -/
structure Params where
  pCap : Nat
  pReserve : Nat
  supervisor : Nat
  pouringLine : Nat
  interceptBase : Nat
  interceptMask : Nat
  orderRefresh : Nat
  loopSilence : Nat
  watchdogTimeout : Nat
  tokenA : Nat
  tokenB : Nat
  dipMaxAge : Nat
  tiltHome : Nat
  pourLead : Nat
  tiltStartTimeout : Nat
  pourTimeout : Nat
  returnTimeout : Nat
  deriving DecidableEq, Repr

/-- The defaults of R194. -/
def Params.default : Params :=
  { pCap := 0, pReserve := 0, supervisor := 0, pouringLine := 0, interceptBase := 0, interceptMask := 0,
    orderRefresh := 500, loopSilence := 200, watchdogTimeout := 2000, tokenA := 0x4B1D, tokenB := 0xB4E2,
    dipMaxAge := 10, tiltHome := 20, pourLead := 0, tiltStartTimeout := 30, pourTimeout := 300,
    returnTimeout := 45 }

/-- The outcomes of a validation (R39). -/
inductive Verdict where
  | none
  | passed
  | failed
  | abandoned
  deriving DecidableEq, Repr

/-- The causes of a failed validation, in the order of R37 and R38. -/
inductive FailCause where
  | badKind
  | badOwner
  | badRange
  | duplicateKey
  | missingPoint
  | badReference
  deriving DecidableEq, Repr

/-- The validator: IDLE, or VALIDATING a table (R36), and its record (R39). -/
structure Validator where
  validating : Option TableNo
  outcome : Verdict
  table : Option TableNo
  failure : Option (FailCause × Nat)
  deriving DecidableEq, Repr

/-- The table selection (R190): a table, a copy and the table pointer. -/
structure Selection where
  table : TableNo
  active : Bool
  pointer : Nat
  deriving DecidableEq, Repr

/-- The results of R188, in the order of their codes (R212). -/
inductive Result where
  | ok
  | busy
  | invalid
  | range
  | state
  | locked
  | absent
  | skipped
  deriving DecidableEq, Repr

/-- The MGMT frame under execution, or the last one executed: how many items it has, the results of those executed
so far and their read data, from which the reply is made (R188, R189). The model's own field (log entry 2). -/
structure ItemFrame where
  items : Nat
  results : List Result
  data : List Byte
  deriving DecidableEq, Repr

/-- The management unit's state (chapter 11). -/
structure Mgmt where
  selection : Option Selection
  latch : Byte
  validator : Validator
  params : Params
  locked : Bool
  latched : List Latched
  frame : ItemFrame
  deriving DecidableEq, Repr

/-! ### The machine -/

/-- The whole state of the part, and the queue of the commands that wait for it. -/
structure State where
  pending : List Instr
  /-- The time base (spec/00_scope.md). -/
  time : Time
  /-- The reset pin is held low (R55). -/
  pinLow : Bool
  loop : LoopPort
  intake : Intake
  tables : Tables
  contacts : Contacts
  heats : Vector Heat 6
  power : Vector Power 6
  /-- The order-clamp counter (R98). -/
  orderClamps : Nat
  holding : Vector Holding 6
  circuits : Vector Circuit 8
  taps : Taps
  watch : Watch
  mgmt : Mgmt
  deriving DecidableEq, Repr

/-- The loop counters after a reset (R19). -/
def LoopCounters.zero : LoopCounters :=
  { valid := 0, bad := 0, hopExpired := 0, stripped := 0, rejectedMgmt := 0, mgmtOverrun := 0,
    rejectedDemands := 0, foreignOrders := 0, transitOverrun := 0, reportDrops := 0, statusDrops := 0,
    transmitted := 0 }

/-- The intake counters after a reset (R33). -/
def IntakeCounters.zero : IntakeCounters :=
  { unmatched := 0, duplicates := 0, clamped := 0, shortBodies := 0 }

/-- The station address of the address straps (R1): E8h plus the strap value. -/
def stationOf (straps : BitVec 3) : Byte := 0xE8 + straps.setWidth 8

/-- The loop port after a cold reset with these straps (R20). -/
def LoopPort.cold (addressStraps : BitVec 3) (rateStraps : BitVec 2) : LoopPort :=
  { station := stationOf addressStraps, lineRate := rateStraps, seq := 0,
    receiver := { bytes := [], overLong := false }, transit := [], orders := Vector.replicate 6 none,
    permits := Vector.replicate 6 none, reply := none, reports := [], statuses := [], link := .idle,
    turn := .transit, live := .up, lastValid := 0, counters := LoopCounters.zero }

/-- No stale indication is on (R42). -/
def StaleInd.off : StaleInd :=
  { power := Vector.replicate 6 false, tilt := Vector.replicate 6 false, ladle := false,
    cooling := Vector.replicate 8 { flow := false, supply := false, ret := false, pressure := false } }

/-- Point intake after a cold reset (R42). -/
def Intake.cold : Intake :=
  { live := Vector.replicate 128 none, stale := StaleInd.off, counters := IntakeCounters.zero }

/-- The indications for an empty contact map (R45, R55). -/
def Indications.unmapped : Indications :=
  { estop := false, flowSwitch := Vector.replicate 8 false, leak := Vector.replicate 8 false,
    pumpRun := Vector.replicate 8 true, tiltHome := Vector.replicate 6 true }

/-- The contact unit after a cold reset that samples these raw levels (R55). -/
def Contacts.cold (raw : BitVec 16) : Contacts :=
  { raw := Vector.ofFn (fun i : Fin 16 => raw.getLsbD i), filtered := Vector.ofFn (fun i : Fin 16 => raw.getLsbD i),
    persistence := Vector.replicate 16 .idle, ind := Indications.unmapped, changePending := false,
    overrun := false, snapshot := none, driven := Vector.replicate 8 false, commanded := Vector.replicate 8 false,
    frozen := Vector.replicate 8 false }

/-- The tables after a cold reset: every copy empty (R42). -/
def Tables.empty : Tables :=
  { point := { staging := [], active := [] }, profile := { staging := [], active := [] },
    cooling := { staging := [], active := [] }, contact := { staging := [], active := [] } }

/-- The management unit after a cold reset (R203). -/
def Mgmt.cold : Mgmt :=
  { selection := none, latch := 0,
    validator := { validating := none, outcome := .none, table := none, failure := none },
    params := Params.default, locked := false, latched := [],
    frame := { items := 0, results := [], data := [] } }

/-- The part after a cold reset that samples these straps and raw levels. -/
def State.cold (addressStraps : BitVec 3) (rateStraps : BitVec 2) (raw : BitVec 16) : State :=
  { pending := [], time := 0, pinLow := false, loop := LoopPort.cold addressStraps rateStraps,
    intake := Intake.cold, tables := Tables.empty, contacts := Contacts.cold raw,
    heats := Vector.replicate 6 Heat.cold, power := Vector.replicate 6 Power.cold, orderClamps := 0,
    holding := Vector.replicate 6 Holding.cold, circuits := Vector.replicate 8 Circuit.cold,
    taps := Taps.cold, watch := Watch.cold, mgmt := Mgmt.cold }

/-- The machine right after reset, with every strap at 0 and every contact open (log entry 5). -/
def State.reset : State := State.cold 0 0 0

end Sys2Proof.Machine
end

