-- ==== Sys2Proof/Machine/Ops.lean ====
section
/-! DEFINITION. The operations every block shares: the subjects in ascending order, ages and timers, saturating
counters, table images, the encodings of R205, the check of R204, and updates of one furnace, circuit or point. -/

namespace Sys2Proof.Machine

/-! ### Subjects in ascending number -/

/-- The furnaces, ascending. -/
def furnaces : List Furnace := [0, 1, 2, 3, 4, 5]

/-- The circuits, ascending. -/
def circuitNos : List CircuitNo := [0, 1, 2, 3, 4, 5, 6, 7]

/-- The contact inputs, ascending. -/
def inputNos : List InputNo := [0, 1, 2, 3, 4, 5, 6, 7, 8, 9, 10, 11, 12, 13, 14, 15]

/-- The contact outputs, ascending. -/
def outputNos : List OutputNo := [0, 1, 2, 3, 4, 5, 6, 7]

/-- The points, ascending. -/
def pointNos : List PointNo := List.finRange 128

/-- The furnace of a furnace number 1 to 6. -/
def furnaceOf (n : Nat) : Option Furnace :=
  if h : 1 ≤ n ∧ n ≤ 6 then some ⟨n - 1, by omega⟩ else none

/-- The circuit of a circuit number 1 to 8. -/
def circuitOf (n : Nat) : Option CircuitNo :=
  if h : 1 ≤ n ∧ n ≤ 8 then some ⟨n - 1, by omega⟩ else none

/-- The number, from 1, that the manual gives a furnace or a circuit. -/
def numberOf {n : Nat} (i : Fin n) : Nat := i.val + 1

/-! ### Time -/

/-- The difference of two readings of the time base, modulo 2^32 (spec/00_scope.md, Time base). -/
def age (now start : Time) : Nat := (now - start).toNat

/-- A time of `ms` has passed since `start`. -/
def reached (now start : Time) (ms : Nat) : Bool := decide (ms ≤ age now start)

/-- What is left of `ms` since `start`; 0 once it has passed (log entry 7). -/
def remaining (now start : Time) (ms : Nat) : Nat := ms - age now start

/-- `dt` milliseconds pass. -/
def State.advance (s : State) (dt : Time) : State := { s with time := s.time + dt }

/-- A command that comes `dt` milliseconds after the step before it. While the reset pin is held low the part takes
nothing but the pin's release (log entry 16). -/
def State.event (s : State) (dt : Time) (k : State → State) : State := if s.pinLow then s else k (s.advance dt)

/-- A running timer restarts at `now`; an idle one stays idle (R113). -/
def Timer.restart (now : Time) : Timer → Timer
  | .idle => .idle
  | .running _ => .running now

/-- An idle timer starts at `now`; a running one keeps its start (R107, R113). -/
def Timer.ensure (now : Time) : Timer → Timer
  | .idle => .running now
  | .running t => .running t

/-! ### Counters -/

/-- A 32-bit counter stays at 4,294,967,295 (R19, R33, R98, R154). -/
def counterMax : Nat := 4294967295

/-- One more event on a 32-bit counter. -/
def bump (n : Nat) : Nat := min counterMax (n + 1)

/-- One more on a count of one byte, which stays at 255 (R135, R182). -/
def bump8 (n : Nat) : Nat := min 255 (n + 1)

/-! ### Table images (R34) -/

/-- What a byte of an image reads as where nothing is listed: 00h (log entry 6). -/
def Image.unlisted : Byte := 0

/-- The byte of an image at an address. -/
def Image.read : Image → Nat → Byte
  | [], _ => Image.unlisted
  | (k, b) :: rest, a => if a < k then Image.unlisted else if a = k then b else Image.read rest a

/-- An image with the byte at one address replaced; writing what an unlisted address reads as removes the entry. -/
def Image.write : Image → Nat → Byte → Image
  | [], a, v => if v = Image.unlisted then [] else [(a, v)]
  | (k, b) :: rest, a, v =>
    if a < k then (if v = Image.unlisted then (k, b) :: rest else (a, v) :: (k, b) :: rest)
    else if a = k then (if v = Image.unlisted then rest else (a, v) :: rest)
    else (k, b) :: Image.write rest a v

/-- The canonical form from an address on: rising addresses, no entry equal to what an unlisted address reads as. -/
def Image.wfFrom : Nat → Image → Bool
  | _, [] => true
  | a, (k, b) :: rest => decide (a ≤ k) && (b != Image.unlisted) && Image.wfFrom (k + 1) rest

/-- The image is in canonical form. -/
def Image.wf (m : Image) : Bool := Image.wfFrom 0 m

/-- The two bytes at an address as an unsigned number, most significant first (R205). -/
def Image.u16 (m : Image) (a : Nat) : Nat := (word16 (m.read a) (m.read (a + 1))).toNat

/-- The two bytes at an address as a signed number. -/
def Image.s16 (m : Image) (a : Nat) : Int := (word16 (m.read a) (m.read (a + 1))).toInt

/-- The four bytes at an address as an unsigned number. -/
def Image.u32 (m : Image) (a : Nat) : Nat :=
  (word32 (m.read a) (m.read (a + 1)) (m.read (a + 2)) (m.read (a + 3))).toNat

/-- The four bytes at an address as a signed number. -/
def Image.s32 (m : Image) (a : Nat) : Int :=
  (word32 (m.read a) (m.read (a + 1)) (m.read (a + 2)) (m.read (a + 3))).toInt

/-- A flag byte is read in its bit 0 alone (R205). -/
def Image.flag (m : Image) (a : Nat) : Bool := (m.read a).getLsbD 0

/-- The size in bytes of a table's image (R213 to R216). -/
def TableNo.size : TableNo → Nat
  | .point => 3072
  | .profile => 336
  | .cooling => 288
  | .contact => 96

/-- A table's number (R34). -/
def TableNo.number : TableNo → Nat
  | .point => 0
  | .profile => 1
  | .cooling => 2
  | .contact => 3

/-- The table of a number 0 to 3. -/
def tableOf : Nat → Option TableNo
  | 0 => some .point
  | 1 => some .profile
  | 2 => some .cooling
  | 3 => some .contact
  | _ => none

/-- The two copies of a table. -/
def Tables.copies (t : Tables) : TableNo → Copies
  | .point => t.point
  | .profile => t.profile
  | .cooling => t.cooling
  | .contact => t.contact

/-- The tables with the copies of one replaced. -/
def Tables.setCopies (t : Tables) (n : TableNo) (c : Copies) : Tables :=
  match n with
  | .point => { t with point := c }
  | .profile => { t with profile := c }
  | .cooling => { t with cooling := c }
  | .contact => { t with contact := c }

/-- One copy of a table. -/
def Copies.image (c : Copies) (active : Bool) : Image := if active then c.active else c.staging

/-! ### Encodings (R205) -/

/-- A byte. -/
def enc8 (n : Nat) : List Byte := [BitVec.ofNat 8 n]

/-- An unsigned field of two bytes. -/
def enc16 (n : Nat) : List Byte := bytes16 (BitVec.ofNat 16 n)

/-- An unsigned field of four bytes. -/
def enc32 (n : Nat) : List Byte := bytes32 (BitVec.ofNat 32 n)

/-- A signed field of two bytes. -/
def encS16 (i : Int) : List Byte := bytes16 (BitVec.ofInt 16 i)

/-- A signed field of four bytes. -/
def encS32 (i : Int) : List Byte := bytes32 (BitVec.ofInt 32 i)

/-- A flag byte. -/
def encFlag (b : Bool) : List Byte := if b then [1] else [0]

/-- An optional field of `n` bytes: the presence byte, then the value, every byte 00h when absent. -/
def encOpt {α : Type} (n : Nat) (enc : α → List Byte) : Option α → List Byte
  | none => List.replicate (n + 1) 0
  | some x => 1 :: enc x

/-- Levels as a number, the element of index i in bit i. -/
def levelBits : List Bool → Nat
  | [] => 0
  | b :: rest => b.toNat + 2 * levelBits rest

/-- The sixteen levels as the word of a change report (R210): DI15 in the top bit, DI0 in the lowest. -/
def levelWord (v : Vector Bool 16) : BitVec 16 := BitVec.ofNat 16 (levelBits v.toList)

/-! ### The check of a frame (R204) -/

/-- One message bit enters the register. -/
def crcBit (r : BitVec 16) (bit : Bool) : BitVec 16 :=
  if r.msb != bit then (r <<< 1) ^^^ 0x1021 else r <<< 1

/-- One byte enters the register, most significant bit first. -/
def crcByte (r : BitVec 16) (b : Byte) : BitVec 16 :=
  [7, 6, 5, 4, 3, 2, 1, 0].foldl (fun r i => crcBit r (b.getLsbD i)) r

/-- The check over bytes in sending order. -/
def crc16 (bytes : List Byte) : BitVec 16 := bytes.foldl crcByte 0xFFFF

/-! ### Updates of one subject -/

/-- The state with the heat record of one furnace replaced. -/
def State.setHeat (s : State) (f : Furnace) (h : Heat) : State := { s with heats := s.heats.set f h }

/-- The state with the allocator's state of one furnace replaced. -/
def State.setPower (s : State) (f : Furnace) (p : Power) : State := { s with power := s.power.set f p }

/-- The state with the holding controller's state of one furnace replaced. -/
def State.setHolding (s : State) (f : Furnace) (h : Holding) : State := { s with holding := s.holding.set f h }

/-- The state with one circuit replaced. -/
def State.setCircuit (s : State) (c : CircuitNo) (x : Circuit) : State := { s with circuits := s.circuits.set c x }

/-- The state with the live state of one point replaced. -/
def State.setLive (s : State) (i : PointNo) (l : Option PointLive) : State :=
  { s with intake := { s.intake with live := s.intake.live.set i l } }

/-- The state with the dip-age timer of one furnace replaced. -/
def State.setDipAge (s : State) (f : Furnace) (t : Lapse) : State :=
  { s with taps := { s.taps with dipAge := s.taps.dipAge.set f t } }

/-- The state with another loop port. -/
def State.withLoop (s : State) (l : LoopPort) : State := { s with loop := l }

/-- The state with another tap coordinator. -/
def State.withTaps (s : State) (t : Taps) : State := { s with taps := t }

/-- The state with another contact unit. -/
def State.withContacts (s : State) (c : Contacts) : State := { s with contacts := c }

/-- The state with another watchdog. -/
def State.withWatch (s : State) (w : Watch) : State := { s with watch := w }

/-- The state with another management unit. -/
def State.withMgmt (s : State) (m : Mgmt) : State := { s with mgmt := m }

/-- The state with other shop parameters. -/
def State.withParams (s : State) (p : Params) : State := s.withMgmt { s.mgmt with params := p }

end Sys2Proof.Machine
end

