-- ==== Sys2Proof/Machine/Operands.lean ====
section
/-! DEFINITION. The entries of the four tables as their images hold them (spec/12, 12.4), and the bodies of arriving
frames (spec/12, 12.3). Every block reads the active copy at the moment a rule uses it. -/

namespace Sys2Proof.Machine

/-! ### The point table (R21, R213) -/

/-- The kinds of a point. -/
inductive PointKind where
  | powerActual
  | powerOrder
  | dipTemp
  | chargeMass
  | ladleMass
  | tiltAngle
  | flow
  | supplyTemp
  | returnTemp
  | pressure
  deriving DecidableEq, Repr

/-- The kind of a kind code; 0 marks an unused entry and a code above 10 names none. -/
def pointKindOf : Nat → Option PointKind
  | 1 => some .powerActual
  | 2 => some .powerOrder
  | 3 => some .dipTemp
  | 4 => some .chargeMass
  | 5 => some .ladleMass
  | 6 => some .tiltAngle
  | 7 => some .flow
  | 8 => some .supplyTemp
  | 9 => some .returnTemp
  | 10 => some .pressure
  | _ => none

/-- A point entry. -/
structure PointEntry where
  station : Byte
  channel : Byte
  kindCode : Byte
  owner : Byte
  skip : Bool
  num : Int
  den : Nat
  offset : Int
  low : Int
  high : Int
  interval : Nat
  limit : Nat
  deriving DecidableEq, Repr

/-- Entry i of a point table image. -/
def pointEntry (m : Image) (i : PointNo) : PointEntry :=
  let a := 24 * i.val
  { station := m.read a, channel := m.read (a + 1), kindCode := m.read (a + 2), owner := m.read (a + 3),
    skip := m.flag (a + 4), num := m.s16 (a + 5), den := m.u16 (a + 7), offset := m.s16 (a + 9),
    low := m.s32 (a + 11), high := m.s32 (a + 15), interval := m.u16 (a + 19), limit := m.u16 (a + 21) }

/-- The kind of an entry; none for an unused one. -/
def PointEntry.kind (e : PointEntry) : Option PointKind := pointKindOf e.kindCode.toNat

/-- The entry is a point. -/
def PointEntry.used (e : PointEntry) : Bool := e.kindCode != 0

/-- The cooling kind of a point kind. -/
def PointKind.cooling : PointKind → Option CoolingKind
  | .flow => some .flow
  | .supplyTemp => some .supply
  | .returnTemp => some .ret
  | .pressure => some .pressure
  | _ => none

/-- The point kind of a cooling kind. -/
def CoolingKind.point : CoolingKind → PointKind
  | .flow => .flow
  | .supply => .supplyTemp
  | .ret => .returnTemp
  | .pressure => .pressure

/-- Entry i of the active point table. -/
def State.point (s : State) (i : PointNo) : PointEntry := pointEntry s.tables.point.active i

/-- The point of an image with a kind and an owner number, lowest first. -/
def findOwned (m : Image) (k : PointKind) (owner : Nat) : Option PointNo :=
  pointNos.find? fun i =>
    decide (pointKindOf (m.read (24 * i.val + 2)).toNat = some k) && decide ((m.read (24 * i.val + 3)).toNat = owner)

/-- The point an item matches (R23): its key, and a kind that is or is not POWER_ORDER. -/
def findKey (m : Image) (station channel : Byte) (order : Bool) : Option PointNo :=
  pointNos.find? fun i =>
    let k := m.read (24 * i.val + 2)
    (k != 0) && decide (decide (pointKindOf k.toNat = some .powerOrder) = order)
      && decide (m.read (24 * i.val) = station) && decide (m.read (24 * i.val + 1) = channel)

/-! ### The profile table (R57, R80, R99, R123, R154, R214) -/

/-- A profile entry. -/
structure Profile where
  rated : Nat
  capacity : Nat
  heel : Nat
  holdLow : Int
  holdHigh : Int
  tapLow : Int
  tapHigh : Int
  maxHold : Nat
  meltEnergy : Nat
  heatCapacity : Nat
  liquidus : Int
  loss : Nat
  unsupervised : Nat
  tiltCeiling : Nat
  boost : Nat
  mid : Nat
  min : Nat
  rampStep : Nat
  rampInterval : Nat
  tolerance : Nat
  followWindow : Nat
  inverter : Byte
  channel : Byte
  coil : Byte
  cabinet : Byte
  drive : Byte
  minTap : Nat
  deriving DecidableEq, Repr

/-- The entry of furnace f in a profile table image. -/
def profileEntry (m : Image) (f : Furnace) : Profile :=
  let a := 56 * f.val
  { rated := m.u16 a, capacity := m.u32 (a + 2), heel := m.u32 (a + 6), holdLow := m.s16 (a + 10),
    holdHigh := m.s16 (a + 12), tapLow := m.s16 (a + 14), tapHigh := m.s16 (a + 16), maxHold := m.u16 (a + 18),
    meltEnergy := m.u16 (a + 20), heatCapacity := m.u16 (a + 22), liquidus := m.s16 (a + 24), loss := m.u16 (a + 26),
    unsupervised := m.u16 (a + 28), tiltCeiling := m.u16 (a + 30), boost := m.u16 (a + 32), mid := m.u16 (a + 34),
    min := m.u16 (a + 36), rampStep := m.u16 (a + 38), rampInterval := m.u16 (a + 40), tolerance := m.u16 (a + 42),
    followWindow := m.u16 (a + 44), inverter := m.read (a + 46), channel := m.read (a + 47), coil := m.read (a + 48),
    cabinet := m.read (a + 49), drive := m.read (a + 50), minTap := m.u32 (a + 52) }

/-- The furnace's entry in the active profile table. -/
def State.profile (s : State) (f : Furnace) : Profile := profileEntry s.tables.profile.active f

/-- The furnace is rated (R34, R57). -/
def State.rated (s : State) (f : Furnace) : Bool := decide (0 < (s.profile f).rated)

/-- The furnace is rated and names the circuit as its coil circuit. -/
def State.coilOf (s : State) (f : Furnace) (c : CircuitNo) : Bool :=
  s.rated f && decide ((s.profile f).coil.toNat = numberOf c)

/-- The furnace is rated and names the circuit as its cabinet circuit. -/
def State.cabinetOf (s : State) (f : Furnace) (c : CircuitNo) : Bool :=
  s.rated f && decide ((s.profile f).cabinet.toNat = numberOf c)

/-! ### The cooling table (R133, R215) -/

/-- A cooling entry. -/
structure CoolingEntry where
  enabled : Bool
  persistence : Nat
  derate : Nat
  flowWarn : Nat
  flowDerate : Nat
  flowTrip : Nat
  retWarn : Int
  retDerate : Int
  retTrip : Int
  riseWarn : Nat
  riseDerate : Nat
  riseTrip : Nat
  pressureTrip : Nat
  flowHyst : Nat
  retHyst : Nat
  riseHyst : Nat
  pressureHyst : Nat
  startWindow : Nat
  deriving DecidableEq, Repr

/-- The entry of circuit c in a cooling table image. -/
def coolingEntry (m : Image) (c : CircuitNo) : CoolingEntry :=
  let a := 36 * c.val
  { enabled := m.flag a, persistence := (m.read (a + 1)).toNat, derate := (m.read (a + 2)).toNat,
    flowWarn := m.u16 (a + 4), flowDerate := m.u16 (a + 6), flowTrip := m.u16 (a + 8), retWarn := m.s16 (a + 10),
    retDerate := m.s16 (a + 12), retTrip := m.s16 (a + 14), riseWarn := m.u16 (a + 16), riseDerate := m.u16 (a + 18),
    riseTrip := m.u16 (a + 20), pressureTrip := m.u16 (a + 22), flowHyst := m.u16 (a + 24), retHyst := m.u16 (a + 26),
    riseHyst := m.u16 (a + 28), pressureHyst := m.u16 (a + 30), startWindow := m.u16 (a + 32) }

/-- The circuit's entry in the active cooling table. -/
def State.cooling (s : State) (c : CircuitNo) : CoolingEntry := coolingEntry s.tables.cooling.active c

/-! ### The contact map (R43, R216) -/

/-- An input entry. -/
structure InputEntry where
  function : Byte
  subject : Byte
  invert : Bool
  filter : BitVec 4
  edge : BitVec 4
  deriving DecidableEq, Repr

/-- The entry of an input in a contact map image. -/
def inputEntry (m : Image) (i : InputNo) : InputEntry :=
  let a := 4 * i.val
  { function := m.read a, subject := m.read (a + 1), invert := m.flag (a + 2),
    filter := (m.read (a + 3)).extractLsb' 0 4, edge := (m.read (a + 3)).extractLsb' 4 4 }

/-- An output entry. -/
structure OutputEntry where
  function : Byte
  subject : Byte
  mode : Byte
  level : Byte
  deriving DecidableEq, Repr

/-- The entry of an output in a contact map image. -/
def outputEntry (m : Image) (o : OutputNo) : OutputEntry :=
  let a := 64 + 4 * o.val
  { function := m.read a, subject := m.read (a + 1), mode := m.read (a + 2), level := m.read (a + 3) }

/-- The input's entry in the active contact map. -/
def State.input (s : State) (i : InputNo) : InputEntry := inputEntry s.tables.contact.active i

/-- The output's entry in the active contact map. -/
def State.output (s : State) (o : OutputNo) : OutputEntry := outputEntry s.tables.contact.active o

/-- The function codes of inputs and outputs (R216). -/
def fnEstop : Byte := 1
def fnFlowSwitch : Byte := 2
def fnLeak : Byte := 3
def fnPumpRun : Byte := 4
def fnTiltHome : Byte := 5
def fnEmergencyWater : Byte := 1
def fnSupplyTrip : Byte := 2
def fnAlarm : Byte := 3
def fnReadyLamp : Byte := 4
def fnManual : Byte := 5

/-- The safe mode codes (R216). -/
def modeFollow : Byte := 0
def modeHold : Byte := 1
def modeSafe : Byte := 2

/-- The persistence time in ms of a filter class code (R44). A code above 3 is a free value (log entry 9). -/
def persistenceTime (c : BitVec 4) : Nat :=
  if c = 0 then 0 else if c = 1 then 2 else if c = 2 then 20 else if c = 3 then 200
  else Config.unlistedPersistence c

/-- The edge selection selects a rising, or a falling, edge (R46). A code above 3 is a free value (log entry 9). -/
def edgeSelected (e : BitVec 4) (rising : Bool) : Bool :=
  if e = 0 then false else if e = 1 then rising else if e = 2 then !rising else if e = 3 then true
  else Config.unlistedEdge e rising

/-! ### Bodies of arriving frames -/

/-- An item of a SAMPLE or ORDER body (R206): bit 7 of the status is the questionable mark. -/
structure SampleItem where
  channel : Byte
  questionable : Bool
  raw : Int
  deriving DecidableEq, Repr

/-- The whole items of a SAMPLE or ORDER body, in body order (R23). -/
def sampleItems : List Byte → List SampleItem
  | c :: st :: hi :: lo :: rest =>
    { channel := c, questionable := st.getLsbD 7, raw := (word16 hi lo).toInt } :: sampleItems rest
  | _ => []

/-- A DEMAND body (R208); none where the length is not that of the layout. -/
def demandBody : List Byte → Option Demand
  | [i, m0, m1, m2, m3, a0, a1, b0, b1] =>
    some { id := i, mass := (word32 m0 m1 m2 m3).toNat, low := (word16 a0 a1).toInt, high := (word16 b0 b1).toInt }
  | _ => none

/-- A CANCEL body (R208). -/
def cancelBody : List Byte → Option Byte
  | [i] => some i
  | _ => none

/-! ### The items of a MGMT body (R187, R211) -/

/-- An item: a command's bytes, table data, or an item cut short. -/
inductive MgmtItem where
  | command (bytes : List Byte)
  | data (bytes : List Byte)
  | truncated
  deriving DecidableEq, Repr

/-- The trailing data of a body (R187): none when no bytes remain. -/
def trailing : List Byte → List MgmtItem
  | [] => []
  | b :: rest => [.data (b :: rest)]

/-- The division of a body from a control byte on. `fuel` bounds the number of control bytes. -/
def divideFrom : Nat → List Byte → List MgmtItem
  | 0, _ => []
  | _ + 1, [] => [.truncated]
  | fuel + 1, ctl :: rest =>
    let len := (ctl.extractLsb' 0 6).toNat
    if rest.length < len then [.truncated]
    else
      let bytes := rest.take len
      let item := if ctl.getLsbD 6 then MgmtItem.data bytes else MgmtItem.command bytes
      if ctl.getLsbD 7 then item :: divideFrom fuel (rest.drop len) else item :: trailing (rest.drop len)

/-- The items of a MGMT body; a body of length 0 has none (R187). -/
def divide (body : List Byte) : List MgmtItem :=
  match body with
  | [] => []
  | b :: rest => divideFrom (rest.length + 2) (b :: rest)

end Sys2Proof.Machine
end

