-- ==== Sys2Proof/Machine/Flags.lean ====
section
/-! DEFINITION. What blocks derive from the state whenever it is wanted: input activity and function indications
(R45), trip causes (R141), the derate (R101), readiness (R155) and the level of an output (R50 to R53). -/

namespace Sys2Proof.Machine

/-! ### Contact indications (R45) -/

/-- An input is active: closed with invert clear, or open with invert set. -/
def State.active (s : State) (i : InputNo) : Bool := s.contacts.filtered[i] != (s.input i).invert

/-- An input of the active contact map has a function and a subject number. -/
def State.inputIs (s : State) (i : InputNo) (fn : Byte) (subject : Nat) : Bool :=
  decide ((s.input i).function = fn) && decide ((s.input i).subject.toNat = subject)

/-- The indications as the filtered levels and the active contact map give them. -/
def State.indications (s : State) : Indications :=
  { estop := inputNos.any fun i => decide ((s.input i).function = fnEstop) && s.active i
    flowSwitch := Vector.ofFn fun c : CircuitNo => inputNos.any fun i => s.inputIs i fnFlowSwitch (numberOf c) && !s.active i
    leak := Vector.ofFn fun c : CircuitNo => inputNos.any fun i => s.inputIs i fnLeak (numberOf c) && s.active i
    pumpRun := Vector.ofFn fun c : CircuitNo => inputNos.all fun i => !s.inputIs i fnPumpRun (numberOf c) || s.active i
    tiltHome := Vector.ofFn fun f : Furnace => inputNos.all fun i => !s.inputIs i fnTiltHome (numberOf f) || s.active i }

/-- The lowest-numbered active ESTOP input (R183). -/
def State.estopInput (s : State) : Option InputNo :=
  inputNos.find? fun i => decide ((s.input i).function = fnEstop) && s.active i

/-! ### Stale indications (R31) -/

/-- The point of a kind and owner exists in the active table with its stale flag set. -/
def State.ownedStale (s : State) (k : PointKind) (owner : Nat) : Bool :=
  match findOwned s.tables.point.active k owner with
  | some i =>
    match s.intake.live[i] with
    | some l => l.stale
    | none => false
  | none => false

/-- The stale indications as the active point table and the stale flags give them. -/
def State.staleIndications (s : State) : StaleInd :=
  { power := Vector.ofFn fun f : Furnace => s.ownedStale .powerActual (numberOf f)
    tilt := Vector.ofFn fun f : Furnace => s.ownedStale .tiltAngle (numberOf f)
    ladle := s.ownedStale .ladleMass 0
    cooling := Vector.ofFn fun c : CircuitNo =>
      { flow := s.ownedStale .flow (numberOf c), supply := s.ownedStale .supplyTemp (numberOf c),
        ret := s.ownedStale .returnTemp (numberOf c), pressure := s.ownedStale .pressure (numberOf c) } }

/-- The stale indication of a cooling kind of a circuit. -/
def CoolingStale.of (x : CoolingStale) : CoolingKind → Bool
  | .flow => x.flow
  | .supply => x.supply
  | .ret => x.ret
  | .pressure => x.pressure

/-- The stale indications of a circuit with one kind's replaced. -/
def CoolingStale.set (x : CoolingStale) (k : CoolingKind) (b : Bool) : CoolingStale :=
  match k with
  | .flow => { x with flow := b }
  | .supply => { x with supply := b }
  | .ret => { x with ret := b }
  | .pressure => { x with pressure := b }

/-! ### Circuits (R101, R141, R142) -/

/-- A quantity of a circuit. -/
def Circuit.quantity (x : Circuit) : QuantityNo → Quantity
  | .flow => x.flow
  | .ret => x.ret
  | .rise => x.rise
  | .pressure => x.pressure

/-- A circuit with one quantity replaced. -/
def Circuit.setQuantity (x : Circuit) (q : QuantityNo) (v : Quantity) : Circuit :=
  match q with
  | .flow => { x with flow := v }
  | .ret => { x with ret := v }
  | .rise => { x with rise := v }
  | .pressure => { x with pressure := v }

/-- The trip causes, in the order in which a trip record names them (R143). -/
def tripCauses : List TripCause :=
  [.leak, .flowSwitch, .quantity .flow, .quantity .ret, .quantity .rise, .quantity .pressure,
   .stale .flow, .stale .supply, .stale .ret, .stale .pressure]

/-- A trip cause of a circuit is present (R141). -/
def State.causePresent (s : State) (c : CircuitNo) : TripCause → Bool
  | .leak => s.contacts.ind.leak[c]
  | .flowSwitch => s.contacts.ind.flowSwitch[c]
  | .quantity q => decide ((s.circuits[c].quantity q).level = .trip)
  | .stale k => (s.intake.stale.cooling[c]).of k

/-- The first trip cause present, in the order of R143. -/
def State.firstCause (s : State) (c : CircuitNo) : Option TripCause := tripCauses.find? (s.causePresent c)

/-- The state that the worst quantity level gives an untripped circuit (R142). -/
def Circuit.byLevels (x : Circuit) : CircuitState :=
  let levels := [x.flow.level, x.ret.level, x.rise.level, x.pressure.level]
  if levels.any (fun l => decide (l = .derate)) then .derate
  else if levels.any (fun l => decide (l = .warn)) then .alert
  else .normal

/-- The derate percentage a circuit gives its furnaces (R101, R152). -/
def State.circuitDerate (s : State) (c : CircuitNo) : Nat :=
  match s.circuits[c].state with
  | .normal | .alert => 100
  | .derate => (s.cooling c).derate
  | .starting | .trip | .disabled => 0

/-- What a circuit number of a profile entry contributes to a derate. A number outside 1 to 8 stands only in the entry
of an unrated furnace, and R101 states no contribution for it, but that D lies from 0 to 100 (log entry 8). -/
def State.contribution (s : State) (number : Byte) : Nat :=
  match circuitOf number.toNat with
  | some c => s.circuitDerate c
  | none => min 100 (Config.noCircuitDerate number).toNat

/-- The derate D of a furnace (R101). -/
def State.derate (s : State) (f : Furnace) : Nat :=
  min (s.contribution (s.profile f).coil) (s.contribution (s.profile f).cabinet)

/-- The state of the circuit of a number, where there is one. -/
def State.circuitState (s : State) (number : Byte) : Option CircuitState :=
  (circuitOf number.toNat).map fun c => s.circuits[c].state

/-- The circuit of a number is NORMAL or ALERT (R155, condition 7). -/
def State.circuitFit (s : State) (number : Byte) : Bool :=
  decide (s.circuitState number = some .normal) || decide (s.circuitState number = some .alert)

/-- A furnace's coil or cabinet circuit is in a state. -/
def State.onCircuitIn (s : State) (f : Furnace) (x : CircuitState) : Bool :=
  decide (s.circuitState (s.profile f).coil = some x) || decide (s.circuitState (s.profile f).cabinet = some x)

/-! ### Readiness (R155) -/

/-- The available mass of a heat, which is negative below the heel (R154). -/
def State.availableMass (s : State) (f : Furnace) : Int := (s.heats[f].mass : Int) - (s.profile f).heel

/-- The predicted temperature is present and within bounds, both included. -/
def Heat.tempWithin (h : Heat) (low high : Int) : Bool :=
  match h.temp with
  | some t => decide (low ≤ t) && decide (t ≤ high)
  | none => false

/-- The predicted temperature lies in the heat's tap band (R155, condition 5). -/
def Heat.inTapBand (h : Heat) : Bool :=
  match h.bands with
  | some b => h.tempWithin b.tapLow b.tapHigh
  | none => false

/-- The watchdog is in EXPECT_A or EXPECT_B. -/
def WatchState.expecting : WatchState → Bool
  | .expectA | .expectB => true
  | _ => false

/-- The furnace is ready: the nine conditions of R155, in its order. -/
def State.isReady (s : State) (f : Furnace) : Bool :=
  let h := s.heats[f]
  let p := s.profile f
  decide (h.phase = .holding) && h.lockout.isNone
    && !h.uncertain
    && (h.anchor.isSome && decide (s.taps.dipAge[f] = .running))
    && h.approval.isSome
    && h.inTapBand
    && decide ((p.minTap : Int) ≤ s.availableMass f)
    && (s.circuitFit p.coil && s.circuitFit p.cabinet)
    && s.watch.state.expecting
    && decide (s.watch.run = .run)

/-! ### Outputs (R50 to R53) -/

/-- The level of a MANUAL output (R52, R53). -/
def State.manualLevel (s : State) (o : OutputNo) : Bool :=
  if s.watch.state = .expired then
    if (s.output o).mode = modeHold then s.contacts.frozen[o]
    else if (s.output o).mode = modeSafe then decide ((s.output o).level = 1)
    else s.contacts.commanded[o]
  else s.contacts.commanded[o]

/-- An alarm stands: a circuit in TRIP, or a furnace with a lockout (R50). -/
def State.alarm (s : State) : Bool :=
  circuitNos.any (fun c => decide (s.circuits[c].state = .trip)) || furnaces.any (fun f => (s.heats[f].lockout).isSome)

/-- The level of an output, from its function in the active contact map. -/
def State.outputLevel (s : State) (o : OutputNo) : Bool :=
  let e := s.output o
  if e.function = fnEmergencyWater then
    match circuitOf e.subject.toNat with
    | some c => s.circuits[c].water
    | none => false
  else if e.function = fnSupplyTrip then decide (s.watch.run = .allStop)
  else if e.function = fnAlarm then s.alarm
  else if e.function = fnReadyLamp then
    match furnaceOf e.subject.toNat with
    | some f => s.taps.ready.any fun r => decide (r.furnace = f)
    | none => false
  else if e.function = fnManual then s.manualLevel o
  else false

/-- Every output is driven at its level (R50). -/
def State.driveOutputs (s : State) : State :=
  s.withContacts { s.contacts with driven := Vector.ofFn fun o : OutputNo => s.outputLevel o }

end Sys2Proof.Machine
end

