-- ==== Sys2Proof/Machine/Loop.lean ====
section
/-! DEFINITION. The loop port's insertion path, transit FIFO and ring-out arbiter (spec/01, 1.5 to 1.7), and the
frames it builds (spec/12). A placement while the link is IDLE is itself an event at which the arbiter takes a frame
(R16), so every placement ends in `LoopPort.kick` (log entry 3). -/

namespace Sys2Proof.Machine

/-! ### Codes of spec/12 -/

/-- The code of a condition kind: its priority (R210). -/
def Kind.code : Kind → Nat
  | .allStop => 1
  | .circuitTrip => 2
  | .followFault => 3
  | .tiltFault => 4
  | .watchdogExpired => 5
  | .stale => 6
  | .tapAbort => 7
  | .validationFailed => 8
  | .overheld => 9
  | .changeOverrun => 10
  | .dipLow => 11
  | .overcharge => 12
  | .chargeRefused => 13
  | .loopDown => 14
  | .mgmtOverrun => 15

/-- The code of a demand status (R209). -/
def StatusKind.code : StatusKind → Nat
  | .queued => 1
  | .busy => 2
  | .full => 3
  | .bad => 4
  | .assigned => 5
  | .requeued => 6
  | .cancelled => 7
  | .done => 8
  | .short => 9
  | .unknown => 10
  | .cleared => 11

/-- The code of a permit's action (R207). -/
def PermitAction.code : PermitAction → Nat
  | .grant => 1
  | .withdraw => 2

/-! ### Bodies and frames -/

/-- The body of an ORDER frame (R206): one item, status 00h, the value unsigned. -/
def orderBody (r : OrderRec) : List Byte := [r.channel, 0] ++ enc16 r.value

/-- The body of a PERMIT frame (R207). -/
def permitBody (f : Furnace) (r : PermitRec) : List Byte :=
  enc8 r.action.code ++ [r.demand] ++ enc8 (numberOf f)

/-- The body of a DEMAND_STATUS frame (R209). -/
def statusBody (x : Status) : List Byte :=
  enc8 x.kind.code ++ encOpt 1 (fun b => [b]) x.demand ++ encOpt 1 (fun f : Furnace => enc8 (numberOf f)) x.furnace
    ++ encOpt 4 enc32 x.poured

/-- The body of a REPORT frame (R210). -/
def reportBody : ReportBody → List Byte
  | .condition k subj t tk ts others =>
    [1] ++ enc8 k.code ++ enc8 subj ++ bytes32 t ++ enc8 tk.code ++ enc8 ts ++ enc8 others
  | .change levels t i overrun => [2] ++ bytes16 levels ++ bytes32 t ++ enc8 i.val ++ encFlag overrun

/-- The frame kinds of Table 12-1. -/
def kindSample : Byte := 1
def kindOrder : Byte := 2
def kindPermit : Byte := 3
def kindDemand : Byte := 4
def kindCancel : Byte := 5
def kindDemandStatus : Byte := 6
def kindMgmt : Byte := 7
def kindReply : Byte := 8
def kindReport : Byte := 9

/-- Bytes followed by their check, high byte first (R204). -/
def withCheck (bytes : List Byte) : List Byte := bytes ++ bytes16 (crc16 bytes)

/-- A frame of spec/12, 12.1. -/
def buildFrame (dest source kind hop seq : Byte) (body : List Byte) : List Byte :=
  withCheck ([dest, source, kind, hop, seq, BitVec.ofNat 8 body.length] ++ body)

/-! ### The arbiter (R16, R17) -/

/-- A place of the insertion path from which the arbiter takes. -/
inductive Pick where
  | order (f : Furnace)
  | permit (f : Furnace)
  | reply
  | status
  | report
  deriving DecidableEq, Repr

/-- The order slot of a furnace holds a SAFETY record. -/
def LoopPort.safetyOrder (l : LoopPort) (f : Furnace) : Bool :=
  match l.orders[f] with
  | some r => decide (r.cls = .safety)
  | none => false

/-- The permit slot of a furnace holds a WITHDRAW record. -/
def LoopPort.withdrawal (l : LoopPort) (f : Furnace) : Bool :=
  match l.permits[f] with
  | some r => decide (r.action = .withdraw)
  | none => false

/-- The frame of the safety class to take (R16, case 1): the lowest furnace first, its order before its permit. -/
def LoopPort.safetyPick (l : LoopPort) : Option Pick :=
  furnaces.findSome? fun f =>
    if l.safetyOrder f then some (.order f) else if l.withdrawal f then some (.permit f) else none

/-- The first frame waiting on the insertion side, in the order R16 lists. -/
def LoopPort.insertPick (l : LoopPort) : Option Pick :=
  match furnaces.find? (fun f => (l.orders[f]).isSome) with
  | some f => some (.order f)
  | none =>
    match furnaces.find? (fun f => (l.permits[f]).isSome) with
    | some f => some (.permit f)
    | none =>
      if l.reply.isSome then some .reply
      else if l.statuses ≠ [] then some .status
      else if l.reports ≠ [] then some .report
      else none

/-- The link starts a frame that the T640 originates: the header of R1, and the count advances modulo 256. -/
def LoopPort.originate (l : LoopPort) (dest kind : Byte) (body : List Byte) : LoopPort :=
  { l with link := .sending (buildFrame dest l.station kind 63 l.seq body), seq := l.seq + 1 }

/-- The arbiter takes from a place of the insertion path; the frame is built from the record as it stands and the
record leaves its place (R17). A pick names a place that holds a record; an empty place yields nothing. -/
def LoopPort.takeInsert (l : LoopPort) : Pick → LoopPort
  | .order f =>
    match l.orders[f] with
    | some r => { l with orders := l.orders.set f none }.originate r.station kindOrder (orderBody r)
    | none => l
  | .permit f =>
    match l.permits[f] with
    | some r => { l with permits := l.permits.set f none }.originate r.drive kindPermit (permitBody f r)
    | none => l
  | .reply =>
    match l.reply with
    | some r => { l with reply := none }.originate r.dest kindReply r.body
    | none => l
  | .status =>
    match l.statuses with
    | x :: rest => { l with statuses := rest }.originate x.dest kindDemandStatus (statusBody x)
    | [] => l
  | .report =>
    match l.reports with
    | x :: rest => { l with reports := rest }.originate x.dest kindReport (reportBody x.body)
    | [] => l

/-- The arbiter takes the frame R16 names, or the link is IDLE where nothing waits. -/
def LoopPort.take (l : LoopPort) : LoopPort :=
  match l.safetyPick with
  | some p => l.takeInsert p
  | none =>
    match l.transit, l.insertPick with
    | [], none => { l with link := .idle }
    | x :: rest, none => { l with transit := rest, link := .sending x, turn := .insert }
    | [], some p => { l.takeInsert p with turn := .transit }
    | x :: rest, some p =>
      match l.turn with
      | .transit => { l with transit := rest, link := .sending x, turn := .insert }
      | .insert => { l.takeInsert p with turn := .transit }

/-- A placement: the arbiter takes a frame when the link is IDLE (R16). -/
def LoopPort.kick (l : LoopPort) : LoopPort :=
  match l.link with
  | .idle => l.take
  | .sending _ => l

/-! ### Placements -/

/-- A NORMAL order of value 0 over a SAFETY order of value 0 leaves the class SAFETY; every other placement replaces
the whole record (R13). -/
def mergeOrder (old : Option OrderRec) (new : OrderRec) : OrderRec :=
  match old with
  | some o => if new.cls = .normal ∧ new.value = 0 ∧ o.cls = .safety ∧ o.value = 0 then { new with cls := .safety } else new
  | none => new

/-- A placement in an order slot (R13). -/
def LoopPort.placeOrder (l : LoopPort) (f : Furnace) (r : OrderRec) : LoopPort :=
  { l with orders := l.orders.set f (some (mergeOrder l.orders[f] r)) }.kick

/-- A placement in a permit slot (R13). -/
def LoopPort.placePermit (l : LoopPort) (f : Furnace) (r : PermitRec) : LoopPort :=
  { l with permits := l.permits.set f (some r) }.kick

/-- A placement in the reply slot (R14). -/
def LoopPort.placeReply (l : LoopPort) (r : ReplyRec) : LoopPort := { l with reply := some r }.kick

/-- The transit FIFO holds up to 4 frames (R12). -/
def transitDepth : Nat := 4

/-- The report FIFO holds up to 12 frames (R15). -/
def reportDepth : Nat := 12

/-- The demand-status FIFO holds up to 6 frames (R15). -/
def statusDepth : Nat := 6

/-- A placement in the report FIFO; at a full FIFO the new report is dropped and counted (R15). -/
def LoopPort.placeReport (l : LoopPort) (r : Report) : LoopPort :=
  if l.reports.length < reportDepth then { l with reports := l.reports ++ [r] }.kick
  else { l with counters := { l.counters with reportDrops := bump l.counters.reportDrops } }

/-- A placement in the demand-status FIFO; a full FIFO loses its oldest frame, which is counted (R15). -/
def LoopPort.placeStatus (l : LoopPort) (x : Status) : LoopPort :=
  if l.statuses.length < statusDepth then { l with statuses := l.statuses ++ [x] }.kick
  else
    { l with statuses := l.statuses.tail ++ [x],
             counters := { l.counters with statusDrops := bump l.counters.statusDrops } }.kick

/-- A placement in the transit FIFO; at a full FIFO the frame is lost and counted (R12). -/
def LoopPort.placeTransit (l : LoopPort) (frame : List Byte) : LoopPort :=
  if l.transit.length < transitDepth then { l with transit := l.transit ++ [frame] }.kick
  else { l with counters := { l.counters with transitOverrun := bump l.counters.transitOverrun } }

/-- The destination of a report or a status: the parameter's station, or 255 where it is 0 (R15). -/
def destOr255 (param : Nat) : Byte := if param = 0 then 255 else BitVec.ofNat 8 param

/-- The tap coordinator places a demand status (R158). -/
def State.placeStatus (s : State) (kind : StatusKind) (demand : Option Byte) (f : Option Furnace)
    (poured : Option Nat) : State :=
  s.withLoop (s.loop.placeStatus
    { dest := destOr255 s.mgmt.params.pouringLine, kind := kind, demand := demand, furnace := f, poured := poured })

/-- The management unit places a report. -/
def State.placeReport (s : State) (b : ReportBody) : State :=
  s.withLoop (s.loop.placeReport { dest := destOr255 s.mgmt.params.supervisor, body := b })

/-! ### The latched-condition set (R197 to R199) -/

/-- The order of the set: by priority, then by ascending subject (R197). -/
def latchBefore (a b : Latched) : Bool :=
  decide (a.kind.code < b.kind.code) || (decide (a.kind.code = b.kind.code) && decide (a.subject < b.subject))

/-- The set with a pair raised: added in its place, or its time renewed (R197). -/
def latchInsert (x : Latched) : List Latched → List Latched
  | [] => [x]
  | y :: rest =>
    if x.kind = y.kind ∧ x.subject = y.subject then x :: rest
    else if latchBefore x y then x :: y :: rest
    else y :: latchInsert x rest

/-- The report of a raise, built after the set has been updated (R198). -/
def conditionReport (k : Kind) (subject : Nat) (now : Time) (latched : List Latched) : ReportBody :=
  match latched with
  | [] => .condition k subject now k subject 0
  | top :: rest => .condition k subject now top.kind top.subject rest.length

/-- A block raises a pair: the set is updated and one condition report is placed (R197, R198). -/
def State.raise (s : State) (k : Kind) (subject : Nat) : State :=
  let latched := latchInsert { kind := k, subject := subject, time := s.time } s.mgmt.latched
  { s with mgmt := { s.mgmt with latched := latched } }.placeReport (conditionReport k subject s.time latched)

/-- The set holds a pair. -/
def State.isLatched (s : State) (k : Kind) (subject : Nat) : Bool :=
  s.mgmt.latched.any fun x => decide (x.kind = k) && decide (x.subject = subject)

/-- A pair is removed; removing places no report (R198). -/
def State.unlatch (s : State) (k : Kind) (subject : Nat) : State :=
  s.withMgmt { s.mgmt with latched := s.mgmt.latched.filter fun x => !(decide (x.kind = k) && decide (x.subject = subject)) }

end Sys2Proof.Machine
end

