-- ==== Sys2Proof/Machine/Heat.lean ====
section
/-! DEFINITION. The heat records and their energy account (spec/04, spec/05): the estimates, the phase test, charges,
dips, approvals, hold timing, lockouts. -/

namespace Sys2Proof.Machine

/-! ### The account (chapter 5) -/

/-- A quotient of naturals rounded toward plus infinity. -/
def ceilDiv (a b : Nat) : Nat := (a + b - 1) / b

/-- The melt energy EM of a mass (R80). -/
def meltEnergy (p : Profile) (m : Nat) : Nat := m * p.meltEnergy

/-- Progress (R85). -/
def progressOf (p : Profile) (m e : Nat) : Option Nat :=
  if m < 100 then none else some (min 1000 (1000 * e / meltEnergy p m))

/-- The predicted temperature Tp (R86), for a progress as R85 gives it. -/
def tempOf (p : Profile) (m e : Nat) : Option Int :=
  if progressOf p m e = some 1000 then
    some (min 1800 (p.liquidus + ((e - meltEnergy p m) * 1000 / (m * p.heatCapacity) : Nat)))
  else none

/-- Progress and Tp recomputed from E, the mass and the profile (R81, R85, R86). -/
def Heat.estimate (h : Heat) (p : Profile) : Heat :=
  { h with progress := progressOf p h.mass h.energy, temp := tempOf p h.mass h.energy }

/-- The ceiling of the account (R82). -/
def energyMax : Nat := 4000000000

/-- The total of R82 as an account: below 0 it is 0, above the ceiling it is the ceiling. -/
def Heat.setTotal (h : Heat) (total : Int) : Heat :=
  if total < 0 then { h with energy := 0, residue := 0 }
  else if 4000000000999 < total then { h with energy := energyMax, residue := 0 }
  else { h with energy := total.toNat / 1000, residue := total.toNat % 1000 }

/-- A delivery of P kW over n intervals of t ms is integrated (R82). -/
def Heat.integrate (h : Heat) (p : Profile) (power : Int) (t n : Nat) : Heat :=
  h.setTotal ((h.energy * 1000 + h.residue : Nat) + (power - p.loss) * t * n)

/-- The anchor temperature (R87, R93). -/
def anchorTemp (p : Profile) (t : Int) : Int := max p.liquidus (min 1800 t)

/-- The energy of a mass at an anchor temperature (R87, R93). -/
def anchorEnergy (p : Profile) (m : Nat) (t : Int) : Nat :=
  meltEnergy p m + ceilDiv ((anchorTemp p t - p.liquidus).toNat * m * p.heatCapacity) 1000

/-- Two profile entries give an account the same constants: e, c and TL. The loss power L is none of them (R94). -/
def Profile.sameAccount (p q : Profile) : Bool :=
  decide (p.meltEnergy = q.meltEnergy) && decide (p.heatCapacity = q.heatCapacity) && decide (p.liquidus = q.liquidus)

/-- The account rewritten at a profile commit (R93, R94): Tp is kept where progress was 1000, progress otherwise. A
commit that leaves e, c and TL as they were changes no account (R94 of a change of L alone; log entry 30). -/
def Heat.reanchor (h : Heat) (old p : Profile) : Heat :=
  if h.mass < 100 ∨ old.sameAccount p = true then h
  else
    match h.progress, h.temp with
    | some 1000, some t => { h with energy := anchorEnergy p h.mass t, residue := 0 }
    | some g, _ => { h with energy := ceilDiv (g * h.mass * p.meltEnergy) 1000, residue := 0 }
    | none, _ => h

/-- The account scaled to a new mass (R90, R91). R91's formula is followed beyond the range R80 gives E (log entry
28). -/
def Heat.rescale (h : Heat) (m : Nat) : Heat :=
  { h with mass := m, energy := h.energy * m / h.mass, residue := 0 }

/-! ### Phases (chapter 4) -/

/-- The approval and the hold start are lost (R60, R63). -/
def Heat.voidHold (h : Heat) : Heat := { h with approval := none, holdStart := none, holdTimer := .idle }

/-- The SUPERHEAT test of R59: HOLDING once Tp is at or above hold low, with the hold timer started (R70). -/
def Heat.superheatTest (h : Heat) (now : Time) : Heat :=
  match h.phase, h.temp, h.bands with
  | .superheat, some t, some b =>
    if b.holdLow ≤ t then { h with phase := .holding, holdStart := some now, holdTimer := .running } else h
  | _, _, _ => h

/-- The phase test of R59. -/
def Heat.phaseTest (h : Heat) (now : Time) : Heat :=
  if h.phase = .melting ∧ h.progress = some 1000 then { h with phase := .superheat }.superheatTest now
  else h.superheatTest now

/-- The record of a furnace left without metal, its lockout kept (R73, R92, R165). -/
def Heat.emptied (h : Heat) : Heat := { Heat.cold with lockout := h.lockout }

/-- The default bands of a profile entry (R57, R61). -/
def Profile.bands (p : Profile) : Bands :=
  { holdLow := p.holdLow, holdHigh := p.holdHigh, tapLow := p.tapLow, tapHigh := p.tapHigh }

/-- A heat record changes by an estimate update: progress and Tp are recomputed and the phase is tested (R59, R81). -/
def State.updateHeat (s : State) (f : Furnace) (h : Heat) : State :=
  s.setHeat f ((h.estimate (s.profile f)).phaseTest s.time)

/-! ### The power stream (R82, R83, R95) -/

/-- A POWER_ACTUAL delivery to the estimator. A count above 9 sets the uncertain flag at the delivery, so that the flag
can rest on the order of a dip and such a delivery, against R88 (log entry 32). It does so for a hold-last delivery too:
the gap cap and R95 are followed, against R83's sentence that a hold-last delivery sets no flag (DESIGN CHOICE, log
entry 33). -/
def State.integratePower (s : State) (f : Furnace) (power : Int) (t n : Nat) : State :=
  let h := s.heats[f]
  if h.phase = .empty then s
  else
    let n' := if 9 < n then 1 else n
    let h := { h with uncertain := h.uncertain || decide (9 < n) }
    s.updateHeat f (h.integrate (s.profile f) power t n')

/-- A stale notice for the POWER_ACTUAL indication marks a live heat uncertain (R95). An EMPTY furnace has no heat, and
its next one is judged at the charge that starts it (R92; log entry 10). -/
def State.markUncertain (s : State) (f : Furnace) : State :=
  let h := s.heats[f]
  if h.phase = .empty then s else s.updateHeat f { h with uncertain := true }

/-! ### Charges (R62 to R65) -/

/-- The mass a charge gives, clamped at the capacity (R64). -/
def chargedMass (p : Profile) (old m : Nat) : Nat := min p.capacity (old + m)

/-- A charge above the capacity raises OVERCHARGE (R64). -/
def State.overcharge (s : State) (f : Furnace) (old m : Nat) : State :=
  if (s.profile f).capacity < old + m then s.raise .overcharge (numberOf f) else s

/-- A first charge into an EMPTY rated furnace (R62, R95). -/
def State.firstCharge (s : State) (f : Furnace) (m : Nat) : State :=
  let h := s.heats[f]
  let p := s.profile f
  let h := if h.id.isSome then h else { h with id := some 0, bands := some p.bands }
  let h := { h with mass := chargedMass p 0 m, phase := .melting, uncertain := h.uncertain || s.intake.stale.power[f] }
  (s.updateHeat f h).overcharge f 0 m

/-- A further charge (R63): the dip, the anchor, the approval and the hold start go, and the phase follows progress. -/
def State.furtherCharge (s : State) (f : Furnace) (m : Nat) : State :=
  let h := s.heats[f]
  let p := s.profile f
  let h' := ({ h with mass := chargedMass p h.mass m, dip := none, anchor := none }.voidHold).estimate p
  let h' := { h' with phase := if h'.progress = some 1000 then .superheat else .melting }
  ((s.setHeat f (h'.phaseTest s.time)).setDipAge f .idle).overcharge f h.mass m

/-- One discharged charge bucket of m kg (R62 to R65). -/
def State.charge (s : State) (f : Furnace) (m : Nat) : State :=
  if m = 0 then s
  else if !s.rated f then s.raise .chargeRefused (numberOf f)
  else
    match s.heats[f].phase with
    | .empty => s.firstCharge f m
    | .melting | .superheat | .holding => s.furtherCharge f m
    | .tapAssigned | .tapping => s.raise .chargeRefused (numberOf f)

/-! ### Dips (R66, R67, R87) -/

/-- A dip anchors the estimate: E from the clamped temperature, the anchor time, and the uncertain flag cleared while
the POWER_ACTUAL indication is off (R87). -/
def State.anchor (s : State) (f : Furnace) (h : Heat) (t : Int) : State :=
  let p := s.profile f
  let h' := { h with energy := anchorEnergy p h.mass t, residue := 0, anchor := some s.time,
                     uncertain := h.uncertain && s.intake.stale.power[f] }
  let s' := (s.updateHeat f h').setDipAge f .running
  if t < p.liquidus then s'.raise .dipLow (numberOf f) else s'

/-- One dip of a furnace (R66). -/
def State.dip (s : State) (f : Furnace) (t : Int) : State :=
  let h := s.heats[f]
  if h.phase = .empty then s
  else
    let h' := { h with dip := some { temp := t, time := s.time } }
    if h.progress = some 1000 then s.anchor f h' t else s.setHeat f h'

/-! ### Hold timing and approval (R69 to R72) -/

/-- The approval is voided (R69). -/
def State.voidApproval (s : State) (f : Furnace) : State := s.setHeat f { s.heats[f] with approval := none }

/-- The hold timer of a heat has run for the maximum hold (R70). -/
def State.holdDue (s : State) (f : Furnace) : Bool :=
  match s.heats[f].holdTimer, s.heats[f].holdStart with
  | .running, some t => reached s.time t ((s.profile f).maxHold * 60000)
  | _, _ => false

/-- The hold timer expires (R71). -/
def State.overheld (s : State) (f : Furnace) : State :=
  (s.setHeat f { s.heats[f] with holdTimer := .expired, approval := none }).raise .overheld (numberOf f)

/-! ### Lockouts (R116) -/

/-- A FOLLOW lockout, which replaces a TILT one. -/
def State.lockFollow (s : State) (f : Furnace) : State := s.setHeat f { s.heats[f] with lockout := some .follow }

/-- A TILT lockout; a FOLLOW lockout keeps its cause. -/
def State.lockTilt (s : State) (f : Furnace) : State :=
  let h := s.heats[f]
  s.setHeat f { h with lockout := if h.lockout = some .follow then some .follow else some .tilt }

/-- A tilt fault: the TILT lockout, and TILT_FAULT (R169, R170). -/
def State.tiltFault (s : State) (f : Furnace) : State := (s.lockTilt f).raise .tiltFault (numberOf f)

/-! ### Entry to EMPTY and pours (R73, R90, R92, R165) -/

/-- The mass of a heat falls by an accounted pour, and the phase follows from what is left (R90, R165 step 4). -/
def State.pourOff (s : State) (f : Furnace) (p : Nat) : State :=
  let h := s.heats[f]
  let left := h.mass - p
  if left = 0 then (s.setHeat f h.emptied).setDipAge f .idle
  else if left < 100 then s.updateHeat f { h.rescale left with phase := .melting }.voidHold
  else s.updateHeat f { h.rescale left with phase := .holding }

end Sys2Proof.Machine
end

