-- ==== Sys2Proof/Machine/Holding.lean ====
section
/-! DEFINITION. The holding controller (spec/07). -/

namespace Sys2Proof.Machine

/-- The holding phases (R123). -/
def Phase.isHolding : Phase → Bool
  | .holding | .tapAssigned | .tapping => true
  | _ => false

/-- Where a temperature stands against a hold band, both edges inside (R125). -/
def bandPosition (b : Bands) (t : Int) : Position :=
  if t < b.holdLow then .low else if b.holdHigh < t then .high else .inBand

/-- The holding level of a band position (R123, R125). -/
def Profile.level (p : Profile) : Position → Nat
  | .low => p.boost
  | .inBand => p.mid
  | .high => p.min

/-- The basis, position and compared temperature of a comparison in a holding phase (R125, R126). The bands are present
while the heat is open (R56); a heat without them has no band to leave and counts as IN
(log entry 24). -/
def Heat.compare (h : Heat) : Basis × Position × Option Int :=
  if h.uncertain then (.uncertain, .inBand, none)
  else
    match h.temp with
    | none => (.tpAbsent, .low, none)
    | some t =>
      match h.bands with
      | some b => (.temperature, bandPosition b t, some t)
      | none => (.temperature, .inBand, some t)

/-- The holding controller's state after a comparison (R125 to R127): the position time moves with the position. -/
def Holding.after (old : Holding) (h : Heat) (p : Profile) (now : Time) : Holding :=
  if h.phase.isHolding then
    let x := h.compare
    { position := some x.2.1, basis := some x.1, compared := x.2.2, level := p.level x.2.1,
      since := if old.position = some x.2.1 then old.since else some now }
  else Holding.cold

/-- A comparison for a furnace (R124). -/
def State.compare (s : State) (f : Furnace) : State :=
  s.setHolding f (s.holding[f].after s.heats[f] (s.profile f) s.time)

/-- What of a heat record brings a comparison when it changes (R124). -/
def Heat.holdingInputs (h : Heat) : Phase × Option Bands × Option Int × Option Nat × Bool :=
  (h.phase, h.bands, h.temp, h.progress, h.uncertain)

/-- The comparisons of an event: each furnace whose record it changed in what the controller reads (R58, R124). -/
def State.compareChanged (s0 s : State) : State :=
  furnaces.foldl (fun s f => if s0.heats[f].holdingInputs = s.heats[f].holdingInputs then s else s.compare f) s

/-- A comparison for every furnace, ascending (R130, R132). -/
def State.compareAll (s : State) : State := furnaces.foldl (fun s f => s.compare f) s

end Sys2Proof.Machine
end

