-- ==== Sys2Proof/Machine/Allocator.lean ====
section
/-! DEFINITION. The power allocator (spec/06): demand, the division of the supply, issued power and its orders, the
ramps and the follow check. -/

namespace Sys2Proof.Machine

/-! ### Orders (R110) -/

/-- An order with a furnace's current I is placed and its refresh timer restarts; none for an unrated furnace. -/
def State.placeOrder (s : State) (f : Furnace) (cls : OrderClass) : State :=
  if s.rated f then
    let p := s.profile f
    let s := s.setPower f { s.power[f] with refresh := .running s.time s.mgmt.params.orderRefresh }
    s.withLoop (s.loop.placeOrder f
      { value := s.power[f].issued, station := p.inverter, channel := p.channel, cls := cls })
  else s

/-- I takes a new value: a RUNNING follow timer restarts (R113) and an order is placed (R110). -/
def State.setIssued (s : State) (f : Furnace) (v : Nat) (cls : OrderClass) : State :=
  let x := s.power[f]
  (s.setPower f { x with issued := v, follow := x.follow.restart s.time }).placeOrder f cls

/-! ### Demand (R101 to R103) -/

/-- The base demand of a furnace: the first line of R102 that applies. -/
def State.baseDemand (s : State) (f : Furnace) : Nat :=
  let h := s.heats[f]
  if !s.rated f then 0
  else if s.watch.run = .allStop then 0
  else if h.lockout = some .follow then 0
  else if s.onCircuitIn f .trip then 0
  else
    match h.phase with
    | .empty => 0
    | .holding => s.holding[f].level
    | .tapAssigned | .tapping => min s.holding[f].level (s.profile f).tiltCeiling
    | .melting | .superheat =>
      match s.watch.state with
      | .stopped | .expectA | .expectB => s.power[f].ordered
      | .expired => (s.profile f).unsupervised
      | .paused => 0

/-- The base demand under the caps of R103, steps 1 and 2. -/
def State.cappedDemand (s : State) (f : Furnace) : Nat :=
  let b := s.baseDemand f
  let b := if s.heats[f].lockout = some .tilt then min b (s.profile f).tiltCeiling else b
  if s.intake.stale.power[f] then min b (s.profile f).unsupervised else b

/-- The demand d of a furnace (R103). The derate of a value of 0 is 0 whatever D is. -/
def State.demandOf (s : State) (f : Furnace) : Nat :=
  let b := s.cappedDemand f
  if b = 0 then 0 else min (b * s.derate f / 100) (s.profile f).rated

/-! ### Dividing the supply (R104, R105) -/

/-- The available power A. -/
def State.availablePower (s : State) : Nat := s.mgmt.params.pCap - s.mgmt.params.pReserve

/-- The class of a phase; EMPTY has none. -/
def Phase.class : Phase → Option Nat
  | .empty => none
  | .holding | .tapAssigned | .tapping => some 1
  | .superheat => some 2
  | .melting => some 3

/-- A claim on the supply: a furnace, its demand and its share so far. -/
structure Claim where
  furnace : Furnace
  demand : Nat
  share : Nat
  deriving DecidableEq, Repr

/-- The left-over kW go out one each, in order, to the claims whose share is below their demand. -/
def giveLeftover : Nat → List Claim → List Claim
  | _, [] => []
  | 0, x :: rest => x :: giveLeftover 0 rest
  | k + 1, x :: rest =>
    if x.share < x.demand then { x with share := x.share + 1 } :: giveLeftover k rest
    else x :: giveLeftover (k + 1) rest

/-- The sum of the demands of some claims. -/
def demandSum (l : List Claim) : Nat := (l.map (·.demand)).sum

/-- The sum of the shares of some claims. -/
def shareSum (l : List Claim) : Nat := (l.map (·.share)).sum

/-- A class is served from a remainder (R105). -/
def serveClass (r : Nat) (l : List Claim) : List Claim :=
  let sum := demandSum l
  if sum ≤ r then l.map fun x => { x with share := x.demand }
  else
    let first := l.map fun x => { x with share := r * x.demand / sum }
    giveLeftover (r - shareSum first) first

/-- The classes are served in order, each from what the ones before it left (R104). -/
def serveClasses : Nat → List (List Claim) → List Claim
  | _, [] => []
  | r, l :: rest =>
    let served := serveClass r l
    served ++ serveClasses (r - shareSum served) rest

/-- The claims of the furnaces of a class, ascending, with these demands. -/
def State.claims (s : State) (d : Vector Nat 6) (k : Nat) : List Claim :=
  (furnaces.filter fun f => decide ((s.heats[f].phase).class = some k)).map fun f =>
    { furnace := f, demand := d[f], share := 0 }

/-- The demands of the furnaces. -/
def State.demands (s : State) : Vector Nat 6 := Vector.ofFn fun f : Furnace => s.demandOf f

/-- The claims of the three classes, served from A. -/
def State.served (s : State) (d : Vector Nat 6) : List Claim :=
  serveClasses s.availablePower [s.claims d 1, s.claims d 2, s.claims d 3]

/-- The grant of a furnace among served claims; a furnace in no class has 0 (R104). -/
def grantOf (l : List Claim) (f : Furnace) : Nat :=
  match l.find? (fun x => decide (x.furnace = f)) with
  | some x => x.share
  | none => 0

/-! ### The remake (R106, R107) -/

/-- A furnace receives its demand and grant, and R107 acts on its I: a cut at once, a rise by the ramp timer. -/
def State.applyGrant (s : State) (f : Furnace) (d g : Nat) : State :=
  let x := s.power[f]
  let i := x.issued
  if g < i then
    (s.setPower f { x with demand := d, grant := g, ramp := .idle }).setIssued f g (if g = 0 then .safety else .normal)
  else if i = g then s.setPower f { x with demand := d, grant := g, ramp := .idle }
  else s.setPower f { x with demand := d, grant := g, ramp := x.ramp.ensure s.time }

/-- The allocation is remade whole: d for every furnace, then G, then R107 on I. The cuts of one remake are placed by
ascending furnace: R107 gives no order (log entry 29). -/
def State.remake (s : State) : State :=
  let d := s.demands
  let g := s.served d
  furnaces.foldl (fun s f => s.applyGrant f d[f] (grantOf g f)) s

/-- The inputs of the allocation (R106). Mass is one of them; EXPECT_A and EXPECT_B are read alike (R178). -/
structure AllocInputs where
  ordered : Vector Nat 6
  phases : Vector (Phase × Nat × Option Lockout) 6
  levels : Vector Nat 6
  circuits : Vector CircuitState 8
  cooling : Image
  watch : WatchState
  run : Run
  stale : Vector Bool 6
  profile : Image
  pCap : Nat
  pReserve : Nat
  deriving DecidableEq, Repr

/-- The watchdog state as the allocator reads it. -/
def WatchState.reading : WatchState → WatchState
  | .expectB => .expectA
  | x => x

/-- The inputs of the allocation as they stand. -/
def State.allocInputs (s : State) : AllocInputs :=
  { ordered := s.power.map (·.ordered), phases := s.heats.map fun h => (h.phase, h.mass, h.lockout),
    levels := s.holding.map (·.level), circuits := s.circuits.map (·.state), cooling := s.tables.cooling.active,
    watch := s.watch.state.reading, run := s.watch.run, stale := s.intake.stale.power,
    profile := s.tables.profile.active, pCap := s.mgmt.params.pCap, pReserve := s.mgmt.params.pReserve }

/-- The one remake of an event that changed an input of the allocation (R106). -/
def State.remakeChanged (s0 s : State) : State := if s0.allocInputs = s.allocInputs then s else s.remake

/-! ### Ordered power (R100) -/

/-- A POWER_ORDER value sets O, clamped to the rated power and counted. -/
def State.orderPower (s : State) (f : Furnace) (v : Nat) : State :=
  let rated := (s.profile f).rated
  let s' := s.setPower f { s.power[f] with ordered := min v rated }
  if rated < v then { s' with orderClamps := bump s'.orderClamps } else s'

/-! ### Ramps (R108) -/

/-- The sum of I over all furnaces. -/
def State.issuedSum (s : State) : Nat := (furnaces.map fun f => s.power[f].issued).sum

/-- The sum of G over all furnaces. -/
def State.grantSum (s : State) : Nat := (furnaces.map fun f => s.power[f].grant).sum

/-- What a ramp expiry gives I: the smallest of G, one step more, and the headroom more. -/
def State.rampTarget (s : State) (f : Furnace) : Nat :=
  let x := s.power[f]
  min x.grant (min (x.issued + (s.profile f).rampStep) (x.issued + (s.availablePower - s.issuedSum)))

/-- A furnace's ramp timer has run for the ramp interval. -/
def State.rampDue (s : State) (f : Furnace) : Bool :=
  match s.power[f].ramp with
  | .running t => reached s.time t (s.profile f).rampInterval
  | .idle => false

/-- A ramp timer expires (R108). -/
def State.rampExpire (s : State) (f : Furnace) : State :=
  let v := s.rampTarget f
  let s' := if s.power[f].issued = v then s else s.setIssued f v .normal
  s'.setPower f { s'.power[f] with ramp := if v = s'.power[f].grant then .idle else .running s.time }

/-! ### The follow check (R113 to R115) -/

/-- The follow check of a furnace is suspended (R115). -/
def State.followSuspended (s : State) (f : Furnace) : Bool :=
  s.intake.stale.power[f] || !s.rated f || decide (s.heats[f].lockout = some .follow)

/-- A suspended check has an IDLE follow timer (R115). -/
def State.suspendFollow (s : State) (f : Furnace) : State :=
  if s.followSuspended f then s.setPower f { s.power[f] with follow := .idle } else s

/-- The actual power agrees with the issued power within the tolerance. -/
def follows (actual issued tolerance : Nat) : Bool :=
  decide (actual - issued ≤ tolerance) && decide (issued - actual ≤ tolerance)

/-- An accepted POWER_ACTUAL value becomes A_f and is compared with I (R113). -/
def State.actualPower (s : State) (f : Furnace) (v : Nat) : State :=
  let x := s.power[f]
  let follow :=
    if s.followSuspended f then x.follow
    else if follows v x.issued (s.profile f).tolerance then .idle
    else x.follow.ensure s.time
  s.setPower f { x with actual := some v, follow := follow }

/-- A furnace's follow timer has run for the follow window. -/
def State.followDue (s : State) (f : Furnace) : Bool :=
  match s.power[f].follow with
  | .running t => reached s.time t (s.profile f).followWindow
  | .idle => false

/-- A SAFETY order of 0 for every rated furnace, ascending (R118, R122). -/
def State.placeZeros (s : State) : State := furnaces.foldl (fun s f => s.placeOrder f .safety) s

end Sys2Proof.Machine
end

