-- ==== Sys2Proof/Machine/Tap.lean ====
section
/-! DEFINITION. The tap coordinator (spec/09): readiness, demands, matching, permits and the pour. -/

namespace Sys2Proof.Machine

/-! ### Readiness (R156) -/

/-- The dip-age timer's limit in ms. -/
def Params.dipAgeMs (p : Params) : Nat := p.dipMaxAge * 60000

/-- The dip-age timer of a furnace has run for the dip max age. -/
def State.dipAgeDue (s : State) (f : Furnace) : Bool :=
  match s.taps.dipAge[f], s.heats[f].anchor with
  | .running, some t => reached s.time t s.mgmt.params.dipAgeMs
  | _, _ => false

/-- A dip-age timer measured again against a written dip max age (R156): a RUNNING one may expire, an EXPIRED one may
run again. -/
def State.remeasureDipAge (s : State) (f : Furnace) : State :=
  match s.taps.dipAge[f], s.heats[f].anchor with
  | .idle, _ => s
  | _, none => s
  | _, some t => s.setDipAge f (if reached s.time t s.mgmt.params.dipAgeMs then .expired else .running)

/-- The ready list re-evaluated: furnaces no longer ready leave it, newly ready ones join at the tail in ascending
number (R156). -/
def State.readyList (s : State) : List Ready :=
  let kept := s.taps.ready.filter fun r => s.isReady r.furnace
  let joined := furnaces.filter fun f => s.isReady f && !(s.taps.ready.any fun r => decide (r.furnace = f))
  kept ++ joined.map fun f => { furnace := f, since := s.time }

/-- The readiness of every furnace is evaluated (R156). -/
def State.evaluateReady (s : State) : State := s.withTaps { s.taps with ready := s.readyList }

/-! ### Permits, and the end of an assignment or a pour (R162 to R170) -/

/-- A WITHDRAW in the furnace's permit slot, to the record's tilt drive (R162). -/
def State.withdraw (s : State) (r : Pour) : State :=
  s.withLoop (s.loop.placePermit r.furnace
    { action := .withdraw, drive := r.drive.getD 0, demand := r.demand.id })

/-- The station becomes IDLE and its record absent. -/
def State.freeStation (s : State) : State := s.withTaps { s.taps with station := .idle, pour := none }

/-- The final poured mass (R165 step 2). -/
def State.finalMass (s : State) (r : Pour) : Nat :=
  min (s.taps.ladle.getD 0 - r.tare.getD 0) s.heats[r.furnace].mass

/-- The target of a pour (R164). -/
def State.target (s : State) (r : Pour) : Nat := r.demand.mass - s.mgmt.params.pourLead

/-- A pour is accounted and the station is free (R165, steps 1 to 4 and 6). -/
def State.accountPour (s : State) (r : Pour) : State :=
  ((s.withTaps { s.taps with returnTimer := .idle }).pourOff r.furnace (s.finalMass r)).freeStation

/-- A pour completes: it is accounted, and DONE or SHORT is placed (R165, steps 1 to 6). -/
def State.completePour (s : State) (r : Pour) : State :=
  let p := s.finalMass r
  let kind := if r.abort || decide (p < s.target r) then StatusKind.short else .done
  (s.accountPour r).placeStatus kind (some r.demand.id) (some r.furnace) (some p)

/-- The furnace's latest tilt angle is at or below tilt home. -/
def State.tiltHome (s : State) (f : Furnace) : Bool :=
  match s.taps.tilt[f] with
  | some a => decide (a ≤ s.mgmt.params.tiltHome)
  | none => false

/-- The completion test of RETURNING (R165): the tilt at home and the tilt-home indication on. -/
def State.completionTest (s : State) : State :=
  match s.taps.station, s.taps.pour with
  | .returning, some r =>
    if s.tiltHome r.furnace && s.contacts.ind.tiltHome[r.furnace] then s.completePour r else s
  | _, _ => s

/-- The permit is withdrawn and the station enters RETURNING (R164, steps 1 to 3). -/
def State.startReturn (s : State) (r : Pour) : State :=
  let s := s.withdraw r
  s.withTaps { s.taps with
    station := .returning, pourTimer := .idle,
    returnTimer := .running s.time (s.mgmt.params.returnTimeout * 1000) }

/-- The target is reached, or the tilt is home again: the pour ends (R164). -/
def State.endPour (s : State) (r : Pour) : State := (s.startReturn r).completionTest

/-- A pour is interrupted with the abort mark set (R168; R170 and R172 without TAP_ABORT). -/
def State.interruptPour (s : State) (r : Pour) (tapAbort : Bool) : State :=
  let s := s.withTaps { s.taps with pour := some { r with abort := true } }
  let s := s.startReturn r
  let s := if tapAbort then s.raise .tapAbort (numberOf r.furnace) else s
  s.completionTest

/-- Steps 1 and 2 of R166: the permit, if any, is withdrawn, and the heat returns to HOLDING. -/
def State.releaseFurnace (s : State) (r : Pour) : State :=
  let s :=
    if s.taps.station = .permitted then
      let s := s.withdraw r
      s.withTaps { s.taps with tiltStart := .idle }
    else s
  s.setHeat r.furnace { s.heats[r.furnace] with phase := .holding }

/-- An assignment is abandoned (R166, steps 1 to 6). -/
def State.abandon (s : State) (r : Pour) (tapAbort : Bool) : State :=
  let s := s.releaseFurnace r
  let s := s.withTaps { s.taps with queue := r.demand :: s.taps.queue }
  let s := s.placeStatus .requeued (some r.demand.id) (some r.furnace) none
  let s := s.freeStation
  if tapAbort then s.raise .tapAbort (numberOf r.furnace) else s

/-- An assignment in ASSIGNED or PERMITTED on a furnace is abandoned with TAP_ABORT (R171). -/
def State.abandonOn (s : State) (p : Furnace → Bool) : State :=
  match s.taps.station, s.taps.pour with
  | .assigned, some r | .permitted, some r => if p r.furnace then s.abandon r true else s
  | _, _ => s

/-- A circuit has entered TRIP (R171). -/
def State.tapOnTrip (s : State) (c : CircuitNo) : State := s.abandonOn fun f => s.coilOf f c || s.cabinetOf f c

/-- A FOLLOW lockout was set on a furnace (R171). -/
def State.tapOnFollow (s : State) (f : Furnace) : State := s.abandonOn fun g => decide (g = f)

/-- A profile commit gives the assigned furnace a circuit in TRIP or STARTING (R171). -/
def State.tapOnProfile (s : State) : State := s.abandonOn fun f => s.onCircuitIn f .trip || s.onCircuitIn f .starting

/-- The watchdog has entered EXPIRED (R172). -/
def State.tapOnExpired (s : State) : State :=
  match s.taps.station, s.taps.pour with
  | .assigned, some r => s.abandon r false
  | _, _ => s

/-- The shop has entered ALL_STOP (R172). -/
def State.tapOnAllStop (s : State) : State :=
  match s.taps.station, s.taps.pour with
  | .assigned, some r | .permitted, some r => s.abandon r false
  | .pouring, some r => s.interruptPour r false
  | _, _ => s

/-! ### The permit condition (R162) -/

/-- The permit condition for the assigned furnace. -/
def State.permitHolds (s : State) (f : Furnace) : Bool :=
  let p := s.profile f
  let x := s.power[f]
  decide (x.issued ≤ p.tiltCeiling)
    && (match x.actual with
        | some a => decide (a ≤ p.tiltCeiling + p.tolerance)
        | none => false)
    && (s.taps.ladle.isSome && !s.intake.stale.ladle)
    && (s.tiltHome f && !s.intake.stale.tilt[f])

/-- The test of the permit condition: where it holds in ASSIGNED, the permit is granted (R162). -/
def State.permitTest (s : State) : State :=
  match s.taps.station, s.taps.pour with
  | .assigned, some r =>
    if s.permitHolds r.furnace then
      let drive := (s.profile r.furnace).drive
      let s := s.withTaps { s.taps with
        station := .permitted, pour := some { r with tare := s.taps.ladle, drive := some drive } }
      let s := s.withLoop (s.loop.placePermit r.furnace { action := .grant, drive := drive, demand := r.demand.id })
      s.withTaps { s.taps with tiltStart := .running s.time (s.mgmt.params.tiltStartTimeout * 1000) }
    else s
  | _, _ => s

/-! ### Ladle and tilt values (R163 to R165) -/

/-- A ladle value less the tare, or 0 when negative. -/
def pouredMass (r : Pour) (ladle : Nat) : Nat := ladle - r.tare.getD 0

/-- A ladle value (R164). -/
def State.ladleValue (s : State) (v : Nat) : State :=
  let s := s.withTaps { s.taps with ladle := some v }
  match s.taps.station, s.taps.pour with
  | .pouring, some r =>
    let r := { r with poured := pouredMass r v }
    let s := s.withTaps { s.taps with pour := some r }
    if s.target r ≤ r.poured then s.endPour r else s
  | .returning, some r => s.withTaps { s.taps with pour := some { r with poured := pouredMass r v } }
  | _, _ => s

/-- The furnace has tilted under its permit: the pour starts (R163). -/
def State.startPour (s : State) (r : Pour) : State :=
  let s := s.withTaps { s.taps with
    tiltStart := .idle, station := .pouring,
    pourTimer := .running s.time (s.mgmt.params.pourTimeout * 1000) }
  let s := s.setHeat r.furnace { s.heats[r.furnace] with phase := .tapping }
  if s.intake.stale.ladle then s.interruptPour r true else s

/-- A tilt value of a furnace (R163 to R165). -/
def State.tiltValue (s : State) (f : Furnace) (v : Nat) : State :=
  let s := s.withTaps { s.taps with tilt := s.taps.tilt.set f (some v) }
  match s.taps.station, s.taps.pour with
  | .permitted, some r => if r.furnace = f ∧ s.mgmt.params.tiltHome < v then s.startPour r else s
  | .pouring, some r => if r.furnace = f ∧ v ≤ s.mgmt.params.tiltHome then s.endPour r else s
  | .returning, some r => if r.furnace = f then s.completionTest else s
  | _, _ => s

/-- A tilt-home notice of a furnace (R165). -/
def State.tiltHomeNotice (s : State) (f : Furnace) : State :=
  match s.taps.pour with
  | some r => if r.furnace = f then s.completionTest else s
  | none => s

/-- A stale notice for the LADLE_MASS point (R168). -/
def State.ladleStale (s : State) : State :=
  match s.taps.station, s.taps.pour with
  | .pouring, some r => s.interruptPour r true
  | _, _ => s

/-- A stale notice for the TILT_ANGLE point of a furnace (R170). -/
def State.tiltStale (s : State) (f : Furnace) : State :=
  match s.taps.station, s.taps.pour with
  | .permitted, some r => if r.furnace = f then (s.tiltFault f).abandon r true else s
  | .pouring, some r => if r.furnace = f then (s.tiltFault f).interruptPour r false else s
  | .returning, some r => if r.furnace = f then (s.tiltFault f).completePour { r with abort := true } else s
  | _, _ => s

/-! ### The station's timers (R167, R168) -/

/-- A timer that keeps its duration has run out. -/
def FixedTimer.due (now : Time) : FixedTimer → Bool
  | .idle => false
  | .running t ms => reached now t ms

/-- The tilt-start timer expires in PERMITTED (R167). -/
def State.tiltStartExpire (s : State) : State :=
  match s.taps.station, s.taps.pour with
  | .permitted, some r => s.abandon r true
  | _, _ => s

/-- The pour timer expires in POURING (R168). -/
def State.pourExpire (s : State) : State :=
  match s.taps.station, s.taps.pour with
  | .pouring, some r => s.interruptPour r true
  | _, _ => s

/-! ### Demands and cancels (R157, R159) -/

/-- A demand's values are invalid (R157 step 1). -/
def Demand.bad (d : Demand) : Bool :=
  decide (d.mass = 0) || decide (200000 < d.mass) || decide (d.high < d.low) || decide (2000 < d.low)
    || decide (2000 < d.high)

/-- The demand queue's places (R154). -/
def queueDepth : Nat := 4

/-- Steps 3 to 5 of R157, with `held` demands at the station. -/
def State.queueDemand (s : State) (d : Demand) (held : Nat) : State :=
  if s.taps.queue.any (fun x => decide (x.id = d.id)) then
    (s.withTaps { s.taps with queue := s.taps.queue.map fun x => if x.id = d.id then d else x }).placeStatus
      .queued (some d.id) none none
  else if queueDepth ≤ s.taps.queue.length + held then s.placeStatus .full (some d.id) none none
  else (s.withTaps { s.taps with queue := s.taps.queue ++ [d] }).placeStatus .queued (some d.id) none none

/-- A DEMAND (R157). -/
def State.demand (s : State) (d : Demand) : State :=
  if d.bad then s.placeStatus .bad (some d.id) none none
  else
    match s.taps.pour with
    | some r =>
      if r.demand.id = d.id then s.placeStatus .busy (some d.id) (some r.furnace) none else s.queueDemand d 1
    | none => s.queueDemand d 0

/-- A CANCEL of the demand the station holds (R159). -/
def State.cancelHeld (s : State) (r : Pour) : State :=
  match s.taps.station with
  | .assigned | .permitted =>
    ((s.releaseFurnace r).placeStatus .cancelled (some r.demand.id) (some r.furnace) none).freeStation
  | .pouring => s.endPour r
  | .returning | .idle => s

/-- A CANCEL (R159). -/
def State.cancel (s : State) (i : Byte) : State :=
  if s.taps.queue.any (fun x => decide (x.id = i)) then
    (s.withTaps { s.taps with queue := s.taps.queue.filter fun x => !decide (x.id = i) }).placeStatus
      .cancelled (some i) none none
  else
    match s.taps.pour with
    | some r => if r.demand.id = i then s.cancelHeld r else s.placeStatus .unknown (some i) none none
    | none => s.placeStatus .unknown (some i) none none

/-- A body the coordinator disregards and counts (R208). -/
def State.malformed (s : State) : State := s.withTaps { s.taps with malformed := bump s.taps.malformed }

/-! ### Matching (R161) -/

/-- A ready furnace qualifies for a demand. -/
def State.qualifies (s : State) (d : Demand) (r : Ready) : Bool :=
  decide ((d.mass : Int) ≤ s.availableMass r.furnace) && s.heats[r.furnace].tempWithin d.low d.high

/-- The demand and the furnace of a matching attempt, where one succeeds. -/
def State.matching (s : State) : Option (Demand × Furnace) :=
  match s.taps.station, s.taps.held, s.taps.queue with
  | .idle, false, d :: _ => (s.taps.ready.find? (s.qualifies d)).map fun r => (d, r.furnace)
  | _, _, _ => none

/-- A match (R161, steps 1 to 3). -/
def State.assign (s : State) (d : Demand) (f : Furnace) : State :=
  let s := s.withTaps { s.taps with
    queue := s.taps.queue.tail, station := .assigned,
    pour := some { demand := d, furnace := f, drive := none, tare := none, poured := 0, abort := false },
    ready := s.taps.ready.filter fun r => !decide (r.furnace = f) }
  s.setHeat f { s.heats[f] with phase := .tapAssigned }

end Sys2Proof.Machine
end

