-- ==== Sys2Proof/Machine/Cooling.lean ====
section
/-! DEFINITION. The cooling monitor (spec/08): sample evaluation, circuit states, trips, STARTING and the
emergency-water request. -/

namespace Sys2Proof.Machine

/-! ### One sample of one quantity (R137 to R139) -/

/-- The thresholds of a quantity: `low` tells which side of a threshold is beyond it; a quantity without a warn or
derate level has none (R133). -/
structure Thresholds where
  low : Bool
  warn : Option Int
  derate : Option Int
  trip : Int
  hyst : Int
  deriving DecidableEq, Repr

/-- The thresholds of a quantity in a cooling entry. -/
def CoolingEntry.thresholds (e : CoolingEntry) : QuantityNo → Thresholds
  | .flow => { low := true, warn := some e.flowWarn, derate := some e.flowDerate, trip := e.flowTrip, hyst := e.flowHyst }
  | .ret => { low := false, warn := some e.retWarn, derate := some e.retDerate, trip := e.retTrip, hyst := e.retHyst }
  | .rise =>
    { low := false, warn := some e.riseWarn, derate := some e.riseDerate, trip := e.riseTrip, hyst := e.riseHyst }
  | .pressure => { low := true, warn := none, derate := none, trip := e.pressureTrip, hyst := e.pressureHyst }

/-- A sample is beyond a threshold (R137). -/
def Thresholds.beyond (t : Thresholds) (x v : Int) : Bool := if t.low then decide (v < x) else decide (x < v)

/-- A sample is clear of a threshold's recovery bound (R137). -/
def Thresholds.clear (t : Thresholds) (x v : Int) : Bool :=
  if t.low then decide (x + t.hyst ≤ v) else decide (v ≤ x - t.hyst)

/-- A beyond count after a sample (R137). -/
def countBeyond (t : Thresholds) (x : Option Int) (v : Int) (old : Nat) : Nat :=
  match x with
  | some x => if t.beyond x v then bump8 old else 0
  | none => 0

/-- The threshold of a level; OK has none. -/
def Thresholds.of (t : Thresholds) : Level → Option Int
  | .ok => none
  | .warn => t.warn
  | .derate => t.derate
  | .trip => some t.trip

/-- The height of a level. -/
def Level.rank : Level → Nat
  | .ok => 0
  | .warn => 1
  | .derate => 2
  | .trip => 3

/-- The highest level above the present one whose threshold's count has reached n (R138). -/
def Quantity.riseTo (q : Quantity) (t : Thresholds) (n : Nat) : Option Level :=
  if q.level.rank < 3 ∧ n ≤ q.tripCount then some .trip
  else if q.level.rank < 2 ∧ t.derate.isSome ∧ n ≤ q.derateCount then some .derate
  else if q.level.rank < 1 ∧ t.warn.isSome ∧ n ≤ q.warnCount then some .warn
  else none

/-- The next lower level that a quantity has (R139). -/
def Thresholds.below (t : Thresholds) : Level → Level
  | .trip => if t.derate.isSome then .derate else .ok
  | .derate => .warn
  | .warn => .ok
  | .ok => .ok

/-- The fall of R139, for a sample that gave no rise. -/
def Quantity.fall (q : Quantity) (t : Thresholds) (n : Nat) (v : Int) : Quantity :=
  match t.of q.level with
  | none => q
  | some x =>
    if t.clear x v then
      if n ≤ q.recovery + 1 then { q with level := t.below q.level, recovery := 0 }
      else { q with recovery := bump8 q.recovery }
    else { q with recovery := 0 }

/-- The beyond counts and the last value after a sample (R137). -/
def Quantity.counted (q : Quantity) (t : Thresholds) (v : Int) : Quantity :=
  { q with
    warnCount := countBeyond t t.warn v q.warnCount
    derateCount := countBeyond t t.derate v q.derateCount
    tripCount := countBeyond t (some t.trip) v q.tripCount
    last := some v }

/-- One sample of a quantity with persistence count n (R137, then R138, then R139). -/
def Quantity.sample (q : Quantity) (t : Thresholds) (n : Nat) (v : Int) : Quantity :=
  let q := q.counted t v
  match q.riseTo t n with
  | some l => { q with level := l, recovery := 0 }
  | none => q.fall t n v

/-- A quantity whose counts are cleared, its level and value kept (R145, RESET CIRCUIT). -/
def Quantity.clearCounts (q : Quantity) : Quantity :=
  { q with warnCount := 0, derateCount := 0, tripCount := 0, recovery := 0 }

/-! ### The emergency-water request (R149) -/

/-- A rated furnace with the circuit as its coil circuit holds metal. -/
def State.metalBehind (s : State) (c : CircuitNo) : Bool :=
  furnaces.any fun f => s.coilOf f c && decide (0 < s.heats[f].mass)

/-- The test of the request: set while the circuit is in TRIP with metal behind it; once set it stays (R149). -/
def State.waterTest (s : State) (c : CircuitNo) : State :=
  let x := s.circuits[c]
  if x.state = .trip ∧ s.metalBehind c then s.setCircuit c { x with water := true } else s

/-- The requests are tested for every circuit. -/
def State.waterTests (s : State) : State := circuitNos.foldl (fun s c => s.waterTest c) s

/-! ### TRIP and the circuit state test (R142, R143) -/

/-- The sample value a trip record names: that of a quantity cause (R143). -/
def Circuit.causeValue (x : Circuit) : TripCause → Option Int
  | .quantity q => (x.quantity q).last
  | _ => none

/-- The entry to TRIP by a cause (R143). -/
def State.enterTrip (s : State) (c : CircuitNo) (cause : TripCause) : State :=
  let x := s.circuits[c]
  let s := s.setCircuit c { x with
    state := .trip, start := .idle,
    trip := some { cause := cause, time := s.time, value := x.causeValue cause } }
  let s := s.raise .circuitTrip (numberOf c)
  (s.waterTest c).tapOnTrip c

/-- The state an untripped circuit takes outside STARTING: TRIP by a present cause, or by its levels (R142). -/
def State.settleCircuit (s : State) (c : CircuitNo) : State :=
  match s.firstCause c with
  | some cause => s.enterTrip c cause
  | none => s.setCircuit c { s.circuits[c] with state := (s.circuits[c]).byLevels, start := .idle }

/-- The circuit state test (R142). -/
def State.circuitTest (s : State) (c : CircuitNo) : State :=
  match s.circuits[c].state with
  | .normal | .alert | .derate => s.settleCircuit c
  | .starting => if s.causePresent c .leak then s.enterTrip c .leak else s
  | .trip | .disabled => s

/-! ### STARTING (R145, R146) -/

/-- STARTING ends once the timer is EXPIRED and the pump-run indication is on (R146). -/
def State.startingTest (s : State) (c : CircuitNo) : State :=
  let x := s.circuits[c]
  if x.state = .starting ∧ x.start = .expired ∧ s.contacts.ind.pumpRun[c] then s.settleCircuit c else s

/-- The start timer of a circuit has run for the start window. -/
def State.startDue (s : State) (c : CircuitNo) : Bool :=
  match s.circuits[c].start with
  | .running t => reached s.time t ((s.cooling c).startWindow * 1000)
  | _ => false

/-- The start timer expires (R146). -/
def State.startExpire (s : State) (c : CircuitNo) : State :=
  (s.setCircuit c { s.circuits[c] with start := .expired }).startingTest c

/-- The entry to STARTING of a newly enabled circuit (R145). -/
def State.enableCircuit (s : State) (c : CircuitNo) : State :=
  (s.setCircuit c { Circuit.cold with state := .starting, start := .running s.time }).circuitTest c

/-- The entry to STARTING from TRIP by RESET CIRCUIT (R145). -/
def State.restartCircuit (s : State) (c : CircuitNo) : State :=
  let x := s.circuits[c]
  s.setCircuit c { x with
    state := .starting, flow := x.flow.clearCounts, ret := x.ret.clearCounts, rise := x.rise.clearCounts,
    pressure := x.pressure.clearCounts, start := .running s.time, water := false }

/-! ### Deliveries (R136) -/

/-- A quantity of a circuit takes a sample, and the circuit state test follows. -/
def State.evaluate (s : State) (c : CircuitNo) (q : QuantityNo) (v : Int) : State :=
  let x := s.circuits[c]
  let e := s.cooling c
  (s.setCircuit c (x.setQuantity q ((x.quantity q).sample (e.thresholds q) e.persistence v))).circuitTest c

/-- The last engineering value of the circuit's SUPPLY_TEMP point, where it has one (R136). -/
def State.supplyValue (s : State) (c : CircuitNo) : Option Int :=
  match findOwned s.tables.point.active .supplyTemp (numberOf c) with
  | some i =>
    match s.intake.live[i] with
    | some l => l.value
    | none => none
  | none => none

/-- A delivered value of a cooling point (R136). -/
def State.coolingValue (s : State) (k : CoolingKind) (c : CircuitNo) (v : Int) : State :=
  if s.circuits[c].state = .disabled then s
  else
    match k with
    | .flow => s.evaluate c .flow v
    | .pressure => s.evaluate c .pressure v
    | .supply => s
    | .ret =>
      let s := s.evaluate c .ret v
      match s.supplyValue c with
      | some supply => s.evaluate c .rise (v - supply)
      | none => s

/-! ### Commits (R140, R150) -/

/-- A point of a kind exists for the circuit in the active point table. -/
def State.hasPoint (s : State) (k : PointKind) (c : CircuitNo) : Bool :=
  (findOwned s.tables.point.active k (numberOf c)).isSome

/-- A quantity that no sample can reach any more goes to OK (R140). -/
def State.dropQuantity (s : State) (c : CircuitNo) (q : QuantityNo) (kept : Bool) : State :=
  if kept then s else (s.setCircuit c ((s.circuits[c]).setQuantity q Quantity.cold)).circuitTest c

/-- The check of a circuit against a new point table (R140). -/
def State.recheckPoints (s : State) (c : CircuitNo) : State :=
  if s.circuits[c].state = .disabled then s
  else
    let s := s.dropQuantity c .flow (s.hasPoint .flow c)
    let s := s.dropQuantity c .ret (s.hasPoint .returnTemp c)
    let s := s.dropQuantity c .rise (s.hasPoint .returnTemp c && s.hasPoint .supplyTemp c)
    s.dropQuantity c .pressure (s.hasPoint .pressure c)

/-- A circuit at a cooling commit, by its enabled flag in the old and the new active table (R150). -/
def State.recommitCircuit (s : State) (old : Image) (c : CircuitNo) : State :=
  match (coolingEntry old c).enabled, (s.cooling c).enabled with
  | false, false => s
  | false, true => s.enableCircuit c
  | true, false => s.setCircuit c Circuit.cold
  | true, true => if s.startDue c then s.startExpire c else s

end Sys2Proof.Machine
end

