-- ==== Sys2Proof/Machine/Watchdog.lean ====
section
/-! DEFINITION. The supervision watchdog and the shop run state (spec/10): the entries to EXPIRED and to ALL_STOP. -/

namespace Sys2Proof.Machine

/-- The output is a MANUAL one with safe mode HOLD. -/
def State.holds (s : State) (o : OutputNo) : Bool :=
  decide ((s.output o).function = fnManual) && decide ((s.output o).mode = modeHold)

/-- The safe modes of the MANUAL outputs at an entry to EXPIRED (R53): a HOLD output's frozen level becomes its driven
level; the levels of the others follow from the state EXPIRED itself (`State.manualLevel`). -/
def State.applySafeModes (s : State) : State :=
  s.withContacts { s.contacts with
    frozen := Vector.ofFn fun o : OutputNo => if s.holds o then s.contacts.driven[o] else s.contacts.frozen[o] }

/-- The watchdog enters EXPIRED (R182). The allocator's remake and the readiness evaluation follow at the end of the
event. -/
def State.enterExpired (s : State) : State :=
  let s := s.withWatch { s.watch with state := .expired, timer := .idle, expiries := bump8 s.watch.expiries }
  let s := s.raise .watchdogExpired 0
  s.applySafeModes.tapOnExpired

/-- The watchdog enters EXPECT_A with the expected token A and its timer started (R177, R181). -/
def State.enterExpectA (s : State) : State :=
  s.withWatch { s.watch with state := .expectA, expected := .a, timer := .running s.time }

/-- The watchdog timer has run for the watchdog timeout (R179); it runs in EXPECT_A and EXPECT_B alone. -/
def State.watchDue (s : State) : Bool :=
  match s.watch.timer with
  | .running t => s.watch.state.expecting && reached s.time t s.mgmt.params.watchdogTimeout
  | .idle => false

/-- The value of the expected token (R178). -/
def State.expectedToken (s : State) : Nat :=
  match s.watch.expected with
  | .a => s.mgmt.params.tokenA
  | .b => s.mgmt.params.tokenB

/-- Every ordered power is 0 (R118, R122). -/
def State.zeroOrders (s : State) : State := { s with power := s.power.map fun x => { x with ordered := 0 } }

/-- The entry to ALL_STOP (R183, R118, R172; log entry 22); in ALL_STOP already, a further request changes nothing. -/
def State.enterAllStop (s : State) (cause : StopCause) (number : Byte) : State :=
  match s.watch.run with
  | .allStop => s
  | .run =>
    let s := s.withWatch { s.watch with
      run := .allStop, stop := some { cause := cause, number := number, time := s.time } }
    let s := s.raise .allStop 0
    s.zeroOrders.remake.placeZeros.tapOnAllStop

end Sys2Proof.Machine
end

