-- ==== Sys2Proof/Machine/Contact.lean ====
section
/-! DEFINITION. The contact unit (spec/03): filtering, the function indications' notices, the change latch, and the
commit of a contact map. -/

namespace Sys2Proof.Machine

/-! ### The change latch (R46, R47) -/

/-- An edge of an input's filtered level at the change latch. -/
def State.edge (s : State) (i : InputNo) (rising : Bool) : State :=
  if edgeSelected (s.input i).edge rising then
    let levels := levelWord s.contacts.filtered
    let s' := s.withContacts { s.contacts with
      snapshot := some { levels := levels, time := s.time, input := i }, changePending := true,
      overrun := s.contacts.overrun || s.contacts.changePending }
    let s' := s'.placeReport (.change levels s.time i s'.contacts.overrun)
    if s.contacts.changePending then s'.raise .changeOverrun 0 else s'
  else s

/-! ### Notices (R45) -/

/-- A notice of the ESTOP indication: its turning on enters ALL_STOP (R183). -/
def State.estopNotice (s : State) : State :=
  if s.contacts.ind.estop then
    s.enterAllStop .estop (BitVec.ofNat 8 ((s.estopInput.map fun i => i.val).getD 0))
  else s

/-- A notice of a circuit's flow-switch or leak indication: the circuit state test (R142). -/
def State.causeNotice (s : State) (c : CircuitNo) : State := s.circuitTest c

/-- The notices of the indications that an event changed, in the order of R45's table (log entry 13). -/
def State.sendNotices (s : State) (old : Indications) : State :=
  let new := s.contacts.ind
  let s := if old.estop = new.estop then s else s.estopNotice
  let s := circuitNos.foldl (fun s c => if old.flowSwitch[c] = new.flowSwitch[c] then s else s.causeNotice c) s
  let s := circuitNos.foldl (fun s c => if old.leak[c] = new.leak[c] then s else s.causeNotice c) s
  let s := circuitNos.foldl (fun s c => if old.pumpRun[c] = new.pumpRun[c] then s else s.startingTest c) s
  furnaces.foldl (fun s f => if old.tiltHome[f] = new.tiltHome[f] then s else s.tiltHomeNotice f) s

/-- Every indication is recomputed, and a notice is sent for each that changed (R45). -/
def State.refreshIndications (s : State) : State :=
  let old := s.contacts.ind
  (s.withContacts { s.contacts with ind := s.indications }).sendNotices old

/-! ### Filtering (R44) -/

/-- An input's filtered level takes its raw level and its timer stops. -/
def State.takeRaw (s : State) (i : InputNo) : State :=
  s.withContacts { s.contacts with
    filtered := s.contacts.filtered.set i s.contacts.raw[i], persistence := s.contacts.persistence.set i .idle }

/-- A change of a filtered level: the indications, then the change latch (R44; log entry 13). -/
def State.filteredChange (s : State) (i : InputNo) : State :=
  let s := s.takeRaw i
  s.refreshIndications.edge i s.contacts.raw[i]

/-- The raw level of an input becomes `closed` (R44). -/
def State.rawChange (s : State) (i : InputNo) (closed : Bool) : State :=
  if s.contacts.raw[i] = closed then s
  else
    let s := s.withContacts { s.contacts with raw := s.contacts.raw.set i closed }
    if s.contacts.filtered[i] = closed then
      s.withContacts { s.contacts with persistence := s.contacts.persistence.set i .idle }
    else if persistenceTime (s.input i).filter = 0 then s.filteredChange i
    else s.withContacts { s.contacts with persistence := s.contacts.persistence.set i (.running s.time) }

/-- An input's persistence timer has run for the time of its filter class. -/
def State.persistenceDue (s : State) (i : InputNo) : Bool :=
  match s.contacts.persistence[i] with
  | .running t => reached s.time t (persistenceTime (s.input i).filter)
  | .idle => false

/-! ### Committing the contact map (R54) -/

/-- Step 1: a running timer whose new time has been reached changes its filtered level, which is an edge. -/
def State.recommitInput (s : State) (i : InputNo) : State :=
  if s.persistenceDue i then
    let s := s.takeRaw i
    s.edge i s.contacts.raw[i]
  else s

/-- Step 3: the commanded level of an output under its new function, and, while the watchdog is EXPIRED, the frozen
level of a HOLD output (log entry 14). -/
def State.recommitOutputs (s : State) (old : Image) : State :=
  let commanded : Vector Bool 8 := Vector.ofFn fun o : OutputNo =>
    if (s.output o).function = fnManual ∧ (outputEntry old o).function ≠ fnManual then false else s.contacts.commanded[o]
  s.withContacts { s.contacts with
    commanded := commanded
    frozen := Vector.ofFn fun o : OutputNo =>
      if s.watch.state = .expired ∧ s.holds o then commanded[o] else s.contacts.frozen[o] }

/-- The contact unit at a contact map commit. -/
def State.recommitContacts (s : State) (old : Image) : State :=
  let s := inputNos.foldl (fun s i => s.recommitInput i) s
  s.refreshIndications.recommitOutputs old

end Sys2Proof.Machine
end

