-- ==== Sys2Proof/Machine/Settle.lean ====
section
/-! DEFINITION. The end of an event. A block's change is handed to the blocks that read it within the event, and they
see the state as it stands at its end (R58, R106, R148, R182): the holding comparisons, the emergency-water tests, the
readiness evaluation and the matching attempt, the ONE remake of the allocation, the permit condition, and the derived
outputs, in the order that R128, R156, R161 and R162 give them. `s0` is the state the event found. -/

namespace Sys2Proof.Machine

/-- What an event brings about besides the changes themselves: the furnaces of which a delivered value or a profile
commit tests the permit condition (R162), and a matching attempt by RELEASE TAPS (R161). -/
structure Causes where
  permit : List Furnace
  attempt : Bool
  deriving DecidableEq, Repr

/-- An event that causes neither by itself. -/
def Causes.none : Causes := { permit := [], attempt := false }

/-- An event that is itself a moment of the permit condition of these furnaces. -/
def Causes.testing (fs : List Furnace) : Causes := { permit := fs, attempt := false }

/-- A mass or a Tp of a furnace in the ready list has changed (R161). -/
def State.readyMoved (s0 s : State) : Bool :=
  s.taps.ready.any fun r =>
    !(decide (s0.heats[r.furnace].temp = s.heats[r.furnace].temp) && decide (s0.heats[r.furnace].mass = s.heats[r.furnace].mass))

/-- An event causes a matching attempt (R161): a change of the ready list, of the queue head, or of a listed furnace's
Tp or mass, the station's return to IDLE, or RELEASE TAPS. -/
def State.attempts (s0 s : State) (x : Causes) : Bool :=
  x.attempt || !decide (s0.taps.ready = s.taps.ready) || !decide (s0.taps.queue.head? = s.taps.queue.head?)
    || s0.readyMoved s || !decide (s0.taps.station = .idle)

/-- The matching attempt of an event: the state, and the match it made. -/
def State.attempt (s0 s : State) (x : Causes) : State × Option (Demand × Furnace) :=
  if s0.attempts s x then
    match s.matching with
    | some (d, f) => ((s.assign d f).compare f, some (d, f))
    | none => (s, none)
  else (s, none)

/-- ASSIGNED is placed after the remake of a match (R161 step 5). -/
def State.announce (s : State) : Option (Demand × Furnace) → State
  | some (d, f) => s.placeStatus .assigned (some d.id) (some f) none
  | none => s

/-- A stale indication that the permit condition reads has turned off: a fresh notice (R162). -/
def State.freshNotice (s0 s : State) (f : Furnace) : Bool :=
  (s0.intake.stale.ladle && !s.intake.stale.ladle) || (s0.intake.stale.tilt[f] && !s.intake.stale.tilt[f])

/-- An event tests the permit condition of the furnace at the station (R162): at the entry to ASSIGNED, which is a match
(R161 step 6), even one that gives the furnace a cancelled assignment has just left; at a value of that furnace or of the
ladle, or a profile commit; at a change of its I; at a fresh notice. -/
def State.testsPermit (s0 s : State) (x : Causes) (matched : Bool) : Bool :=
  match s.taps.pour with
  | some r =>
    matched || decide (r.furnace ∈ x.permit)
      || !decide (s0.power[r.furnace].issued = s.power[r.furnace].issued) || s0.freshNotice s r.furnace
  | none => false

/-- An event tests the emergency-water request of a circuit (R149): its state has changed, the mass of a rated furnace
with it as coil circuit has, or the profile table has. -/
def State.waterMoved (s0 s : State) (c : CircuitNo) : Bool :=
  !decide (s0.circuits[c].state = s.circuits[c].state)
    || furnaces.any (fun f => s.coilOf f c && !decide (s0.heats[f].mass = s.heats[f].mass))
    || !decide (s0.tables.profile.active = s.tables.profile.active)

/-- The requests that an event tests, ascending. -/
def State.waterChanged (s0 s : State) : State :=
  circuitNos.foldl (fun t c => if s0.waterMoved s c then t.waterTest c else t) s

/-- The end of an event that found the state `s0` (log entry 11). -/
def State.settle (s0 s : State) (x : Causes) : State :=
  let s := s0.compareChanged s
  let s := s0.waterChanged s
  let s := s.evaluateReady
  let m := s0.attempt s x
  let s := s0.remakeChanged m.1
  let s := s.announce m.2
  let s := if s0.testsPermit s x m.2.isSome then s.permitTest else s
  s.driveOutputs

end Sys2Proof.Machine
end

