-- ==== Sys2Proof/Machine/Intake.lean ====
section
/-! DEFINITION. Point intake (spec/02): scaling, duplicates and gaps, acceptance, delivery, and staleness. -/

namespace Sys2Proof.Machine

/-! ### Stale notices (R31) -/

/-- A stale indication: a kind and an owner with an owner action. -/
inductive StaleKey where
  | power (f : Furnace)
  | cooling (c : CircuitNo) (k : CoolingKind)
  | ladle
  | tilt (f : Furnace)
  deriving DecidableEq, Repr

/-- The indications, in the order of R31's table (log entry 20). -/
def staleKeys : List StaleKey :=
  furnaces.map .power
    ++ circuitNos.flatMap (fun c => [.cooling c .flow, .cooling c .supply, .cooling c .ret, .cooling c .pressure])
    ++ [.ladle] ++ furnaces.map .tilt

/-- The indication that a point's stale flag turns. -/
def PointEntry.staleKey (e : PointEntry) : Option StaleKey :=
  match e.kind with
  | some .powerActual => (furnaceOf e.owner.toNat).map .power
  | some .tiltAngle => (furnaceOf e.owner.toNat).map .tilt
  | some .ladleMass => some .ladle
  | some k =>
    match k.cooling with
    | some ck => (circuitOf e.owner.toNat).map fun c => .cooling c ck
    | none => none
  | none => none

/-- An indication is on. -/
def StaleInd.get (x : StaleInd) : StaleKey → Bool
  | .power f => x.power[f]
  | .cooling c k => (x.cooling[c]).of k
  | .ladle => x.ladle
  | .tilt f => x.tilt[f]

/-- The indications with one replaced. -/
def StaleInd.set (x : StaleInd) (key : StaleKey) (b : Bool) : StaleInd :=
  match key with
  | .power f => { x with power := x.power.set f b }
  | .cooling c k => { x with cooling := x.cooling.set c ((x.cooling[c]).set k b) }
  | .ladle => { x with ladle := b }
  | .tilt f => { x with tilt := x.tilt.set f b }

/-- The state with other stale indications. -/
def State.withStale (s : State) (x : StaleInd) : State := { s with intake := { s.intake with stale := x } }

/-- A stale notice reaches the owner (R95, R115, R141, R168, R170). -/
def State.staleNotice (s : State) : StaleKey → State
  | .power f => (s.markUncertain f).suspendFollow f
  | .cooling c _ => s.circuitTest c
  | .ladle => s.ladleStale
  | .tilt f => s.tiltStale f

/-- A fresh notice reaches the owner. It clears no uncertain flag (R95); the remake and the permit condition follow at
the end of the event. -/
def State.freshToOwner (s : State) : StaleKey → State
  | .cooling c _ => s.circuitTest c
  | .power _ | .ladle | .tilt _ => s

/-- An indication takes a value, and its owner a notice when it changed (R31). -/
def State.turnStale (s : State) (key : StaleKey) (on : Bool) : State :=
  if s.intake.stale.get key = on then s
  else
    let s := s.withStale (s.intake.stale.set key on)
    if on then s.staleNotice key else s.freshToOwner key

/-- The indication of a point, if it has one, takes a value. -/
def State.turnPointStale (s : State) (i : PointNo) (on : Bool) : State :=
  match (s.point i).staleKey with
  | some key => s.turnStale key on
  | none => s

/-- A point that has just come into being (R22). -/
def PointLive.fresh (now : Time) : PointLive :=
  { value := none, seq := none, accepted := none, staleRef := now, clampedLast := false, questionableLast := false,
    stale := false }

/-- The stale timer of a point has run for the stale limit (R30). -/
def State.staleDue (s : State) (i : PointNo) : Bool :=
  match s.intake.live[i] with
  | some l =>
    (s.point i).used && decide ((s.point i).limit ≠ 0) && !l.stale && reached s.time l.staleRef (s.point i).limit
  | none => false

/-- A point's stale flag is set and STALE is raised (R30). -/
def State.flagStale (s : State) (i : PointNo) : State :=
  match s.intake.live[i] with
  | some l => (s.setLive i (some { l with stale := true })).raise .stale i.val
  | none => s

/-- A point's stale timer expires (R30). -/
def State.staleExpire (s : State) (i : PointNo) : State := (s.flagStale i).turnPointStale i true

/-! ### Engineering values (R24) -/

/-- The unclamped engineering value: the offset plus the floor of raw × numerator ÷ denominator. -/
def PointEntry.scaled (e : PointEntry) (raw : Int) : Int := e.offset + raw * e.num / e.den

/-- The engineering value. -/
def PointEntry.value (e : PointEntry) (raw : Int) : Int :=
  if e.scaled raw < e.low then e.low else if e.high < e.scaled raw then e.high else e.scaled raw

/-- The value is clamped. -/
def PointEntry.clamps (e : PointEntry) (raw : Int) : Bool :=
  decide (e.scaled raw < e.low) || decide (e.high < e.scaled raw)

/-! ### Delivery (R28, R29) -/

/-- The number of sample intervals that an item with sequence `seq` stands for (R25). -/
def intervals (last : Option Byte) (seq : Byte) : Nat :=
  match last with
  | some l => (seq - l - 1).toNat + 1
  | none => 1

/-- An accepted value reaches its owner (R28). -/
def State.deliver (s : State) (e : PointEntry) (v : Int) (n : Nat) : State :=
  let furnace := furnaceOf e.owner.toNat
  let circuit := circuitOf e.owner.toNat
  match e.kind, furnace, circuit with
  | some .powerActual, some f, _ => (s.integratePower f v e.interval n).actualPower f v.toNat
  | some .powerOrder, some f, _ => s.orderPower f v.toNat
  | some .dipTemp, some f, _ => s.dip f v
  | some .chargeMass, some f, _ => s.charge f v.toNat
  | some .ladleMass, _, _ => s.ladleValue v.toNat
  | some .tiltAngle, some f, _ => s.tiltValue f v.toNat
  | some .flow, _, some c => s.coolingValue .flow c v
  | some .supplyTemp, _, some c => s.coolingValue .supply c v
  | some .returnTemp, _, some c => s.coolingValue .ret c v
  | some .pressure, _, some c => s.coolingValue .pressure c v
  | _, _, _ => s

/-- The furnaces whose permit condition a delivered value of an entry tests (R162): an actual power and a tilt angle
that of their furnace, a ladle mass that of whichever holds the assignment. -/
def PointEntry.permitFurnaces (e : PointEntry) : List Furnace :=
  match e.kind with
  | some .powerActual | some .tiltAngle => (furnaceOf e.owner.toNat).toList
  | some .ladleMass => furnaces
  | _ => []

/-- What an accepted item of an entry causes. -/
def PointEntry.causes (e : PointEntry) : Causes := Causes.testing e.permitFurnaces

/-- The state with other intake counters. -/
def State.withIntakeCounters (s : State) (x : IntakeCounters) : State :=
  { s with intake := { s.intake with counters := x } }

/-! ### Items (R25 to R27) -/

/-- A skipped questionable item (R26): the last sequence moves, and a POWER_ACTUAL owner integrates the last value;
a count above 9 sets its uncertain flag (log entry 33). -/
def State.skipItem (s : State) (i : PointNo) (l : PointLive) (seq : Byte) : State :=
  let e := s.point i
  let s := s.setLive i (some { l with seq := some seq, questionableLast := true })
  match e.kind, furnaceOf e.owner.toNat with
  | some .powerActual, some f => s.integratePower f (l.value.getD 0) e.interval (intervals l.seq seq)
  | _, _ => s

/-- An accepted item (R27): the live state, the fresh notice, and the value to its owner. -/
def State.acceptItem (s : State) (i : PointNo) (l : PointLive) (seq : Byte) (it : SampleItem) : State :=
  let e := s.point i
  let s := if e.clamps it.raw then
      s.withIntakeCounters { s.intake.counters with clamped := bump s.intake.counters.clamped } else s
  let s := s.setLive i (some
    { value := some (e.value it.raw), seq := some seq, accepted := some s.time, staleRef := s.time,
      clampedLast := e.clamps it.raw, questionableLast := it.questionable, stale := false })
  let s := if l.stale then s.turnPointStale i false else s
  s.deliver e (e.value it.raw) (intervals l.seq seq)

/-- A matched item (R25, R26). A used entry always has live state; one without it counts as just come into being. -/
def State.matchedItem (s : State) (i : PointNo) (seq : Byte) (it : SampleItem) : State :=
  let l := (s.intake.live[i]).getD (PointLive.fresh s.time)
  if l.seq = some seq then
    s.withIntakeCounters { s.intake.counters with duplicates := bump s.intake.counters.duplicates }
  else if it.questionable && (s.point i).skip then s.settle (s.skipItem i l seq) Causes.none
  else s.settle (s.acceptItem i l seq it) (s.point i).causes

/-- One item, looked up by its key (R23). -/
def State.item (s : State) (station seq : Byte) (order : Bool) (it : SampleItem) : State :=
  match findKey s.tables.point.active station it.channel order with
  | some i => s.matchedItem i seq it
  | none => s.withIntakeCounters { s.intake.counters with unmatched := bump s.intake.counters.unmatched }

/-- The items of a SAMPLE or ORDER body, each handled to its end before the next (R23). -/
def State.items (s : State) (station seq : Byte) (order : Bool) (body : List Byte) : State :=
  let s := (sampleItems body).foldl (fun s it => s.item station seq order it) s
  if body.length % 4 = 0 then s
  else s.withIntakeCounters { s.intake.counters with shortBodies := bump s.intake.counters.shortBodies }

/-! ### Point-table commits (R40, R41, R140) -/

/-- The live state a new entry carries over from the old table, by its key and kind (R40). -/
def State.carried (s : State) (old : Image) (e : PointEntry) : Option PointLive :=
  (pointNos.find? fun j =>
      let o := pointEntry old j
      o.used && decide (o.station = e.station) && decide (o.channel = e.channel) && decide (o.kindCode = e.kindCode)).bind
    fun j => s.intake.live[j]

/-- The live state of a new entry: carried over, or started at the completion; a limit of 0 clears the flag (R40). -/
def State.newLive (s : State) (old : Image) (i : PointNo) : Option PointLive :=
  let e := s.point i
  if e.used then
    let l := (s.carried old e).getD (PointLive.fresh s.time)
    some (if e.limit = 0 then { l with stale := false } else l)
  else none

/-- The owner of an indication that a point-table commit changed receives its notice (R41). -/
def State.recommitNotice (s : State) (before after : StaleInd) (key : StaleKey) : State :=
  match before.get key, after.get key with
  | false, true => s.staleNotice key
  | true, false => s.freshToOwner key
  | _, _ => s

/-- Point intake and the cooling monitor at a point-table commit: the live states, the expiries of shortened limits, the
stale indications with their notices, and the check of the circuits (R40, R41, R140). -/
def State.recommitPoints (s : State) (old : Image) : State :=
  let live : Vector (Option PointLive) 128 := Vector.ofFn fun i : PointNo => s.newLive old i
  let s := { s with intake := { s.intake with live := live } }
  let s := pointNos.foldl (fun s i => if s.staleDue i then s.flagStale i else s) s
  let before := s.intake.stale
  let after := s.staleIndications
  let s := staleKeys.foldl (fun s key => s.recommitNotice before after key) (s.withStale after)
  circuitNos.foldl (fun s c => s.recheckPoints c) s

end Sys2Proof.Machine
end

