-- ==== Sys2Proof/Machine/Mgmt.lean ====
section
/-! DEFINITION. The management unit's commands (spec/11 and the rules its Table 11-1 names), each as one item of a MGMT
frame: the state after it, its result, and the data it returns. The read commands of R200 and RESTART have files of
their own (Reads, Restart). -/

namespace Sys2Proof.Machine

/-! ### Items (R188, R189) -/

/-- What an item leaves: the state, its result, and its read data. -/
structure ItemOut where
  state : State
  result : Result
  data : List Byte
  deriving DecidableEq, Repr

/-- An item that is refused, or that changes nothing. -/
def ItemOut.plain (s : State) (r : Result) : ItemOut := { state := s, result := r, data := [] }

/-- An item taken without read data. -/
def ItemOut.ok (s : State) : ItemOut := { state := s, result := .ok, data := [] }

/-- A frame of k items is opened: no result and no data yet. -/
def State.openFrame (s : State) (k : Nat) : State :=
  s.withMgmt { s.mgmt with frame := { items := k, results := [], data := [] } }

/-- The result and the data of an item join those of its frame. -/
def ItemOut.recorded (o : ItemOut) : State :=
  let f := o.state.mgmt.frame
  o.state.withMgmt { o.state.mgmt with
    frame := { f with results := f.results ++ [o.result], data := f.data ++ o.data } }

/-- The room that the earlier items' data have left (R189). -/
def State.room (s : State) : Nat :=
  46 - (s.mgmt.frame.items + 1) / 2 - s.mgmt.frame.data.length

/-- Read data that fits the room is returned, and `t` is the state the command leaves; otherwise the command is refused
RANGE and changes nothing (R189). -/
def State.answer (s t : State) (data : List Byte) : ItemOut :=
  if data.length ≤ s.room then { state := t, result := .ok, data := data } else .plain s .range

/-- A command outside any frame, as the table lists it: a frame of this one item, whose reply is not placed
(log entry 2). -/
def State.single (s : State) (dt : Time) (item : State → ItemOut) : State :=
  s.event dt fun s => (item (s.openFrame 1)).recorded

/-! ### Tables (R35, R36, R190 to R193) -/

/-- The validator is VALIDATING. -/
def State.validating (s : State) : Bool := s.mgmt.validator.validating.isSome

/-- SELECT TABLE (R190). -/
def State.itemSelectTable (s : State) (table copy : Byte) (offset : BitVec 16) : ItemOut :=
  match tableOf table.toNat with
  | none => .plain s .range
  | some t =>
    if 1 < copy.toNat then .plain s .range
    else if t.size ≤ offset.toNat then .plain s .range
    else
      .ok (s.withMgmt { s.mgmt with
        selection := some { table := t, active := decide (copy = 1), pointer := offset.toNat } })

/-- Bytes written one after another from an address. -/
def Image.writeAll : Image → Nat → List Byte → Image
  | m, _, [] => m
  | m, a, b :: rest => Image.writeAll (m.write a b) (a + 1) rest

/-- A table is the cooling table, which the lock protects (R151). -/
def State.lockedTable (s : State) (t : TableNo) : Bool := decide (t = .cooling) && s.mgmt.locked

/-- Table data (R191): as many bytes as the image still has room for are written to the staging copy. -/
def State.itemTableData (s : State) (bytes : List Byte) : ItemOut :=
  if s.validating then .plain s .busy
  else
    match s.mgmt.selection with
    | none => .plain s .state
    | some sel =>
      if sel.active then .plain s .state
      else if s.lockedTable sel.table then .plain s .locked
      else
        let fit := bytes.take (sel.table.size - sel.pointer)
        let c := s.tables.copies sel.table
        let s' := { s with
          tables := s.tables.setCopies sel.table { c with staging := c.staging.writeAll sel.pointer fit },
          mgmt := { s.mgmt with selection := some { sel with pointer := sel.pointer + fit.length } } }
        .plain s' (if fit.length = bytes.length then .ok else .range)

/-- What READ TABLE returns over n bytes: the data, the pointer and the latch (R192, steps 1 to 3). -/
def readLatch (m : Image) (size : Nat) : Nat → Nat → Byte → List Byte × Nat × Byte
  | 0, p, latch => ([], p, latch)
  | n + 1, p, latch =>
    let next := readLatch m size n (if p < size then p + 1 else p) (if p < size then m.read p else 0)
    (latch :: next.1, next.2)

/-- READ TABLE (R192). -/
def State.itemReadTable (s : State) (count : Byte) : ItemOut :=
  if count.toNat = 0 ∨ 40 < count.toNat then .plain s .range
  else
    match s.mgmt.selection with
    | none => .plain s .state
    | some sel =>
      let image := (s.tables.copies sel.table).image sel.active
      let r := readLatch image sel.table.size count.toNat sel.pointer s.mgmt.latch
      s.answer (s.withMgmt { s.mgmt with selection := some { sel with pointer := r.2.1 }, latch := r.2.2 }) r.1

/-- COMMIT TABLE (R35). -/
def State.itemCommitTable (s : State) (table : Byte) : ItemOut :=
  match tableOf table.toNat with
  | none => .plain s .range
  | some t =>
    if s.validating then .plain s .busy
    else if s.lockedTable t then .plain s .locked
    else .ok (s.withMgmt { s.mgmt with validator := { s.mgmt.validator with validating := some t } })

/-- RELOAD STAGING (R193). -/
def State.itemReloadStaging (s : State) : ItemOut :=
  if s.validating then .plain s .busy
  else
    match s.mgmt.selection with
    | none => .plain s .state
    | some sel =>
      if s.lockedTable sel.table then .plain s .locked
      else
        let c := s.tables.copies sel.table
        .ok { s with tables := s.tables.setCopies sel.table { c with staging := c.active } }

/-! ### Shop parameters (R194, R195) -/

/-- The value of a parameter by its number. -/
def Params.get (p : Params) : Nat → Option Nat
  | 1 => some p.pCap
  | 2 => some p.pReserve
  | 3 => some p.supervisor
  | 4 => some p.pouringLine
  | 5 => some p.interceptBase
  | 6 => some p.interceptMask
  | 7 => some p.orderRefresh
  | 8 => some p.loopSilence
  | 9 => some p.watchdogTimeout
  | 10 => some p.tokenA
  | 11 => some p.tokenB
  | 12 => some p.dipMaxAge
  | 13 => some p.tiltHome
  | 14 => some p.pourLead
  | 15 => some p.tiltStartTimeout
  | 16 => some p.pourTimeout
  | 17 => some p.returnTimeout
  | _ => none

/-- The parameters with the one of a number replaced. -/
def Params.put (p : Params) (number v : Nat) : Params :=
  match number with
  | 1 => { p with pCap := v }
  | 2 => { p with pReserve := v }
  | 3 => { p with supervisor := v }
  | 4 => { p with pouringLine := v }
  | 5 => { p with interceptBase := v }
  | 6 => { p with interceptMask := v }
  | 7 => { p with orderRefresh := v }
  | 8 => { p with loopSilence := v }
  | 9 => { p with watchdogTimeout := v }
  | 10 => { p with tokenA := v }
  | 11 => { p with tokenB := v }
  | 12 => { p with dipMaxAge := v }
  | 13 => { p with tiltHome := v }
  | 14 => { p with pourLead := v }
  | 15 => { p with tiltStartTimeout := v }
  | 16 => { p with pourTimeout := v }
  | 17 => { p with returnTimeout := v }
  | _ => p

/-- The range of a parameter (R194). -/
def paramRange : Nat → Nat × Nat
  | 1 | 2 => (0, 400000)
  | 3 | 4 => (0, 254)
  | 5 | 6 => (0, 255)
  | 7 => (100, 2000)
  | 8 => (10, 5000)
  | 9 => (100, 60000)
  | 10 | 11 => (0, 0xFFFF)
  | 12 => (1, 60)
  | 13 => (0, 300)
  | 14 => (0, 5000)
  | 15 | 17 => (1, 120)
  | 16 => (10, 900)
  | _ => (0, 0)

/-- A signed value lies in the range of a parameter. -/
def paramFits (number : Nat) (v : Int) : Bool :=
  decide (((paramRange number).1 : Int) ≤ v) && decide (v ≤ (paramRange number).2)

/-- A token value equals the other token's (R194, step 4). -/
def Params.tokenClash (p : Params) (number v : Nat) : Bool :=
  (decide (number = 10) && decide (v = p.tokenB)) || (decide (number = 11) && decide (v = p.tokenA))

/-- The loop-silence timer has run out while the state is UP (R18). -/
def State.silenceDue (s : State) : Bool :=
  decide (s.loop.live = .up) && reached s.time s.loop.lastValid s.mgmt.params.loopSilence

/-- The loop-silence timer expires (R18). -/
def State.silenceExpire (s : State) : State :=
  (s.withLoop { s.loop with live := .down }).raise .loopDown 0

/-- What a written parameter does at once (R195): the loop silence and the watchdog timeout are measured from their
unchanged starts, the dip-age timers are measured again. The rest acts through `State.settle`, or from the next moment
that reads the parameter. -/
def State.paramWritten (s : State) (number : Nat) : State :=
  match number with
  | 8 => if s.silenceDue then s.silenceExpire else s
  | 9 => if s.watchDue then s.enterExpired else s
  | 12 => furnaces.foldl (fun s f => s.remeasureDipAge f) s
  | _ => s

/-- SET PARAMETER (R194). -/
def State.itemSetParameter (s : State) (number : Byte) (value : BitVec 32) : ItemOut :=
  let p := s.mgmt.params
  match p.get number.toNat with
  | none => .plain s .range
  | some old =>
    if s.mgmt.locked then .plain s .locked
    else if !paramFits number.toNat value.toInt then .plain s .range
    else if p.tokenClash number.toNat value.toNat then .plain s .range
    else if old = value.toNat then .ok s
    else .ok (s.settle ((s.withParams (p.put number.toNat value.toNat)).paramWritten number.toNat) Causes.none)

/-- READ PARAMETER (R194). -/
def State.itemReadParameter (s : State) (number : Byte) : ItemOut :=
  match s.mgmt.params.get number.toNat with
  | none => .plain s .range
  | some v => s.answer s (enc32 v)

/-! ### The lock (R196) -/

/-- LOCK. -/
def State.itemLock (s : State) : ItemOut := .ok (s.withMgmt { s.mgmt with locked := true })

/-- Metal in a furnace. -/
def State.metalAnywhere (s : State) : Bool := furnaces.any fun f => decide (0 < s.heats[f].mass)

/-- UNLOCK. -/
def State.itemUnlock (s : State) : ItemOut :=
  if s.metalAnywhere then .plain s .state else .ok (s.withMgmt { s.mgmt with locked := false })

/-! ### Heats (R61, R68, R69, R73 to R75, R117) -/

/-- A command on a furnace number: RANGE outside 1 to 6. -/
def State.onFurnace (s : State) (furnace : Byte) (k : Furnace → ItemOut) : ItemOut :=
  match furnaceOf furnace.toNat with
  | none => .plain s .range
  | some f => k f

/-- OPEN HEAT (R61). -/
def State.itemOpenHeat (s : State) (furnace : Byte) (id : BitVec 32) : ItemOut :=
  s.onFurnace furnace fun f =>
    let h := s.heats[f]
    if !s.rated f then .plain s .state
    else if h.phase ≠ .empty then .plain s .state
    else .ok (s.settle (s.setHeat f { h with id := some id.toNat, bands := some (s.profile f).bands }) Causes.none)

/-- A tap phase. -/
def Phase.isTap : Phase → Bool
  | .tapAssigned | .tapping => true
  | _ => false

/-- DRAIN (R73): the record is that of a cold reset, in EMPTY too. -/
def State.itemDrain (s : State) (furnace : Byte) : ItemOut :=
  s.onFurnace furnace fun f =>
    if s.heats[f].phase.isTap then .plain s .state
    else .ok (s.settle ((s.setHeat f Heat.cold).setDipAge f .idle) Causes.none)

/-- A phase in which SET MASS applies. -/
def Phase.isOpenMetal : Phase → Bool
  | .melting | .superheat | .holding => true
  | _ => false

/-- A mass correction (R74, R91): below 100 kg the heat is in MELTING, with the effects of R60. -/
def State.correctMass (s : State) (f : Furnace) (m : Nat) : State :=
  let h := s.heats[f].rescale m
  if m < 100 then s.updateHeat f { h with phase := .melting }.voidHold else s.updateHeat f h

/-- SET MASS (R74). -/
def State.itemSetMass (s : State) (furnace : Byte) (mass : BitVec 32) : ItemOut :=
  s.onFurnace furnace fun f =>
    let h := s.heats[f]
    if !h.phase.isOpenMetal || decide (h.mass = 0) then .plain s .state
    else if mass.toNat = 0 ∨ (s.profile f).capacity < mass.toNat then .plain s .range
    else .ok (s.settle (s.correctMass f mass.toNat) Causes.none)

/-- A temperature of SET BAND is within 1,000 to 1,800 degrees. -/
def bandTempOk (t : Int) : Bool := decide (1000 ≤ t) && decide (t ≤ 1800)

/-- The four temperatures of SET BAND are within their range and in order (R75, step 2). -/
def Bands.ok (b : Bands) : Bool :=
  bandTempOk b.holdLow && bandTempOk b.holdHigh && bandTempOk b.tapLow && bandTempOk b.tapHigh
    && decide (b.holdLow ≤ b.holdHigh) && decide (b.tapLow ≤ b.tapHigh)

/-- The bands of a heat are replaced: the SUPERHEAT test, and the comparison at once (R75, R129). -/
def State.setBands (s : State) (f : Furnace) (b : Bands) : State :=
  (s.setHeat f ({ s.heats[f] with bands := some b }.superheatTest s.time)).compare f

/-- SET BAND (R75). -/
def State.itemSetBand (s : State) (furnace : Byte) (holdLow holdHigh tapLow tapHigh : BitVec 16) : ItemOut :=
  s.onFurnace furnace fun f =>
    let b : Bands :=
      { holdLow := holdLow.toInt, holdHigh := holdHigh.toInt, tapLow := tapLow.toInt, tapHigh := tapHigh.toInt }
    if !b.ok then .plain s .range
    else if s.heats[f].id.isNone then .plain s .state
    else .ok (s.settle (s.setBands f b) Causes.none)

/-- APPROVE (R68). -/
def State.itemApprove (s : State) (furnace : Byte) (id : BitVec 32) (minutes : Byte) : ItemOut :=
  s.onFurnace furnace fun f =>
    let h := s.heats[f]
    if minutes.toNat = 0 ∨ 240 < minutes.toNat then .plain s .range
    else if h.phase = .empty ∨ h.phase = .melting then .plain s .state
    else if h.id ≠ some id.toNat then .plain s .absent
    else
      .ok (s.settle
        (s.setHeat f { h with approval := some { granted := s.time, minutes := minutes.toNat } }) Causes.none)

/-- REVOKE (R69). -/
def State.itemRevoke (s : State) (furnace : Byte) : ItemOut :=
  s.onFurnace furnace fun f => .ok (s.settle (s.voidApproval f) Causes.none)

/-- The latest tilt angle of a furnace is above tilt home, or its tilt point is stale (R117, R175). -/
def State.tiltUnsafe (s : State) (f : Furnace) : Bool :=
  (match s.taps.tilt[f] with
    | some a => decide (s.mgmt.params.tiltHome < a)
    | none => false)
    || s.intake.stale.tilt[f]

/-- A FOLLOW lockout stands while the inverter still delivers (R117, step 3). -/
def State.stillDelivers (s : State) (f : Furnace) : Bool :=
  decide (s.heats[f].lockout = some .follow)
    && (match s.power[f].actual with
        | some a => decide ((s.profile f).tolerance < a)
        | none => false)

/-- RESET FURNACE (R117). -/
def State.itemResetFurnace (s : State) (furnace : Byte) : ItemOut :=
  s.onFurnace furnace fun f =>
    if s.tiltUnsafe f then .plain s .state
    else if s.stillDelivers f then .plain s .state
    else
      let s' := s.setHeat f { s.heats[f] with lockout := none }
      .ok (s.settle ((s'.unlatch .followFault (numberOf f)).unlatch .tiltFault (numberOf f)) Causes.none)

/-! ### Circuits (R147) -/

/-- RESET CIRCUIT. -/
def State.itemResetCircuit (s : State) (circuit : Byte) : ItemOut :=
  match circuitOf circuit.toNat with
  | none => .plain s .range
  | some c =>
    let s' := s.unlatch .circuitTrip (numberOf c)
    if s.circuits[c].state = .trip then
      if (s.firstCause c).isSome then .plain s .state
      else .ok (s.settle (s'.restartCircuit c) Causes.none)
    else .ok s'

/-! ### Watchdog and run state (R177 to R184) -/

/-- WD START (R177). -/
def State.itemWdStart (s : State) : ItemOut :=
  match s.watch.state with
  | .stopped | .paused => .ok (s.settle s.enterExpectA Causes.none)
  | .expectA | .expectB | .expired => .plain s .state

/-- A taken heartbeat: the other token is expected, and the timer restarts (R178). -/
def State.beat (s : State) : State :=
  match s.watch.state with
  | .expectA => s.withWatch { s.watch with state := .expectB, expected := .b, timer := .running s.time }
  | .expectB => s.withWatch { s.watch with state := .expectA, expected := .a, timer := .running s.time }
  | .stopped | .paused | .expired => s

/-- HEARTBEAT (R178). -/
def State.itemHeartbeat (s : State) (token : BitVec 16) : ItemOut :=
  if s.watch.state.expecting then
    if token.toNat = s.expectedToken then .ok s.beat else .plain (s.settle s.enterExpired Causes.none) .state
  else .plain s .state

/-- WD PAUSE (R180). -/
def State.itemWdPause (s : State) : ItemOut :=
  if !s.watch.state.expecting then .plain s .state
  else if furnaces.any (fun f => decide (0 < s.power[f].ordered)) then .plain s .state
  else .ok (s.settle (s.withWatch { s.watch with state := .paused, timer := .idle }) Causes.none)

/-- WD FORCE (R181). -/
def State.itemWdForce (s : State) : ItemOut :=
  match s.watch.state with
  | .stopped | .expectA | .expectB | .paused => .ok (s.settle s.enterExpired Causes.none)
  | .expired => .plain s .state

/-- WD RESTART (R181). -/
def State.itemWdRestart (s : State) : ItemOut :=
  match s.watch.state with
  | .expired => .ok (s.settle (s.enterExpectA.unlatch .watchdogExpired 0) Causes.none)
  | .stopped | .expectA | .expectB | .paused => .plain s .state

/-- ALL STOP (R183). -/
def State.itemAllStop (s : State) (broadcast : Bool) (source : Byte) : ItemOut :=
  match s.watch.run with
  | .run => .ok (s.settle (s.enterAllStop (if broadcast then .broadcast else .addressed) source) Causes.none)
  | .allStop => .ok s

/-- RESUME (R184). -/
def State.itemResume (s : State) : ItemOut :=
  if s.watch.run = .run then .plain s .state
  else if s.contacts.ind.estop then .plain s .state
  else .ok (s.settle ((s.withWatch { s.watch with run := .run }).unlatch .allStop 0) Causes.none)

/-! ### Taps (R160) -/

/-- HOLD TAPS. -/
def State.itemHoldTaps (s : State) : ItemOut := .ok (s.withTaps { s.taps with held := true })

/-- RELEASE TAPS. -/
def State.itemReleaseTaps (s : State) : ItemOut :=
  if s.taps.held then
    .ok (s.settle (s.withTaps { s.taps with held := false }) { permit := [], attempt := true })
  else .ok s

/-! ### Contacts (R48, R52) -/

/-- The snapshot's fields as they are sent (R49, R211). -/
def encSnapshot (x : Snapshot) : List Byte := bytes16 x.levels ++ bytes32 x.time ++ enc8 x.input.val

/-- ACK CHANGE (R48). -/
def State.itemAckChange (s : State) : ItemOut :=
  let c := s.contacts
  let s' := (s.withContacts { c with changePending := false, overrun := false }).unlatch .changeOverrun 0
  s.answer s' (encOpt 7 encSnapshot c.snapshot ++ encFlag c.changePending ++ encFlag c.overrun)

/-- The output of a number 0 to 7. -/
def outputOf (n : Nat) : Option OutputNo := if h : n < 8 then some ⟨n, h⟩ else none

/-- SET OUTPUT (R52). -/
def State.itemSetOutput (s : State) (output level : Byte) : ItemOut :=
  match outputOf output.toNat with
  | none => .plain s .range
  | some o =>
    let e := s.output o
    if 1 < level.toNat then .plain s .range
    else if e.function ≠ fnManual then .plain s .state
    else if s.watch.state = .expired ∧ (e.mode = modeHold ∨ e.mode = modeSafe) then .plain s .state
    else
      .ok (s.withContacts { s.contacts with commanded := s.contacts.commanded.set o (decide (level = 1)) }).driveOutputs

/-! ### Conditions and counters (R199, R201) -/

/-- The kind of a condition kind code. -/
def kindOf : Nat → Option Kind
  | 1 => some .allStop
  | 2 => some .circuitTrip
  | 3 => some .followFault
  | 4 => some .tiltFault
  | 5 => some .watchdogExpired
  | 6 => some .stale
  | 7 => some .tapAbort
  | 8 => some .validationFailed
  | 9 => some .overheld
  | 10 => some .changeOverrun
  | 11 => some .dipLow
  | 12 => some .overcharge
  | 13 => some .chargeRefused
  | 14 => some .loopDown
  | 15 => some .mgmtOverrun
  | _ => none

/-- The informational kinds (R197). -/
def Kind.informational : Kind → Bool
  | .stale | .tapAbort | .validationFailed | .overheld | .dipLow | .overcharge | .chargeRefused | .loopDown
  | .mgmtOverrun => true
  | .allStop | .circuitTrip | .followFault | .tiltFault | .watchdogExpired | .changeOverrun => false

/-- CLEAR CONDITION (R199). -/
def State.itemClearCondition (s : State) (kind subject : Byte) : ItemOut :=
  match kindOf kind.toNat with
  | none => .plain s .range
  | some k =>
    if !k.informational then .plain s .state
    else if !s.isLatched k subject.toNat then .plain s .absent
    else .ok (s.unlatch k subject.toNat)

/-- CLEAR COUNTERS (R201). -/
def State.itemClearCounters (s : State) : ItemOut :=
  let s := s.withLoop { s.loop with counters := LoopCounters.zero }
  let s := s.withIntakeCounters IntakeCounters.zero
  .ok ({ s with orderClamps := 0 }.withTaps { s.taps with malformed := 0 })

end Sys2Proof.Machine
end

