-- ==== Sys2Proof/Machine/Reads.lean ====
section
/-! DEFINITION. The read records (R200) and their parts (R205): each record is a list of fields, none of which is ever
cut. The layout choices that R205 leaves open are in log entry 15. -/

namespace Sys2Proof.Machine

/-! ### Parts (R205) -/

/-- Fields laid one after another into parts, `room` bytes at most in the first and 36 in every later one (40 less the
4 of the time): a field that would pass the end begins the next part. -/
def packParts : Nat → List Byte → List (List Byte) → List (List Byte)
  | _, cur, [] => [cur]
  | room, cur, x :: rest =>
    if cur.length + x.length ≤ room then packParts room (cur ++ x) rest else cur :: packParts 36 x rest

/-- The parts of a record without their times: part 0 has 35 bytes of room, since it carries the number of parts. -/
def recordParts (fields : List (List Byte)) : List (List Byte) := packParts 35 [] fields

/-- One part of a record as it is sent; none at or above the number of parts. -/
def recordPart (now : Time) (fields : List (List Byte)) (part : Nat) : Option (List Byte) :=
  let parts := recordParts fields
  match parts[part]? with
  | none => none
  | some b => some (bytes32 now ++ (if part = 0 then enc8 parts.length else []) ++ b)

/-- A read command past its own refusals (R200, steps 2 to 4). -/
def State.readPart (s : State) (fields : List (List Byte)) (part : Byte) : ItemOut :=
  match recordPart s.time fields part.toNat with
  | none => .plain s .range
  | some b => s.answer s b

/-- A list: its count byte, then its entries (R205). -/
def encList {α : Type} (enc : α → List Byte) (l : List α) : List (List Byte) := enc8 l.length :: l.map enc

/-! ### Enumerations, counted from 0 in the order their rules name them (R205) -/

/-- A timer's state. -/
def Timer.code : Timer → Nat
  | .idle => 0
  | .running _ => 1

/-- A fixed timer's state. -/
def FixedTimer.code : FixedTimer → Nat
  | .idle => 0
  | .running _ _ => 1

/-- The state of a hold timer or a dip-age timer. -/
def Lapse.code : Lapse → Nat
  | .idle => 0
  | .running => 1
  | .expired => 2

/-- A start timer's state. -/
def StartTimer.code : StartTimer → Nat
  | .idle => 0
  | .running _ => 1
  | .expired => 2

/-- A phase. -/
def Phase.code : Phase → Nat
  | .empty => 0
  | .melting => 1
  | .superheat => 2
  | .holding => 3
  | .tapAssigned => 4
  | .tapping => 5

/-- A lockout's cause. -/
def Lockout.code : Lockout → Nat
  | .follow => 0
  | .tilt => 1

/-- A band position. -/
def Position.code : Position → Nat
  | .low => 0
  | .inBand => 1
  | .high => 2

/-- A basis. -/
def Basis.code : Basis → Nat
  | .temperature => 0
  | .uncertain => 1
  | .tpAbsent => 2

/-- A circuit state. -/
def CircuitState.code : CircuitState → Nat
  | .disabled => 0
  | .starting => 1
  | .normal => 2
  | .alert => 3
  | .derate => 4
  | .trip => 5

/-- A level of the flow, the return or the rise; the pressure has OK and TRIP alone (R135). -/
def Level.code : Level → Nat
  | .ok => 0
  | .warn => 1
  | .derate => 2
  | .trip => 3

/-- A level of the pressure. -/
def Level.pressureCode : Level → Nat
  | .trip => 1
  | .ok | .warn | .derate => 0

/-- A cooling kind, by the code of its point kind, which R213's table fixes (R205). -/
def CoolingKind.code : CoolingKind → Nat
  | .flow => 7
  | .supply => 8
  | .ret => 9
  | .pressure => 10

/-- A trip cause: LEAK, FLOW_SWITCH, FLOW, RETURN, RISE, PRESSURE, STALE. -/
def TripCause.code : TripCause → Nat
  | .leak => 0
  | .flowSwitch => 1
  | .quantity .flow => 2
  | .quantity .ret => 3
  | .quantity .rise => 4
  | .quantity .pressure => 5
  | .stale _ => 6

/-- The cooling kind a STALE cause names. -/
def TripCause.kind : TripCause → Option CoolingKind
  | .stale k => some k
  | .leak | .flowSwitch | .quantity _ => none

/-- A pour station state. -/
def Station.code : Station → Nat
  | .idle => 0
  | .assigned => 1
  | .permitted => 2
  | .pouring => 3
  | .returning => 4

/-- A validation's outcome. -/
def Verdict.code : Verdict → Nat
  | .none => 0
  | .passed => 1
  | .failed => 2
  | .abandoned => 3

/-- A failed validation's cause. -/
def FailCause.code : FailCause → Nat
  | .badKind => 0
  | .badOwner => 1
  | .badRange => 2
  | .duplicateKey => 3
  | .missingPoint => 4
  | .badReference => 5

/-- A watchdog state. -/
def WatchState.code : WatchState → Nat
  | .stopped => 0
  | .expectA => 1
  | .expectB => 2
  | .paused => 3
  | .expired => 4

/-- An expected token, sent as the one of A and B that it names (R176), not as its two-byte value (log entry 15). -/
def Token.code : Token → Nat
  | .a => 0
  | .b => 1

/-- The shop run state. -/
def Run.code : Run → Nat
  | .run => 0
  | .allStop => 1

/-- A stop cause. -/
def StopCause.code : StopCause → Nat
  | .estop => 0
  | .addressed => 1
  | .broadcast => 2

/-- The loop-down live state. -/
def Live.code : Live → Nat
  | .up => 0
  | .down => 1

/-! ### READ FURNACE (R78, R120, R131, R173) -/

/-- The age of a time (R78). -/
def encAge (now t : Time) : List Byte := enc32 (age now t)

/-- A dip record: the temperature and the age. -/
def encDip (now : Time) (d : Dip) : List Byte := encS16 d.temp ++ encAge now d.time

/-- An approval: its minutes, and the milliseconds before it expires. -/
def encApproval (now : Time) (a : Approval) : List Byte :=
  enc8 a.minutes ++ enc32 (remaining now a.granted (a.minutes * 60000))

/-- The four bands. -/
def encBands (b : Bands) : List Byte := encS16 b.holdLow ++ encS16 b.holdHigh ++ encS16 b.tapLow ++ encS16 b.tapHigh

/-- The fields of a heat record (R78). -/
def heatFields (now : Time) (h : Heat) : List (List Byte) :=
  [encOpt 4 enc32 h.id, enc8 h.phase.code, enc32 h.mass, enc32 h.energy, enc16 h.residue, encOpt 2 enc16 h.progress,
    encOpt 2 encS16 h.temp, encFlag h.uncertain, encOpt 6 (encDip now) h.dip, encOpt 4 (encAge now) h.anchor,
    encOpt 5 (encApproval now) h.approval, encOpt 8 encBands h.bands, encOpt 4 (encAge now) h.holdStart,
    enc8 h.holdTimer.code, encOpt 1 (fun l => enc8 (Lockout.code l)) h.lockout]

/-- The milliseconds left to a RUNNING timer of a limit. -/
def Timer.left (now : Time) (ms : Nat) : Timer → Option Nat
  | .idle => none
  | .running t => some (remaining now t ms)

/-- The fields of a furnace's power state and of the supply (R120). -/
def State.powerFields (s : State) (f : Furnace) : List (List Byte) :=
  let x := s.power[f]
  [enc16 x.ordered, enc16 x.demand, enc16 x.grant, enc16 x.issued, enc8 (s.derate f),
    encOpt 1 enc8 (s.heats[f].phase).class, encOpt 2 enc16 x.actual, enc8 x.ramp.code, enc8 x.refresh.code,
    enc8 x.follow.code, encOpt 4 enc32 (x.follow.left s.time (s.profile f).followWindow), enc32 s.availablePower,
    enc32 s.grantSum, enc32 s.issuedSum]

/-- The fields of a furnace's holding state (R131). -/
def holdingFields (now : Time) (h : Holding) : List (List Byte) :=
  [encOpt 1 (fun p => enc8 (Position.code p)) h.position, encOpt 1 (fun b => enc8 (Basis.code b)) h.basis,
    encOpt 2 encS16 h.compared, enc16 h.level, encOpt 4 (encAge now) h.since]

/-- The READ FURNACE record. -/
def State.furnaceRecord (s : State) (f : Furnace) : List (List Byte) :=
  heatFields s.time s.heats[f] ++ s.powerFields f ++ holdingFields s.time s.holding[f]
    ++ [enc8 (s.taps.dipAge[f]).code]

/-- READ FURNACE. -/
def State.itemReadFurnace (s : State) (furnace part : Byte) : ItemOut :=
  s.onFurnace furnace fun f => s.readPart (s.furnaceRecord f) part

/-! ### READ CIRCUIT (R152) -/

/-- The seven flags of the trip causes present. -/
def State.causeFlags (s : State) (c : CircuitNo) : List (List Byte) :=
  [encFlag (s.causePresent c .leak), encFlag (s.causePresent c .flowSwitch),
    encFlag (s.causePresent c (.quantity .flow)), encFlag (s.causePresent c (.quantity .ret)),
    encFlag (s.causePresent c (.quantity .rise)), encFlag (s.causePresent c (.quantity .pressure)),
    encFlag ([CoolingKind.flow, .supply, .ret, .pressure].any fun k => s.causePresent c (.stale k))]

/-- A trip record in the order of R135 and R143: its cause, the kind of a STALE cause after it, its time as an age (R152),
and the sample value of a quantity cause in four bytes (log entry 15). -/
def encTrip (now : Time) (t : TripRec) : List Byte :=
  enc8 t.cause.code ++ encOpt 1 (fun k => enc8 (CoolingKind.code k)) t.cause.kind ++ encAge now t.time
    ++ encOpt 4 encS32 t.value

/-- The beyond counts of a quantity with three thresholds, in the order warn, derate, trip (log entry 15). -/
def Quantity.beyondFields (q : Quantity) : List (List Byte) := [enc8 q.warnCount, enc8 q.derateCount, enc8 q.tripCount]

/-- The milliseconds left to a RUNNING start timer. -/
def StartTimer.left (now : Time) (ms : Nat) : StartTimer → Option Nat
  | .running t => some (remaining now t ms)
  | .idle | .expired => none

/-- The furnaces whose active profile names a circuit in a field. -/
def State.naming (s : State) (c : CircuitNo) (field : Profile → Byte) : List Furnace :=
  furnaces.filter fun f => decide ((field (s.profile f)).toNat = numberOf c)

/-- The READ CIRCUIT record. The model's own (log entry 15): the beyond counts stand quantity by quantity (flow, return,
rise, pressure) before the four recovery counts, and the last evaluated values are engineering values of four bytes, the
return and the rise with them. -/
def State.circuitRecord (s : State) (c : CircuitNo) : List (List Byte) :=
  let x := s.circuits[c]
  [enc8 x.state.code, enc8 x.flow.level.code, enc8 x.ret.level.code, enc8 x.rise.level.code,
      enc8 x.pressure.level.pressureCode]
    ++ x.flow.beyondFields ++ x.ret.beyondFields ++ x.rise.beyondFields ++ [enc8 x.pressure.tripCount]
    ++ [enc8 x.flow.recovery, enc8 x.ret.recovery, enc8 x.rise.recovery, enc8 x.pressure.recovery]
    ++ [encOpt 4 encS32 x.flow.last, encOpt 4 encS32 x.ret.last, encOpt 4 encS32 x.rise.last,
      encOpt 4 encS32 x.pressure.last]
    ++ s.causeFlags c
    ++ [enc8 x.start.code, encOpt 4 enc32 (x.start.left s.time ((s.cooling c).startWindow * 1000)),
      encOpt 12 (encTrip s.time) x.trip, encFlag x.water, enc8 (s.circuitDerate c)]
    ++ encList (fun f : Furnace => enc8 (numberOf f)) (s.naming c (·.coil))
    ++ encList (fun f : Furnace => enc8 (numberOf f)) (s.naming c (·.cabinet))

/-- READ CIRCUIT. -/
def State.itemReadCircuit (s : State) (circuit part : Byte) : ItemOut :=
  match circuitOf circuit.toNat with
  | none => .plain s .range
  | some c => s.readPart (s.circuitRecord c) part

/-! ### READ POINT (R32) -/

/-- The READ POINT record of a used entry and its live state. -/
def pointFields (now : Time) (e : PointEntry) (l : PointLive) : List (List Byte) :=
  [[e.station], [e.channel], [e.kindCode], [e.owner], encOpt 4 encS32 l.value, encOpt 1 (fun b => [b]) l.seq,
    encOpt 4 (encAge now) l.accepted, encFlag l.clampedLast, encFlag l.questionableLast, encFlag l.stale]

/-- The point of a number 0 to 127. -/
def pointOf (n : Nat) : Option PointNo := if h : n < 128 then some ⟨n, h⟩ else none

/-- READ POINT. A used entry always has live state; one without it reads as a point that has just come into being. -/
def State.itemReadPoint (s : State) (point part : Byte) : ItemOut :=
  match pointOf point.toNat with
  | none => .plain s .range
  | some i =>
    if (s.point i).used then
      s.readPart (pointFields s.time (s.point i) ((s.intake.live[i]).getD (PointLive.fresh s.time))) part
    else .plain s .absent

/-! ### READ QUEUES (R173) -/

/-- A demand's fields. -/
def encDemand (d : Demand) : List Byte := [d.id] ++ enc32 d.mass ++ encS16 d.low ++ encS16 d.high

/-- A pour station record's fields. -/
def encPour (r : Pour) : List Byte :=
  encDemand r.demand ++ enc8 (numberOf r.furnace) ++ encOpt 1 (fun b => [b]) r.drive ++ encOpt 4 enc32 r.tare
    ++ enc32 r.poured ++ encFlag r.abort

/-- The milliseconds left to a RUNNING fixed timer. -/
def FixedTimer.left (now : Time) : FixedTimer → Option Nat
  | .idle => none
  | .running t ms => some (remaining now t ms)

/-- A timer's state, and the milliseconds left while RUNNING. -/
def FixedTimer.fields (now : Time) (t : FixedTimer) : List (List Byte) := [enc8 t.code, encOpt 4 enc32 (t.left now)]

/-- The READ QUEUES record. -/
def State.queuesRecord (s : State) : List (List Byte) :=
  let t := s.taps
  encList (fun r : Ready => enc8 (numberOf r.furnace) ++ encAge s.time r.since) t.ready
    ++ encList encDemand t.queue
    ++ [enc8 t.station.code, encOpt 22 encPour t.pour]
    ++ t.tiltStart.fields s.time ++ t.pourTimer.fields s.time ++ t.returnTimer.fields s.time
    ++ [encFlag t.held, encOpt 4 enc32 t.ladle]
    ++ furnaces.map fun f => encOpt 2 enc16 t.tilt[f]

/-- READ QUEUES. -/
def State.itemReadQueues (s : State) (part : Byte) : ItemOut := s.readPart s.queuesRecord part

/-! ### READ CONDITIONS (R39, R49, R185, R200) -/

/-- A validator's state. -/
def Validator.code (v : Validator) : Nat := if v.validating.isSome then 1 else 0

/-- The validator's state and record (R39). -/
def validatorFields (v : Validator) : List (List Byte) :=
  [enc8 v.code, enc8 v.outcome.code, encOpt 1 (fun t => enc8 (TableNo.number t)) v.table,
    encOpt 1 (fun x : FailCause × Nat => enc8 x.1.code) v.failure, encOpt 1 (fun x : FailCause × Nat => enc8 x.2) v.failure]

/-- The contact unit's state (R49). -/
def contactFields (c : Contacts) : List (List Byte) :=
  [bytes16 (levelWord c.raw), bytes16 (levelWord c.filtered), enc8 (levelBits c.driven.toList), encFlag c.changePending,
    encFlag c.overrun, encOpt 7 encSnapshot c.snapshot]

/-- A stop record. -/
def encStop (now : Time) (x : StopRec) : List Byte := enc8 x.cause.code ++ [x.number] ++ encAge now x.time

/-- The watchdog and run state (R185). -/
def State.watchFields (s : State) : List (List Byte) :=
  let w := s.watch
  [enc8 w.state.code, enc8 w.expected.code, encOpt 4 enc32 (w.timer.left s.time s.mgmt.params.watchdogTimeout),
    enc8 w.expiries, enc8 w.run.code, encFlag s.contacts.ind.estop, encOpt 6 (encStop s.time) w.stop]

/-- A pair of the latched-condition set. -/
def encLatched (x : Latched) : List Byte := enc8 x.kind.code ++ enc8 x.subject ++ bytes32 x.time

/-- The READ CONDITIONS record. One count byte is both the number of pairs R200 names and the count of the list of the
pairs (R205; log entry 15). -/
def State.conditionsRecord (s : State) : List (List Byte) :=
  [encFlag s.mgmt.locked] ++ validatorFields s.mgmt.validator ++ contactFields s.contacts ++ s.watchFields
    ++ encList encLatched s.mgmt.latched

/-- READ CONDITIONS. -/
def State.itemReadConditions (s : State) (part : Byte) : ItemOut := s.readPart s.conditionsRecord part

/-! ### READ COUNTERS (R18, R19, R33, R120, R173) -/

/-- The READ COUNTERS record. -/
def State.countersRecord (s : State) : List (List Byte) :=
  let l := s.loop.counters
  let i := s.intake.counters
  [enc32 l.valid, enc32 l.bad, enc32 l.hopExpired, enc32 l.stripped, enc32 l.rejectedMgmt, enc32 l.mgmtOverrun,
    enc32 l.rejectedDemands, enc32 l.foreignOrders, enc32 l.transitOverrun, enc32 l.reportDrops, enc32 l.statusDrops,
    enc32 l.transmitted, enc32 i.unmatched, enc32 i.duplicates, enc32 i.clamped, enc32 i.shortBodies,
    enc32 s.orderClamps, enc32 s.taps.malformed, enc8 s.loop.live.code, bytes32 s.loop.lastValid]

/-- READ COUNTERS. -/
def State.itemReadCounters (s : State) (part : Byte) : ItemOut := s.readPart s.countersRecord part

end Sys2Proof.Machine
end

