-- ==== Sys2Proof/Machine/Restart.lean ====
section
/-! DEFINITION. RESTART and the warm restart (R202, with R20, R42, R55, R79, R122, R132, R153, R175 and R186), and the
reply of a MGMT frame (R188, R212). What a rule keeps is not mentioned here: it stays as it is. -/

namespace Sys2Proof.Machine

/-! ### The reply (R188, R212) -/

/-- The code of a result. -/
def Result.code : Result → Nat
  | .ok => 0
  | .busy => 1
  | .invalid => 2
  | .range => 3
  | .state => 4
  | .locked => 5
  | .absent => 6
  | .skipped => 7

/-- The results as half-bytes, the first in the high half; Fh fills the last byte of an odd count. -/
def halfBytes : List Result → List Byte
  | [] => []
  | [a] => enc8 (a.code * 16 + 15)
  | a :: b :: rest => enc8 (a.code * 16 + b.code) ++ halfBytes rest

/-- The body of the reply to the frame of a sequence. -/
def replyBody (seq : Byte) (f : ItemFrame) : List Byte :=
  [seq] ++ enc8 f.results.length ++ halfBytes f.results ++ f.data

/-- The reply of the frame under execution is placed for the station that sent it (R6, R14, R188). -/
def State.placeReplyTo (s : State) (dest seq : Byte) : State :=
  s.withLoop (s.loop.placeReply { dest := dest, body := replyBody seq s.mgmt.frame })

/-! ### The blocks' restart actions -/

/-- A validation in progress is abandoned with its table number kept (R42; log entry 21). -/
def Validator.abandon (v : Validator) : Validator :=
  match v.validating with
  | some t => { validating := none, outcome := .abandoned, table := some t, failure := none }
  | none => v

/-- The management unit's steps 1 to 4 (R202, R42): a validation in progress is abandoned, the selection and the latch
go, the parameters of an UNLOCKED unit return to their defaults, the set is emptied. -/
def State.restartMgmt (s : State) : State :=
  let m := s.mgmt
  s.withMgmt { m with
    validator := m.validator.abandon, selection := none, latch := 0, params := if m.locked then m.params else Params.default, latched := [] }

/-- The loop port (R20; log entry 27). -/
def State.restartLoop (s : State) : State :=
  s.withLoop { s.loop with
    orders := Vector.replicate 6 none, permits := Vector.replicate 6 none, reports := [], statuses := [],
    turn := .transit, live := .up, lastValid := s.time, counters := LoopCounters.zero }

/-- The contact unit (R55). -/
def State.restartContacts (s : State) : State :=
  s.withContacts { s.contacts with changePending := false, overrun := false, snapshot := none }

/-- The watchdog and the run state (R186): ALL_STOP is kept while the ESTOP indication is on. -/
def State.restartWatch (s : State) : State :=
  s.withWatch { s.watch with
    state := .stopped, expected := .a, timer := .idle,
    run := if s.watch.run = .allStop ∧ s.contacts.ind.estop = true then .allStop else .run }

/-- The allocator (R122): every O, G and I is 0, and the zeros are placed. -/
def State.restartPower (s : State) : State :=
  let power := s.power.map fun x : Power =>
    { x with ordered := 0, demand := 0, grant := 0, issued := 0, ramp := .idle, follow := .idle }
  { s with power := power, orderClamps := 0 }.placeZeros

/-- The accounting of a pour in flight (R175): steps 2 to 4 of R165, and a TILT lockout for a furnace that is not
known to be home. -/
def State.restartAccount (s : State) (r : Pour) : State :=
  let s' := s.pourOff r.furnace (s.finalMass r)
  if s.tiltUnsafe r.furnace then s'.lockTilt r.furnace else s'

/-- The heat of the furnace at the station (R175). -/
def State.restartStation (s : State) : State :=
  match s.taps.station, s.taps.pour with
  | .pouring, some r | .returning, some r => s.restartAccount r
  | .assigned, some r | .permitted, some r => s.setHeat r.furnace { s.heats[r.furnace] with phase := .holding }
  | _, _ => s

/-- The withdrawal of an outstanding permit (R175). -/
def State.restartPermit (s : State) : State :=
  match s.taps.station, s.taps.pour with
  | .permitted, some r | .pouring, some r => s.withdraw r
  | _, _ => s

/-- The tap coordinator (R175; log entry 19). -/
def State.restartTaps (s : State) : State :=
  let s := s.restartPermit.restartStation
  let s := s.withTaps { s.taps with
    queue := [], station := .idle, pour := none, tiltStart := .idle, pourTimer := .idle, returnTimer := .idle,
    ready := [], held := false, malformed := 0 }
  s.placeStatus .cleared none none none

/-- The raise that a furnace's kept lockout brings again (R202, step 5). -/
def State.reraiseLockout (s : State) (f : Furnace) : State :=
  match s.heats[f].lockout with
  | some .follow => s.raise .followFault (numberOf f)
  | some .tilt => s.raise .tiltFault (numberOf f)
  | none => s

/-- The pairs whose causes persist are raised again (R202, step 5). -/
def State.reraise (s : State) : State :=
  let s := if s.watch.run = .allStop then s.raise .allStop 0 else s
  let s := circuitNos.foldl
    (fun s c => if s.circuits[c].state = .trip then s.raise .circuitTrip (numberOf c) else s) s
  furnaces.foldl (fun s f => s.reraiseLockout f) s

/-- A warm restart, in the order of log entry 12. -/
def State.warmRestart (s : State) : State :=
  let s := s.restartMgmt.restartLoop
  let s := s.withIntakeCounters IntakeCounters.zero
  let s := s.restartContacts.restartWatch.restartPower.restartTaps
  let s := s.compareAll.remake.waterTests
  s.reraise.driveOutputs

/-- RESTART's own part of its frame (R202): it is OK, and every item after it is SKIPPED. -/
def State.restartResults (s : State) : State :=
  let f := s.mgmt.frame
  let results := f.results ++ [Result.ok]
  s.withMgmt { s.mgmt with
    frame := { f with results := results ++ List.replicate (f.items - results.length) .skipped } }

/-- RESTART in an addressed frame: the reply is placed, and the warm restart follows. -/
def State.restartCommand (s : State) (source seq : Byte) : State :=
  (s.restartResults.placeReplyTo source seq).warmRestart

end Sys2Proof.Machine
end

