-- ==== Sys2Proof/Machine/Frame.lean ====
section
/-! DEFINITION. The arrival of a frame (spec/01, 1.2 to 1.4): validity, the hop test, stripping and classification, and
the execution of a MGMT frame's items (R187, R188). -/

namespace Sys2Proof.Machine

/-! ### The items of a MGMT frame (R188) -/

/-- A command item's effect, by the command that its bytes spell. RESTART ends its frame (`State.runItems`), and an
event is spelled by no item. -/
def State.runCommand (s : State) : Instr → ItemOut
  | .selectTable _ t c o => s.itemSelectTable t c o
  | .readTable _ n => s.itemReadTable n
  | .commitTable _ t => s.itemCommitTable t
  | .reloadStaging _ => s.itemReloadStaging
  | .setParameter _ n v => s.itemSetParameter n v
  | .readParameter _ n => s.itemReadParameter n
  | .lock _ => s.itemLock
  | .unlock _ => s.itemUnlock
  | .openHeat _ f i => s.itemOpenHeat f i
  | .drain _ f => s.itemDrain f
  | .setMass _ f m => s.itemSetMass f m
  | .setBand _ f a b c d => s.itemSetBand f a b c d
  | .approve _ f i m => s.itemApprove f i m
  | .revoke _ f => s.itemRevoke f
  | .resetCircuit _ c => s.itemResetCircuit c
  | .resetFurnace _ f => s.itemResetFurnace f
  | .wdStart _ => s.itemWdStart
  | .heartbeat _ t => s.itemHeartbeat t
  | .wdPause _ => s.itemWdPause
  | .wdForce _ => s.itemWdForce
  | .wdRestart _ => s.itemWdRestart
  | .allStop _ b src => s.itemAllStop b src
  | .resume _ => s.itemResume
  | .holdTaps _ => s.itemHoldTaps
  | .releaseTaps _ => s.itemReleaseTaps
  | .ackChange _ => s.itemAckChange
  | .setOutput _ o l => s.itemSetOutput o l
  | .clearCondition _ k n => s.itemClearCondition k n
  | .readFurnace _ f p => s.itemReadFurnace f p
  | .readCircuit _ c p => s.itemReadCircuit c p
  | .readPoint _ n p => s.itemReadPoint n p
  | .readQueues _ p => s.itemReadQueues p
  | .readConditions _ p => s.itemReadConditions p
  | .readCounters _ p => s.itemReadCounters p
  | .clearCounters _ => s.itemClearCounters
  | .tableData _ b => s.itemTableData b
  | .restart _ _ _ | .coldReset _ _ _ | .frameArrival _ _ | .linkCompletion _ | .validationComplete _
  | .rawLevelChange _ _ _ | .persistenceTimerExpiry _ _ | .staleTimerExpiry _ _ | .loopSilenceExpiry _
  | .approvalTimerExpiry _ _ | .holdTimerExpiry _ _ | .rampTimerExpiry _ _ | .refreshTimerExpiry _ _
  | .followTimerExpiry _ _ | .startTimerExpiry _ _ | .dipAgeTimerExpiry _ _ | .tiltStartTimerExpiry _
  | .pourTimerExpiry _ | .returnTimerExpiry _ | .watchdogTimerExpiry _ | .resetPinHeldLow => .plain s .invalid

/-- An item is INVALID, and every one of the `rest` items after it is SKIPPED (R188). -/
def State.stopItems (s : State) (rest : Nat) : State :=
  let f := s.mgmt.frame
  s.withMgmt { s.mgmt with frame := { f with results := f.results ++ .invalid :: List.replicate rest .skipped } }

/-- The items of a frame are executed in order. The answer says whether a RESTART has placed the reply and ended the
frame. -/
def State.runItems (source seq : Byte) (broadcast : Bool) : List MgmtItem → State → State × Bool
  | [], s => (s, false)
  | .truncated :: rest, s => (s.stopItems rest.length, false)
  | .data bytes :: rest, s => State.runItems source seq broadcast rest (s.itemTableData bytes).recorded
  | .command bytes :: rest, s =>
    match decodeCommand source seq broadcast bytes with
    | none => (s.stopItems rest.length, false)
    | some (.restart _ _ _) => (s.restartCommand source seq, true)
    | some i => State.runItems source seq broadcast rest (s.runCommand i).recorded

/-- An addressed MGMT frame is executed and answered (R6, R188). -/
def State.mgmtFrame (s : State) (source seq : Byte) (body : List Byte) : State :=
  let items := divide body
  let r := State.runItems source seq false items (s.openFrame items.length)
  if r.2 then r.1 else r.1.placeReplyTo source seq

/-- An item is the command ALL STOP. -/
def MgmtItem.isAllStop (x : MgmtItem) : Bool := decide (x = .command [0x28])

/-- A broadcast MGMT frame is executed, without a reply, when its every item is ALL STOP (R7). -/
def State.broadcastFrame (s : State) (source seq : Byte) (body : List Byte) : State :=
  let items := divide body
  if items.all (·.isAllStop) then (State.runItems source seq true items (s.openFrame items.length)).1 else s

/-! ### Reception (R2) -/

/-- A valid frame's header and body. -/
structure Frame where
  dest : Byte
  source : Byte
  kind : Byte
  hop : Byte
  seq : Byte
  body : List Byte
  deriving DecidableEq, Repr

/-- The receiver stores at most 56 bytes and marks what is longer. -/
def Receiver.store (bytes : List Byte) : Receiver :=
  { bytes := bytes.take 56, overLong := decide (56 < bytes.length) }

/-- The receiver between two frames. -/
def Receiver.empty : Receiver := { bytes := [], overLong := false }

/-- The valid frame that a receiver holds; none when it is bad. -/
def Receiver.frame (r : Receiver) : Option Frame :=
  match r.bytes with
  | dest :: source :: kind :: hop :: seq :: len :: rest =>
    let covered := [dest, source, kind, hop, seq, len] ++ rest.take len.toNat
    if r.overLong = false ∧ len.toNat ≤ 48 ∧ rest.length = len.toNat + 2 ∧ r.bytes = withCheck covered ∧ dest ≠ 0 then
      some { dest := dest, source := source, kind := kind, hop := hop, seq := seq, body := rest.take len.toNat }
    else none
  | _ => none

/-! ### Classification (R3 to R11) -/

/-- The state with other loop counters. -/
def State.countLoop (s : State) (x : LoopCounters) : State := s.withLoop { s.loop with counters := x }

/-- The frame as it is forwarded: its hop one less, its check recomputed (R3). -/
def Frame.forwarded (f : Frame) : List Byte := buildFrame f.dest f.source f.kind (f.hop - 1) f.seq f.body

/-- A frame is placed in the transit FIFO (R3, R12). -/
def State.forward (s : State) (f : Frame) : State := s.withLoop (s.loop.placeTransit f.forwarded)

/-- A filter parameter admits a source: 0 admits every one (R6, R8, R9). -/
def admits (param : Nat) (source : Byte) : Bool := decide (param = 0) || decide (source.toNat = param)

/-- A destination lies in the intercept window: it equals the base wherever the mask holds a 0; 255 never does (R9). -/
def Params.inWindow (p : Params) (dest : Byte) : Bool :=
  decide (dest ≠ 255)
    && decide ((dest ^^^ BitVec.ofNat 8 p.interceptBase) &&& ~~~(BitVec.ofNat 8 p.interceptMask) = 0)

/-- A MGMT frame fails the supervisor filter (R6, R7). -/
def State.rejectMgmt (s : State) : State :=
  s.countLoop { s.loop.counters with rejectedMgmt := bump s.loop.counters.rejectedMgmt }

/-- A MGMT frame finds the reply slot occupied (R6). -/
def State.overrunMgmt (s : State) : State :=
  (s.countLoop { s.loop.counters with mgmtOverrun := bump s.loop.counters.mgmtOverrun }).raise .mgmtOverrun 0

/-- A MGMT frame addressed to the part (R6). -/
def State.takeMgmt (s : State) (f : Frame) : State :=
  if !admits s.mgmt.params.supervisor f.source then s.rejectMgmt
  else if s.loop.reply.isSome then s.overrunMgmt
  else s.mgmtFrame f.source f.seq f.body

/-- A broadcast MGMT frame, which is forwarded in any case (R7; log entry 17). -/
def State.takeBroadcast (s : State) (f : Frame) : State :=
  let s := s.forward f
  if admits s.mgmt.params.supervisor f.source then s.broadcastFrame f.source f.seq f.body else s.rejectMgmt

/-- A DEMAND's body (R157, R208). -/
def State.takeDemand (s : State) (body : List Byte) : State :=
  match demandBody body with
  | some d => s.settle (s.demand d) Causes.none
  | none => s.malformed

/-- A CANCEL's body (R159, R208). -/
def State.takeCancel (s : State) (body : List Byte) : State :=
  match cancelBody body with
  | some i => s.settle (s.cancel i) Causes.none
  | none => s.malformed

/-- A DEMAND or CANCEL addressed to the part (R8). -/
def State.takePouring (s : State) (f : Frame) : State :=
  if !admits s.mgmt.params.pouringLine f.source then
    s.countLoop { s.loop.counters with rejectedDemands := bump s.loop.counters.rejectedDemands }
  else if f.kind = kindDemand then s.takeDemand f.body
  else s.takeCancel f.body

/-- An ORDER inside the intercept window (R9): looked up by its destination. -/
def State.takeOrder (s : State) (f : Frame) : State :=
  if admits s.mgmt.params.supervisor f.source then s.items f.dest f.seq true f.body
  else s.countLoop { s.loop.counters with foreignOrders := bump s.loop.counters.foreignOrders }

/-- A SAMPLE, which is forwarded and delivered (R10; log entry 17): looked up by its source. -/
def State.takeSample (s : State) (f : Frame) : State := (s.forward f).items f.source f.seq false f.body

/-- The classification of a frame that is not stripped (R6 to R11). -/
def State.classify (s : State) (f : Frame) : State :=
  if f.kind = kindMgmt then
    if f.dest = s.loop.station then s.takeMgmt f
    else if f.dest = 255 then s.takeBroadcast f
    else s.forward f
  else if f.kind = kindDemand ∨ f.kind = kindCancel then
    if f.dest = s.loop.station then s.takePouring f else s.forward f
  else if f.kind = kindOrder then
    if s.mgmt.params.inWindow f.dest then s.takeOrder f else s.forward f
  else if f.kind = kindSample then s.takeSample f
  else s.forward f

/-- A valid frame (R2, R3, R5, R18). -/
def State.validFrame (s : State) (f : Frame) : State :=
  let c := s.loop.counters
  let s := s.withLoop { s.loop with
    live := .up, lastValid := s.time, counters := { c with valid := bump c.valid } }
  if f.hop = 0 then s.countLoop { s.loop.counters with hopExpired := bump s.loop.counters.hopExpired }
  else if f.source = s.loop.station then
    s.countLoop { s.loop.counters with stripped := bump s.loop.counters.stripped }
  else s.classify f

/-- A bad frame is discarded and counted (R2). -/
def State.badFrame (s : State) : State :=
  s.countLoop { s.loop.counters with bad := bump s.loop.counters.bad }

/-- The receiver of the loop port replaced. -/
def State.withReceiver (s : State) (r : Receiver) : State := s.withLoop { s.loop with receiver := r }

/-- The end mark of a frame: what the receiver stored is decided as a whole, and the receiver is free again (log
entry 23). -/
def State.arrive (s : State) (bytes : List Byte) : State :=
  let r := Receiver.store bytes
  let s := s.withReceiver r
  (match r.frame with
    | none => s.badFrame
    | some f => s.validFrame f).withReceiver Receiver.empty

end Sys2Proof.Machine
end

