-- ==== Sys2Proof/Machine/Commands.lean ====
section
/-! DEFINITION. The meanings of the management commands as the table lists them: each is a MGMT frame of the one item
(R188; log entry 2). -/

namespace Sys2Proof.Machine

/-- SELECT_TABLE (R190). -/
def execSelectTable (dt : Time) (table copy : Byte) (offset : BitVec 16) (s : State) :
    Host.Outcome State Fault Refusal :=
  .next (s.single dt fun s => s.itemSelectTable table copy offset)

/-- TABLE_DATA (R191). -/
def execTableData (dt : Time) (bytes : List Byte) (s : State) : Host.Outcome State Fault Refusal :=
  .next (s.single dt fun s => s.itemTableData bytes)

/-- READ_TABLE (R192). -/
def execReadTable (dt : Time) (count : Byte) (s : State) : Host.Outcome State Fault Refusal :=
  .next (s.single dt fun s => s.itemReadTable count)

/-- COMMIT_TABLE (R35). -/
def execCommitTable (dt : Time) (table : Byte) (s : State) : Host.Outcome State Fault Refusal :=
  .next (s.single dt fun s => s.itemCommitTable table)

/-- RELOAD_STAGING (R193). -/
def execReloadStaging (dt : Time) (s : State) : Host.Outcome State Fault Refusal :=
  .next (s.single dt State.itemReloadStaging)

/-- SET_PARAMETER (R194, R195). -/
def execSetParameter (dt : Time) (number : Byte) (value : BitVec 32) (s : State) : Host.Outcome State Fault Refusal :=
  .next (s.single dt fun s => s.itemSetParameter number value)

/-- READ_PARAMETER (R194). -/
def execReadParameter (dt : Time) (number : Byte) (s : State) : Host.Outcome State Fault Refusal :=
  .next (s.single dt fun s => s.itemReadParameter number)

/-- LOCK (R196). -/
def execLock (dt : Time) (s : State) : Host.Outcome State Fault Refusal :=
  .next (s.single dt State.itemLock)

/-- UNLOCK (R196). -/
def execUnlock (dt : Time) (s : State) : Host.Outcome State Fault Refusal :=
  .next (s.single dt State.itemUnlock)

/-- OPEN_HEAT (R61). -/
def execOpenHeat (dt : Time) (furnace : Byte) (id : BitVec 32) (s : State) : Host.Outcome State Fault Refusal :=
  .next (s.single dt fun s => s.itemOpenHeat furnace id)

/-- DRAIN (R73). -/
def execDrain (dt : Time) (furnace : Byte) (s : State) : Host.Outcome State Fault Refusal :=
  .next (s.single dt fun s => s.itemDrain furnace)

/-- SET_MASS (R74). -/
def execSetMass (dt : Time) (furnace : Byte) (mass : BitVec 32) (s : State) : Host.Outcome State Fault Refusal :=
  .next (s.single dt fun s => s.itemSetMass furnace mass)

/-- SET_BAND (R75). -/
def execSetBand (dt : Time) (furnace : Byte) (holdLow holdHigh tapLow tapHigh : BitVec 16) (s : State) :
    Host.Outcome State Fault Refusal :=
  .next (s.single dt fun s => s.itemSetBand furnace holdLow holdHigh tapLow tapHigh)

/-- APPROVE (R68). -/
def execApprove (dt : Time) (furnace : Byte) (id : BitVec 32) (minutes : Byte) (s : State) :
    Host.Outcome State Fault Refusal :=
  .next (s.single dt fun s => s.itemApprove furnace id minutes)

/-- REVOKE (R69). -/
def execRevoke (dt : Time) (furnace : Byte) (s : State) : Host.Outcome State Fault Refusal :=
  .next (s.single dt fun s => s.itemRevoke furnace)

/-- RESET_CIRCUIT (R147). -/
def execResetCircuit (dt : Time) (circuit : Byte) (s : State) : Host.Outcome State Fault Refusal :=
  .next (s.single dt fun s => s.itemResetCircuit circuit)

/-- RESET_FURNACE (R117). -/
def execResetFurnace (dt : Time) (furnace : Byte) (s : State) : Host.Outcome State Fault Refusal :=
  .next (s.single dt fun s => s.itemResetFurnace furnace)

/-- WD_START (R177). -/
def execWdStart (dt : Time) (s : State) : Host.Outcome State Fault Refusal :=
  .next (s.single dt State.itemWdStart)

/-- HEARTBEAT (R178). -/
def execHeartbeat (dt : Time) (token : BitVec 16) (s : State) : Host.Outcome State Fault Refusal :=
  .next (s.single dt fun s => s.itemHeartbeat token)

/-- WD_PAUSE (R180). -/
def execWdPause (dt : Time) (s : State) : Host.Outcome State Fault Refusal :=
  .next (s.single dt State.itemWdPause)

/-- WD_FORCE (R181). -/
def execWdForce (dt : Time) (s : State) : Host.Outcome State Fault Refusal :=
  .next (s.single dt State.itemWdForce)

/-- WD_RESTART (R181). -/
def execWdRestart (dt : Time) (s : State) : Host.Outcome State Fault Refusal :=
  .next (s.single dt State.itemWdRestart)

/-- ALL_STOP (R183). -/
def execAllStop (dt : Time) (broadcast : Bool) (source : Byte) (s : State) : Host.Outcome State Fault Refusal :=
  .next (s.single dt fun s => s.itemAllStop broadcast source)

/-- RESUME (R184). -/
def execResume (dt : Time) (s : State) : Host.Outcome State Fault Refusal :=
  .next (s.single dt State.itemResume)

/-- HOLD_TAPS (R160). -/
def execHoldTaps (dt : Time) (s : State) : Host.Outcome State Fault Refusal :=
  .next (s.single dt State.itemHoldTaps)

/-- RELEASE_TAPS (R160). -/
def execReleaseTaps (dt : Time) (s : State) : Host.Outcome State Fault Refusal :=
  .next (s.single dt State.itemReleaseTaps)

/-- ACK_CHANGE (R48). -/
def execAckChange (dt : Time) (s : State) : Host.Outcome State Fault Refusal :=
  .next (s.single dt State.itemAckChange)

/-- SET_OUTPUT (R52). -/
def execSetOutput (dt : Time) (output level : Byte) (s : State) : Host.Outcome State Fault Refusal :=
  .next (s.single dt fun s => s.itemSetOutput output level)

/-- CLEAR_CONDITION (R199). -/
def execClearCondition (dt : Time) (kind subject : Byte) (s : State) : Host.Outcome State Fault Refusal :=
  .next (s.single dt fun s => s.itemClearCondition kind subject)

/-- READ_FURNACE (R78). -/
def execReadFurnace (dt : Time) (furnace part : Byte) (s : State) : Host.Outcome State Fault Refusal :=
  .next (s.single dt fun s => s.itemReadFurnace furnace part)

/-- READ_CIRCUIT (R152). -/
def execReadCircuit (dt : Time) (circuit part : Byte) (s : State) : Host.Outcome State Fault Refusal :=
  .next (s.single dt fun s => s.itemReadCircuit circuit part)

/-- READ_POINT (R32). -/
def execReadPoint (dt : Time) (point part : Byte) (s : State) : Host.Outcome State Fault Refusal :=
  .next (s.single dt fun s => s.itemReadPoint point part)

/-- READ_QUEUES (R173). -/
def execReadQueues (dt : Time) (part : Byte) (s : State) : Host.Outcome State Fault Refusal :=
  .next (s.single dt fun s => s.itemReadQueues part)

/-- READ_CONDITIONS (R200). -/
def execReadConditions (dt : Time) (part : Byte) (s : State) : Host.Outcome State Fault Refusal :=
  .next (s.single dt fun s => s.itemReadConditions part)

/-- READ_COUNTERS (R200). -/
def execReadCounters (dt : Time) (part : Byte) (s : State) : Host.Outcome State Fault Refusal :=
  .next (s.single dt fun s => s.itemReadCounters part)

/-- CLEAR_COUNTERS (R201). -/
def execClearCounters (dt : Time) (s : State) : Host.Outcome State Fault Refusal :=
  .next (s.single dt State.itemClearCounters)

/-- RESTART (R202), in a frame of this one item from station `source`. -/
def execRestart (dt : Time) (source seq : Byte) (s : State) : Host.Outcome State Fault Refusal :=
  .next (s.event dt fun s => (s.openFrame 1).restartCommand source seq)

end Sys2Proof.Machine
end

