-- ==== Sys2Proof/Machine/Validator.lean ====
section
/-! DEFINITION. The validator's checks (R37, R38, R76, R134): pure functions of the images and the heat masses. -/

namespace Sys2Proof.Machine

/-- A failed check: its cause and the index recorded (R39). -/
abbrev Failure := FailCause × Nat

/-- The first failure of some checks. -/
def firstFailure : List (Option Failure) → Option Failure
  | [] => none
  | some x :: _ => some x
  | none :: rest => firstFailure rest

/-- A check fails with a cause at an index. -/
def failIf (bad : Bool) (cause : FailCause) (index : Nat) : Option Failure := if bad then some (cause, index) else none

/-- A number lies in a range, both ends included. -/
def within (low x high : Nat) : Bool := decide (low ≤ x) && decide (x ≤ high)

/-- A signed number lies in a range, both ends included. -/
def withinInt (low x high : Int) : Bool := decide (low ≤ x) && decide (x ≤ high)

/-! ### The point table -/

/-- The span of a kind's minimum and maximum (R37). -/
def PointKind.span : PointKind → Int × Int
  | .powerActual | .powerOrder => (0, 60000)
  | .dipTemp => (0, 2000)
  | .chargeMass | .ladleMass => (0, 200000)
  | .tiltAngle => (0, 1000)
  | .flow => (0, 60000)
  | .supplyTemp | .returnTemp => (-50, 200)
  | .pressure => (0, 10000)

/-- The owners of a kind (R21; log entry 18). -/
def PointKind.ownerOk : PointKind → Nat → Bool
  | .powerActual, o | .powerOrder, o | .dipTemp, o | .chargeMass, o | .tiltAngle, o => within 1 o 6
  | .ladleMass, o => decide (o = 0)
  | .flow, o | .supplyTemp, o | .returnTemp, o | .pressure, o => within 1 o 8

/-- A kind of which an owner has one point alone (R37). -/
def PointKind.alone : PointKind → Bool
  | .dipTemp | .chargeMass => false
  | _ => true

/-- The entries of an image with a lower index. -/
def entriesBefore (m : Image) (i : PointNo) : List PointEntry :=
  (pointNos.takeWhile fun j => decide (j.val < i.val)).map fun j => pointEntry m j

/-- A field of a point entry is outside its range (R21, R37). -/
def PointEntry.rangeBad (e : PointEntry) (k : PointKind) : Bool :=
  let span := k.span
  decide (e.station = 0) || decide (e.station = 255) || !within 1 e.den 1000
    || decide (e.high < e.low) || !withinInt span.1 e.low span.2 || !withinInt span.1 e.high span.2
    || !within 10 e.interval 10000 || !(decide (e.limit = 0) || within 50 e.limit 60000)

/-- The checks of one point entry (R37). -/
def checkPoint (m : Image) (i : PointNo) : Option Failure :=
  let e := pointEntry m i
  if !e.used then none
  else
    match e.kind with
    | none => some (.badKind, i.val)
    | some k =>
      let lower := entriesBefore m i
      firstFailure
        [failIf (!k.ownerOk e.owner.toNat
            || (k.alone && lower.any fun o => decide (o.kindCode = e.kindCode) && decide (o.owner = e.owner)))
            .badOwner i.val,
          failIf (e.rangeBad k) .badRange i.val,
          failIf (lower.any fun o => o.used && decide (o.station = e.station) && decide (o.channel = e.channel))
            .duplicateKey i.val]

/-! ### The profile table -/

/-- The names of the fields of a profile entry are within their ranges (R57, R80, R99, R123, R154). -/
def Profile.inRange (p : Profile) : Bool :=
  within 1 p.rated 60000 && within 100 p.capacity 200000 && decide (p.heel ≤ p.capacity)
    && withinInt 1000 p.holdLow 1800 && withinInt 1000 p.holdHigh 1800 && decide (p.holdLow ≤ p.holdHigh)
    && withinInt 1000 p.tapLow 1800 && withinInt 1000 p.tapHigh 1800 && decide (p.tapLow ≤ p.tapHigh)
    && within 1 p.maxHold 480 && within 500 p.meltEnergy 3000 && within 500 p.heatCapacity 1200
    && withinInt 1000 p.liquidus 1400 && decide (p.loss ≤ 2000)
    && decide (p.unsupervised ≤ p.rated) && decide (p.tiltCeiling ≤ p.rated)
    && decide (p.boost ≤ p.rated) && decide (p.mid ≤ p.boost) && decide (p.min ≤ p.mid)
    && within 1 p.rampStep 60000 && within 50 p.rampInterval 2000 && within 10 p.tolerance 10000
    && within 200 p.followWindow 20000 && within 1 p.inverter.toNat 254 && within 1 p.drive.toNat 254
    && within 1 p.minTap p.capacity

/-- The checks of one profile entry (R37). -/
def checkProfile (m : Image) (f : Furnace) : Option Failure :=
  let p := profileEntry m f
  if p.rated = 0 then none
  else
    firstFailure
      [failIf (!within 1 p.coil.toNat 8 || !within 1 p.cabinet.toNat 8) .badOwner f.val,
        failIf (!p.inRange) .badRange f.val]

/-! ### The cooling table -/

/-- The recovery bounds of R137 lie within the spans of R134. -/
def CoolingEntry.boundsOk (e : CoolingEntry) : Bool :=
  decide (e.flowWarn + e.flowHyst ≤ 60000) && decide (e.flowDerate + e.flowHyst ≤ 60000)
    && decide (e.flowTrip + e.flowHyst ≤ 60000)
    && decide (-50 ≤ e.retWarn - e.retHyst) && decide (-50 ≤ e.retDerate - e.retHyst)
    && decide (-50 ≤ e.retTrip - e.retHyst)
    && decide (-250 ≤ (e.riseWarn : Int) - e.riseHyst) && decide (-250 ≤ (e.riseDerate : Int) - e.riseHyst)
    && decide (-250 ≤ (e.riseTrip : Int) - e.riseHyst)
    && decide (e.pressureTrip + e.pressureHyst ≤ 10000)

/-- The fields of a cooling entry are within their ranges and in order (R133, R134). -/
def CoolingEntry.inRange (e : CoolingEntry) : Bool :=
  within 1 e.persistence 16 && within 1 e.startWindow 600 && decide (e.derate ≤ 100)
    && decide (e.flowWarn ≤ 60000) && decide (e.flowTrip ≤ e.flowDerate) && decide (e.flowDerate ≤ e.flowWarn)
    && decide (-50 ≤ e.retWarn) && decide (e.retWarn ≤ e.retDerate) && decide (e.retDerate ≤ e.retTrip)
    && decide (e.retTrip ≤ 200)
    && decide (e.riseWarn ≤ e.riseDerate) && decide (e.riseDerate ≤ e.riseTrip) && decide (e.riseTrip ≤ 250)
    && decide (e.pressureTrip ≤ 10000)
    && decide (e.flowHyst ≤ 10000) && decide (e.retHyst ≤ 50) && decide (e.riseHyst ≤ 50)
    && decide (e.pressureHyst ≤ 2000) && e.boundsOk

/-- The checks of one cooling entry (R37, R134). -/
def checkCooling (m : Image) (c : CircuitNo) : Option Failure :=
  let e := coolingEntry m c
  if e.enabled then failIf (!e.inRange) .badRange c.val else none

/-! ### The contact map -/

/-- An input function's subject is outside its range, or is a second PUMP_RUN or TILT_HOME for it (R37, R43). -/
def inputOwnerBad (m : Image) (i : InputNo) : Bool :=
  let e := inputEntry m i
  let second := inputNos.any fun j =>
    decide (j.val < i.val) && decide ((inputEntry m j).function = e.function) && decide ((inputEntry m j).subject = e.subject)
  if e.function = fnFlowSwitch ∨ e.function = fnLeak then !within 1 e.subject.toNat 8
  else if e.function = fnPumpRun then !within 1 e.subject.toNat 8 || second
  else if e.function = fnTiltHome then !within 1 e.subject.toNat 6 || second
  else false

/-- The checks of an input entry (R37, R216). -/
def checkInput (m : Image) (i : InputNo) : Option Failure :=
  let e := inputEntry m i
  if e.function = 0 then none
  else
    firstFailure
      [failIf (decide (5 < e.function.toNat) || decide (3 < e.filter.toNat) || decide (3 < e.edge.toNat)) .badKind i.val,
        failIf (inputOwnerBad m i) .badOwner i.val]

/-- An output function's subject is outside its range (R37, R43). -/
def OutputEntry.ownerBad (e : OutputEntry) : Bool :=
  if e.function = fnEmergencyWater then !within 1 e.subject.toNat 8
  else if e.function = fnReadyLamp then !within 1 e.subject.toNat 6
  else false

/-- The checks of an output entry (R37, R216); its index in the table is 16 and up. -/
def checkOutput (m : Image) (o : OutputNo) : Option Failure :=
  let e := outputEntry m o
  if e.function = 0 then none
  else
    firstFailure
      [failIf (decide (5 < e.function.toNat) || decide (2 < e.mode.toNat)) .badKind (16 + o.val),
        failIf e.ownerBad .badOwner (16 + o.val),
        failIf (decide (1 < e.level.toNat)) .badRange (16 + o.val)]

/-- The checks of the entries of a table's image, in ascending index (R37). -/
def checkEntries (t : TableNo) (m : Image) : Option Failure :=
  match t with
  | .point => firstFailure (pointNos.map (checkPoint m))
  | .profile => firstFailure (furnaces.map (checkProfile m))
  | .cooling => firstFailure (circuitNos.map (checkCooling m))
  | .contact => firstFailure (inputNos.map (checkInput m) ++ outputNos.map (checkOutput m))

/-! ### Cross-table checks (R38, R76) -/

/-- How many points of an image have a kind and an owner number. -/
def countOwned (m : Image) (k : PointKind) (owner : Nat) : Nat :=
  (pointNos.filter fun i =>
    decide ((pointEntry m i).kind = some k) && decide ((pointEntry m i).owner.toNat = owner)).length

/-- A furnace is rated in a profile table image. -/
def ratedIn (m : Image) (f : Furnace) : Bool := decide (0 < (profileEntry m f).rated)

/-- MISSING_POINT for a point table and a profile table (R38). -/
def missingPoint (points profiles : Image) : Option Failure :=
  firstFailure
    ((furnaces.filter (ratedIn profiles)).flatMap (fun f =>
        [failIf (!decide (countOwned points .powerActual (numberOf f) = 1)) .missingPoint (numberOf f),
          failIf (!decide (countOwned points .tiltAngle (numberOf f) = 1)) .missingPoint (numberOf f)])
      ++ [failIf (furnaces.any (ratedIn profiles) && !decide (countOwned points .ladleMass 0 = 1)) .missingPoint 0])

/-- The circuit of a number is enabled in a cooling table image. -/
def enabledIn (m : Image) (number : Byte) : Bool :=
  match circuitOf number.toNat with
  | some c => (coolingEntry m c).enabled
  | none => false

/-- BAD_REFERENCE at a profile commit (R38). -/
def profileReferences (profiles cooling : Image) : Option Failure :=
  firstFailure
    ((furnaces.filter (ratedIn profiles)).flatMap fun f =>
      [failIf (!enabledIn cooling (profileEntry profiles f).coil) .badReference (numberOf f),
        failIf (!enabledIn cooling (profileEntry profiles f).cabinet) .badReference (numberOf f)])

/-- A furnace rated in a profile table names a circuit. -/
def namedIn (profiles : Image) (c : CircuitNo) : Bool :=
  furnaces.any fun f => ratedIn profiles f &&
    (decide ((profileEntry profiles f).coil.toNat = numberOf c) || decide ((profileEntry profiles f).cabinet.toNat = numberOf c))

/-- BAD_REFERENCE at a cooling commit (R38). -/
def coolingReferences (profiles cooling : Image) : Option Failure :=
  firstFailure
    (circuitNos.map fun c => failIf (namedIn profiles c && !(coolingEntry cooling c).enabled) .badReference (numberOf c))

/-- The heat records against a profile table (R76): a furnace with metal stays rated with a capacity that holds it. -/
def heatFit (profiles : Image) (heats : Vector Heat 6) : Option Failure :=
  firstFailure
    (furnaces.map fun f =>
      failIf (decide (0 < heats[f].mass) && (!ratedIn profiles f || decide ((profileEntry profiles f).capacity < heats[f].mass)))
        .badRange f.val)

/-- The whole validation of a table's staging copy: the first failure, if any. -/
def State.validate (s : State) (t : TableNo) : Option Failure :=
  let staging := (s.tables.copies t).staging
  let cross :=
    match t with
    | .point => [missingPoint staging s.tables.profile.active]
    | .profile =>
      [missingPoint s.tables.point.active staging, profileReferences staging s.tables.cooling.active,
        heatFit staging s.heats]
    | .cooling => [coolingReferences s.tables.profile.active staging]
    | .contact => []
  firstFailure (checkEntries t staging :: cross)

end Sys2Proof.Machine
end

