-- ==== Sys2Proof/Machine/Commit.lean ====
section
/-! DEFINITION. The completion of a validation (R39): the record, the failure, and the commit effects of each table. -/

namespace Sys2Proof.Machine

/-! ### Timers that a commit can expire -/

/-- A follow timer expires (R114): the FOLLOW lockout, FOLLOW_FAULT, and after them the abandonment of an assignment on
the furnace (R171; log entry 31). The remake follows at the end of the event. -/
def State.followExpire (s : State) (f : Furnace) : State :=
  let s := s.lockFollow f
  let s := s.setPower f { s.power[f] with follow := .idle }
  (s.raise .followFault (numberOf f)).tapOnFollow f

/-- A follow timer that a new follow window has run out expires at the completion (R112, step 3). -/
def State.followAtCommit (s : State) (f : Furnace) : State :=
  if s.followDue f then s.settle (s.followExpire f) Causes.none else s

/-- A ramp timer that a new ramp interval has run out expires at the completion (R109). -/
def State.rampAtCommit (s : State) (f : Furnace) : State :=
  if s.rampDue f then s.settle (s.rampExpire f) Causes.none else s

/-! ### The profile table -/

/-- A heat at a profile commit whose old entry is `old`: the account rewritten where a constant it stands on has changed,
the estimate recomputed, the phase tested (R77, R93, R94). -/
def State.reanchorHeat (s : State) (old : Profile) (f : Furnace) : State :=
  s.updateHeat f (s.heats[f].reanchor old (s.profile f))

/-- A hold timer against the new maximum hold (R72). -/
def State.holdAtCommit (s : State) (f : Furnace) : State := if s.holdDue f then s.overheld f else s

/-- An ordered power under the new rating (R112, step 1). -/
def State.reduceOrder (s : State) (f : Furnace) : State :=
  let x := s.power[f]
  s.setPower f { x with ordered := min x.ordered (s.profile f).rated }

/-- A furnace's order at the new address, or its refresh timer stopped (R112, steps 5 and 6). -/
def State.replaceOrder (s : State) (f : Furnace) : State :=
  if s.rated f then s.placeOrder f .normal else s.setPower f { s.power[f] with refresh := .idle }

/-- Every block's part in a profile commit, from the state `s0` that the completion found (R77, R72, R130, R171, R112,
R115, R149, R162; log entry 26). The orders of R112 step 5 are placed by ascending furnace (log entry
29), and the hold timers expire before the abandonment of R171 (log entry 31). -/
def State.recommitProfiles (s0 s : State) : State :=
  let s := furnaces.foldl (fun s f => s.reanchorHeat (s0.profile f) f) s
  let s := furnaces.foldl (fun s f => s.holdAtCommit f) s
  let s := s.compareAll.tapOnProfile
  let s := furnaces.foldl (fun s f => s.reduceOrder f) s
  let s := furnaces.foldl (fun s f => s.suspendFollow f) s
  let s := s0.settle s (Causes.testing furnaces)
  let s := furnaces.foldl (fun s f => s.followAtCommit f) s
  let s := furnaces.foldl (fun s f => s.rampAtCommit f) s
  (furnaces.foldl (fun s f => s.replaceOrder f) s).driveOutputs

/-! ### The completion (R39) -/

/-- The circuits at a cooling commit (R150), by ascending number: the rule gives no order (log entry 29). -/
def State.recommitCooling (s : State) (old : Image) : State :=
  circuitNos.foldl (fun s c => s.recommitCircuit old c) s

/-- The commit effects of a table whose old active copy is `old`, on the state with the new one; `s0` is the state that
the completion found. -/
def State.commitEffects (s0 s : State) (t : TableNo) (old : Image) : State :=
  match t with
  | .point => s0.settle (s.recommitPoints old) Causes.none
  | .profile => s0.recommitProfiles s
  | .cooling => s0.settle (s.recommitCooling old) Causes.none
  | .contact => s0.settle (s.recommitContacts old) Causes.none

/-- The validator returns to IDLE with a record. -/
def State.recordVerdict (s : State) (t : TableNo) (outcome : Verdict) (failure : Option Failure) : State :=
  s.withMgmt { s.mgmt with
    validator := { validating := none, outcome := outcome, table := some t, failure := failure } }

/-- A passed validation: the staging copy becomes the active copy whole, and keeps its content. -/
def State.activate (s : State) (t : TableNo) : State :=
  let c := s.tables.copies t
  { s with tables := s.tables.setCopies t { c with active := c.staging } }

/-- The completion of a validation of a table. -/
def State.completeValidation (s : State) (t : TableNo) : State :=
  match s.validate t with
  | some x => (s.recordVerdict t .failed (some x)).raise .validationFailed t.number
  | none => s.commitEffects ((s.recordVerdict t .passed none).activate t) t (s.tables.copies t).active

end Sys2Proof.Machine
end

