-- ==== Sys2Proof/Machine/Events.lean ====
section
/-! DEFINITION. The meanings of the events: resets, arrivals, completions, contact changes and timer expiries. An expiry
acts only when its timer is running and has run out; otherwise time alone has passed (log entry 4). -/

namespace Sys2Proof.Machine

/-- COLD_RESET (R1, R20, R42, R55, R79, R121, R132, R153, R174, R186, R203): every block at its cold-reset value. The
queue of waiting commands is the model's own and stays. -/
def execColdReset (straps : BitVec 3) (rate : BitVec 2) (raw : BitVec 16) (s : State) :
    Host.Outcome State Fault Refusal :=
  .next { State.cold straps rate raw with pending := s.pending }

/-- RESET_PIN_HELD_LOW (R55, R17): every output is off, and the frame on the link is cut off. -/
def execResetPinHeldLow (s : State) : Host.Outcome State Fault Refusal :=
  .next ({ s with
    pinLow := true,
    contacts := { s.contacts with driven := Vector.replicate 8 false } }.withLoop { s.loop with link := .idle })

/-- FRAME_ARRIVAL (R2 to R11). -/
def execFrameArrival (dt : Time) (bytes : List Byte) (s : State) : Host.Outcome State Fault Refusal :=
  .next (s.event dt fun s => s.arrive bytes)

/-- The link completes its frame: it is counted, and the arbiter takes the next (R16, R17; log entry 25). -/
def State.completeLink (s : State) : State :=
  match s.loop.link with
  | .sending _ =>
    let c := s.loop.counters
    s.withLoop { s.loop with counters := { c with transmitted := bump c.transmitted } }.take
  | .idle => s

/-- LINK_COMPLETION (R16). -/
def execLinkCompletion (dt : Time) (s : State) : Host.Outcome State Fault Refusal :=
  .next (s.event dt State.completeLink)

/-- The validator completes, if it is VALIDATING. -/
def State.finishValidation (s : State) : State :=
  match s.mgmt.validator.validating with
  | some t => s.completeValidation t
  | none => s

/-- VALIDATION_COMPLETE (R39). -/
def execValidationComplete (dt : Time) (s : State) : Host.Outcome State Fault Refusal :=
  .next (s.event dt State.finishValidation)

/-- RAW_LEVEL_CHANGE (R44). -/
def execRawLevelChange (dt : Time) (input : InputNo) (closed : Bool) (s : State) : Host.Outcome State Fault Refusal :=
  .next (s.event dt fun s => s.settle (s.rawChange input closed) Causes.none)

/-- An expiry takes effect when it is due, and the event then settles. -/
def State.expire (s : State) (due : Bool) (k : State → State) : State := if due then s.settle (k s) Causes.none else s

/-- PERSISTENCE_TIMER_EXPIRY (R44). -/
def execPersistenceTimerExpiry (dt : Time) (input : InputNo) (s : State) : Host.Outcome State Fault Refusal :=
  .next (s.event dt fun s => s.expire (s.persistenceDue input) fun s => s.filteredChange input)

/-- STALE_TIMER_EXPIRY (R30). -/
def execStaleTimerExpiry (dt : Time) (point : PointNo) (s : State) : Host.Outcome State Fault Refusal :=
  .next (s.event dt fun s => s.expire (s.staleDue point) fun s => s.staleExpire point)

/-- LOOP_SILENCE_EXPIRY (R18). -/
def execLoopSilenceExpiry (dt : Time) (s : State) : Host.Outcome State Fault Refusal :=
  .next (s.event dt fun s => if s.silenceDue then s.silenceExpire else s)

/-- An approval has stood for its validity (R69). -/
def State.approvalDue (s : State) (f : Furnace) : Bool :=
  match s.heats[f].approval with
  | some a => reached s.time a.granted (a.minutes * 60000)
  | none => false

/-- APPROVAL_TIMER_EXPIRY (R69). -/
def execApprovalTimerExpiry (dt : Time) (furnace : Furnace) (s : State) : Host.Outcome State Fault Refusal :=
  .next (s.event dt fun s => s.expire (s.approvalDue furnace) fun s => s.voidApproval furnace)

/-- HOLD_TIMER_EXPIRY (R71). -/
def execHoldTimerExpiry (dt : Time) (furnace : Furnace) (s : State) : Host.Outcome State Fault Refusal :=
  .next (s.event dt fun s => s.expire (s.holdDue furnace) fun s => s.overheld furnace)

/-- RAMP_TIMER_EXPIRY (R108). -/
def execRampTimerExpiry (dt : Time) (furnace : Furnace) (s : State) : Host.Outcome State Fault Refusal :=
  .next (s.event dt fun s => s.expire (s.rampDue furnace) fun s => s.rampExpire furnace)

/-- REFRESH_TIMER_EXPIRY (R111): the current I is placed as a NORMAL order, and the timer restarts. -/
def execRefreshTimerExpiry (dt : Time) (furnace : Furnace) (s : State) : Host.Outcome State Fault Refusal :=
  .next (s.event dt fun s => if (s.power[furnace].refresh).due s.time then s.placeOrder furnace .normal else s)

/-- FOLLOW_TIMER_EXPIRY (R114). -/
def execFollowTimerExpiry (dt : Time) (furnace : Furnace) (s : State) : Host.Outcome State Fault Refusal :=
  .next (s.event dt fun s => s.expire (s.followDue furnace) fun s => s.followExpire furnace)

/-- START_TIMER_EXPIRY (R146). -/
def execStartTimerExpiry (dt : Time) (circuit : CircuitNo) (s : State) : Host.Outcome State Fault Refusal :=
  .next (s.event dt fun s => s.expire (s.startDue circuit) fun s => s.startExpire circuit)

/-- DIP_AGE_TIMER_EXPIRY (R156). -/
def execDipAgeTimerExpiry (dt : Time) (furnace : Furnace) (s : State) : Host.Outcome State Fault Refusal :=
  .next (s.event dt fun s => s.expire (s.dipAgeDue furnace) fun s => s.setDipAge furnace .expired)

/-- TILT_START_TIMER_EXPIRY (R167). -/
def execTiltStartTimerExpiry (dt : Time) (s : State) : Host.Outcome State Fault Refusal :=
  .next (s.event dt fun s => s.expire (s.taps.tiltStart.due s.time) State.tiltStartExpire)

/-- POUR_TIMER_EXPIRY (R168). -/
def execPourTimerExpiry (dt : Time) (s : State) : Host.Outcome State Fault Refusal :=
  .next (s.event dt fun s => s.expire (s.taps.pourTimer.due s.time) State.pourExpire)

/-- The return timer has run out in RETURNING (R169): the TILT lockout, the pour accounted through to the matching
attempt of R165 step 7, and only then SHORT, whatever was poured. -/
def State.returnExpire (s : State) : State :=
  match s.taps.station, s.taps.pour with
  | .returning, some r =>
    let u := s.tiltFault r.furnace
    (s.settle (u.accountPour r) Causes.none).placeStatus .short (some r.demand.id) (some r.furnace)
      (some (u.finalMass r))
  | _, _ => s.settle s Causes.none

/-- RETURN_TIMER_EXPIRY (R169). -/
def execReturnTimerExpiry (dt : Time) (s : State) : Host.Outcome State Fault Refusal :=
  .next (s.event dt fun s => if s.taps.returnTimer.due s.time then s.returnExpire else s)

/-- WATCHDOG_TIMER_EXPIRY (R179, R182). -/
def execWatchdogTimerExpiry (dt : Time) (s : State) : Host.Outcome State Fault Refusal :=
  .next (s.event dt fun s => s.expire s.watchDue State.enterExpired)

end Sys2Proof.Machine
end

