-- ==== Sys2Proof/Machine/Dispatch.lean ====
section
/-! DEFINITION. The meaning of each command: one arm per constructor, one direct call of its meaning. -/

namespace Sys2Proof.Machine

/-- The command's effect on everything but the queue. -/
def exec (i : Instr) (s : State) : Host.Outcome State Fault Refusal :=
  match i with
  | .coldReset addressStraps rateStraps rawLevels => Sys2Proof.Machine.execColdReset addressStraps rateStraps rawLevels s
  | .frameArrival dt bytes => Sys2Proof.Machine.execFrameArrival dt bytes s
  | .linkCompletion dt => Sys2Proof.Machine.execLinkCompletion dt s
  | .validationComplete dt => Sys2Proof.Machine.execValidationComplete dt s
  | .rawLevelChange dt input closed => Sys2Proof.Machine.execRawLevelChange dt input closed s
  | .persistenceTimerExpiry dt input => Sys2Proof.Machine.execPersistenceTimerExpiry dt input s
  | .staleTimerExpiry dt point => Sys2Proof.Machine.execStaleTimerExpiry dt point s
  | .loopSilenceExpiry dt => Sys2Proof.Machine.execLoopSilenceExpiry dt s
  | .approvalTimerExpiry dt furnace => Sys2Proof.Machine.execApprovalTimerExpiry dt furnace s
  | .holdTimerExpiry dt furnace => Sys2Proof.Machine.execHoldTimerExpiry dt furnace s
  | .rampTimerExpiry dt furnace => Sys2Proof.Machine.execRampTimerExpiry dt furnace s
  | .refreshTimerExpiry dt furnace => Sys2Proof.Machine.execRefreshTimerExpiry dt furnace s
  | .followTimerExpiry dt furnace => Sys2Proof.Machine.execFollowTimerExpiry dt furnace s
  | .startTimerExpiry dt circuit => Sys2Proof.Machine.execStartTimerExpiry dt circuit s
  | .dipAgeTimerExpiry dt furnace => Sys2Proof.Machine.execDipAgeTimerExpiry dt furnace s
  | .tiltStartTimerExpiry dt => Sys2Proof.Machine.execTiltStartTimerExpiry dt s
  | .pourTimerExpiry dt => Sys2Proof.Machine.execPourTimerExpiry dt s
  | .returnTimerExpiry dt => Sys2Proof.Machine.execReturnTimerExpiry dt s
  | .watchdogTimerExpiry dt => Sys2Proof.Machine.execWatchdogTimerExpiry dt s
  | .tableData dt bytes => Sys2Proof.Machine.execTableData dt bytes s
  | .selectTable dt table copy offset => Sys2Proof.Machine.execSelectTable dt table copy offset s
  | .readTable dt count => Sys2Proof.Machine.execReadTable dt count s
  | .commitTable dt table => Sys2Proof.Machine.execCommitTable dt table s
  | .reloadStaging dt => Sys2Proof.Machine.execReloadStaging dt s
  | .setParameter dt number value => Sys2Proof.Machine.execSetParameter dt number value s
  | .readParameter dt number => Sys2Proof.Machine.execReadParameter dt number s
  | .lock dt => Sys2Proof.Machine.execLock dt s
  | .unlock dt => Sys2Proof.Machine.execUnlock dt s
  | .openHeat dt furnace id => Sys2Proof.Machine.execOpenHeat dt furnace id s
  | .drain dt furnace => Sys2Proof.Machine.execDrain dt furnace s
  | .setMass dt furnace mass => Sys2Proof.Machine.execSetMass dt furnace mass s
  | .setBand dt furnace holdLow holdHigh tapLow tapHigh => Sys2Proof.Machine.execSetBand dt furnace holdLow holdHigh tapLow tapHigh s
  | .approve dt furnace id minutes => Sys2Proof.Machine.execApprove dt furnace id minutes s
  | .revoke dt furnace => Sys2Proof.Machine.execRevoke dt furnace s
  | .resetCircuit dt circuit => Sys2Proof.Machine.execResetCircuit dt circuit s
  | .resetFurnace dt furnace => Sys2Proof.Machine.execResetFurnace dt furnace s
  | .wdStart dt => Sys2Proof.Machine.execWdStart dt s
  | .heartbeat dt token => Sys2Proof.Machine.execHeartbeat dt token s
  | .wdPause dt => Sys2Proof.Machine.execWdPause dt s
  | .wdForce dt => Sys2Proof.Machine.execWdForce dt s
  | .wdRestart dt => Sys2Proof.Machine.execWdRestart dt s
  | .allStop dt broadcast source => Sys2Proof.Machine.execAllStop dt broadcast source s
  | .resume dt => Sys2Proof.Machine.execResume dt s
  | .holdTaps dt => Sys2Proof.Machine.execHoldTaps dt s
  | .releaseTaps dt => Sys2Proof.Machine.execReleaseTaps dt s
  | .ackChange dt => Sys2Proof.Machine.execAckChange dt s
  | .setOutput dt output level => Sys2Proof.Machine.execSetOutput dt output level s
  | .clearCondition dt kind subject => Sys2Proof.Machine.execClearCondition dt kind subject s
  | .readFurnace dt furnace part => Sys2Proof.Machine.execReadFurnace dt furnace part s
  | .readCircuit dt circuit part => Sys2Proof.Machine.execReadCircuit dt circuit part s
  | .readPoint dt point part => Sys2Proof.Machine.execReadPoint dt point part s
  | .readQueues dt part => Sys2Proof.Machine.execReadQueues dt part s
  | .readConditions dt part => Sys2Proof.Machine.execReadConditions dt part s
  | .readCounters dt part => Sys2Proof.Machine.execReadCounters dt part s
  | .clearCounters dt => Sys2Proof.Machine.execClearCounters dt s
  | .restart dt source seq => Sys2Proof.Machine.execRestart dt source seq s
  | .resetPinHeldLow => Sys2Proof.Machine.execResetPinHeldLow s

end Sys2Proof.Machine
end

