-- ==== Sys2Proof/Safety.lean ====
section
/-! DEFINITION. What counts as a safe state: the invariants that the manual's prose states of the whole part, in the
terms the statements use. -/

namespace Sys2Proof.Machine

/-! ### Table images (R34, R213 to R216) -/

/-- An image in canonical form whose every listed byte lies inside a size. -/
def Image.fits (m : Image) (size : Nat) : Bool := m.wf && m.all fun c => decide (c.1 < size)

/-- Both copies of a table fit. -/
def Copies.fits (c : Copies) (size : Nat) : Bool := c.staging.fits size && c.active.fits size

/-- Every copy of every table is in canonical form and within its image's size. -/
def Tables.fits (t : Tables) : Bool :=
  t.point.fits TableNo.point.size && t.profile.fits TableNo.profile.size && t.cooling.fits TableNo.cooling.size
    && t.contact.fits TableNo.contact.size

/-! ### The loop port (R12, R15, R16) -/

/-- A frame waits for the outgoing link. -/
def LoopPort.waits (l : LoopPort) : Bool := decide (l.transit ≠ []) || l.insertPick.isSome

/-- The FIFOs hold no more than they can. -/
def LoopPort.bounded (l : LoopPort) : Prop :=
  l.transit.length ≤ transitDepth ∧ l.reports.length ≤ reportDepth ∧ l.statuses.length ≤ statusDepth

/-- "While any frame waits, the link does not stay IDLE" (R16), and the FIFOs are within their depths. While the reset
pin is held low the link is cut off. -/
def State.loopSafe (s : State) : Prop :=
  s.loop.bounded ∧ (s.pinLow = false → s.loop.link = .idle → s.loop.waits = false)

/-! ### The supply (R104, R107, R183) -/

/-- I never exceeds its grant, its demand or the rated power (R107); the grants never exceed A (R104); in ALL_STOP every
grant is 0 (R183). -/
def State.supplySafe (s : State) : Prop :=
  (∀ f : Furnace, s.power[f].issued ≤ s.power[f].grant ∧ s.power[f].grant ≤ s.power[f].demand
    ∧ s.power[f].demand ≤ (s.profile f).rated)
  ∧ s.grantSum ≤ s.availablePower
  ∧ (s.watch.run = .allStop → ∀ f : Furnace, s.power[f].grant = 0)

/-! ### The ready list and the pour station (R154, R155) -/

/-- The furnaces of the ready list. -/
def Taps.readyFurnaces (t : Taps) : List Furnace := t.ready.map (·.furnace)

/-- The ready list holds exactly the furnaces that are ready, none twice (R154, R155). -/
def State.readySafe (s : State) : Prop :=
  s.taps.readyFurnaces.Nodup ∧ ∀ f : Furnace, f ∈ s.taps.readyFurnaces ↔ s.isReady f = true

/-- The demand ids that the station and the queue hold. -/
def Taps.demandIds (t : Taps) : List Byte := (t.pour.toList.map fun r => r.demand.id) ++ t.queue.map (·.id)

/-- At most four demands stand in the queue and at the station together, their ids are distinct, and the record is
present exactly while the station is not IDLE (R154, R157, R166). -/
def Taps.safe (t : Taps) : Prop :=
  t.demandIds.length ≤ queueDepth ∧ t.demandIds.Nodup ∧ (t.pour.isSome = true ↔ t.station ≠ .idle)

/-! ### The outputs (R50 to R53) -/

/-- Every output is driven at the level its function gives it. While the reset pin is held low every output is off. -/
def State.outputsSafe (s : State) : Prop :=
  s.pinLow = false → ∀ o : OutputNo, s.contacts.driven[o] = s.outputLevel o

/-! ### The holding controller (R127) -/

/-- Outside the holding phases the controller holds nothing of a furnace (R127). -/
def State.holdingSafe (s : State) : Prop :=
  ∀ f : Furnace, (s.heats[f].phase).isHolding = false → s.holding[f] = Holding.cold

/-! ### The latched-condition set (R197) -/

/-- The subjects of a kind, by the table of R197. -/
def Kind.hasSubject (n : Nat) : Kind → Prop
  | .allStop | .watchdogExpired | .changeOverrun | .loopDown | .mgmtOverrun => n = 0
  | .circuitTrip => 1 ≤ n ∧ n ≤ 8
  | .followFault | .tiltFault | .tapAbort | .overheld | .dipLow | .overcharge | .chargeRefused => 1 ≤ n ∧ n ≤ 6
  | .stale => n ≤ 127
  | .validationFailed => n ≤ 3

/-- The set stands in the order of priority and subject, which lets each pair stand in it once, and every subject is one
of its kind. -/
def State.latchSafe (s : State) : Prop :=
  s.mgmt.latched.Pairwise (fun a b => latchBefore a b = true) ∧ ∀ x ∈ s.mgmt.latched, x.kind.hasSubject x.subject

/-! ### What a command leaves -/

/-- The milliseconds that pass before a command; none for the two commands of the reset pin. -/
def elapsed : Instr → Option Time
  | .coldReset _ _ _ | .resetPinHeldLow => none
  | .frameArrival dt _ | .linkCompletion dt | .validationComplete dt | .rawLevelChange dt _ _
  | .persistenceTimerExpiry dt _ | .staleTimerExpiry dt _ | .loopSilenceExpiry dt | .approvalTimerExpiry dt _
  | .holdTimerExpiry dt _ | .rampTimerExpiry dt _ | .refreshTimerExpiry dt _ | .followTimerExpiry dt _
  | .startTimerExpiry dt _ | .dipAgeTimerExpiry dt _ | .tiltStartTimerExpiry dt | .pourTimerExpiry dt
  | .returnTimerExpiry dt | .watchdogTimerExpiry dt | .tableData dt _ | .selectTable dt _ _ _ | .readTable dt _
  | .commitTable dt _ | .reloadStaging dt | .setParameter dt _ _ | .readParameter dt _ | .lock dt | .unlock dt
  | .openHeat dt _ _ | .drain dt _ | .setMass dt _ _ | .setBand dt _ _ _ _ _ | .approve dt _ _ _ | .revoke dt _
  | .resetCircuit dt _ | .resetFurnace dt _ | .wdStart dt | .heartbeat dt _ | .wdPause dt | .wdForce dt
  | .wdRestart dt | .allStop dt _ _ | .resume dt | .holdTaps dt | .releaseTaps dt | .ackChange dt
  | .setOutput dt _ _ | .clearCondition dt _ _ | .readFurnace dt _ _ | .readCircuit dt _ _ | .readPoint dt _ _
  | .readQueues dt _ | .readConditions dt _ | .readCounters dt _ | .clearCounters dt | .restart dt _ _ => some dt

/-- The state with the result and the data of a frame of one item (log entry 2). -/
def State.reported (s : State) (r : Result) (data : List Byte) : State :=
  s.withMgmt { s.mgmt with frame := { items := 1, results := [r], data := data } }

/-- What a refused command leaves: time has passed, and its result is recorded. -/
def State.refused (s : State) (dt : Time) (r : Result) : State := (s.advance dt).reported r []

/-- The loop port once a valid frame has been counted and its receiver is free again (R2, R18). -/
def heard (s : State) (dt : Time) : LoopPort :=
  { s.loop with
    receiver := Receiver.empty, live := .up, lastValid := s.time + dt,
    counters := { s.loop.counters with valid := bump s.loop.counters.valid } }

/-- The bytes are a SAMPLE frame of one item (channel, status, raw value) that the part takes, whose key names point i,
with the live state p, and whose sequence is not p's last one (R10, R23, R25). -/
structure SampleTaken (s : State) (bytes : List Byte) (f : Frame) (i : PointNo) (p : PointLive) (st : Byte) (raw : Int) :
    Prop where
  pin : s.pinLow = false
  frame : (Receiver.store bytes).frame = some f
  hop : f.hop ≠ 0
  source : f.source ≠ s.loop.station
  kind : f.kind = kindSample
  item : ∃ ch hi lo, f.body = [ch, st, hi, lo] ∧ raw = (word16 hi lo).toInt
    ∧ findKey s.tables.point.active f.source ch false = some i
  live : s.intake.live[i] = some p
  seq : p.seq ≠ some f.seq

/-- Such an item is accepted with the engineering value v (R24, R26, R27). -/
def SampleAccepted (s : State) (bytes : List Byte) (f : Frame) (i : PointNo) (p : PointLive) (v : Int) : Prop :=
  ∃ st raw, SampleTaken s bytes f i p st raw ∧ (st.getLsbD 7 && (s.point i).skip) = false ∧ v = (s.point i).value raw

/-- Such an item is skipped: questionable, at a point with the skip flag (R26). -/
def SampleSkipped (s : State) (bytes : List Byte) (f : Frame) (i : PointNo) (p : PointLive) : Prop :=
  ∃ st raw, SampleTaken s bytes f i p st raw ∧ (st.getLsbD 7 && (s.point i).skip) = true

/-- The state once such a frame has been heard and forwarded and its point has taken the item, as `x` holds it; its owner
has not yet received the value (R3, R10, R12). -/
def State.sampled (s : State) (dt : Time) (f : Frame) (x : Intake) : State :=
  { s with
    time := s.time + dt, intake := x
    loop := (heard s dt).placeTransit (buildFrame f.dest f.source f.kind (f.hop - 1) f.seq f.body) }

/-- The intervals that a sequence stands for after the last one (R25). -/
def PointLive.elapsedIntervals (p : PointLive) (seq : Byte) : Nat :=
  match p.seq with
  | some last => (seq - last - 1).toNat + 1
  | none => 1

/-- What a completed pour leaves (R165, steps 1 to 6, with R73, R90 and R92): the heat less the poured mass, in the phase
that the mass left gives it, its account scaled, the station free, and the answer DONE or SHORT. -/
def State.afterPour (u : State) (r : Pour) : State :=
  let f := r.furnace
  let h := u.heats[f]
  let poured := min (u.taps.ladle.getD 0 - r.tare.getD 0) h.mass
  let left := h.mass - poured
  let scaled : Heat := { h with mass := left, energy := h.energy * left / h.mass, residue := 0 }
  let heat : Heat :=
    if left = 0 then { Heat.cold with lockout := h.lockout }
    else if left < 100 then
      { scaled with
        phase := .melting, progress := none, temp := none, approval := none, holdStart := none, holdTimer := .idle }
    else { scaled.estimate (u.profile f) with phase := .holding }
  let short := r.abort || decide (poured < r.demand.mass - u.mgmt.params.pourLead)
  ({ u with
    heats := u.heats.set f heat
    taps := { u.taps with
      station := .idle, pour := none, returnTimer := .idle
      dipAge := if left = 0 then u.taps.dipAge.set f .idle else u.taps.dipAge } } : State).placeStatus
    (if short then .short else .done) (some r.demand.id) (some f) (some poured)

/-- A WITHDRAW in the permit slot of the furnace at the station, the station in RETURNING with the record r, and the
return timer started (R164, steps 1 to 3). -/
def State.returning (u : State) (r : Pour) : State :=
  { u with
    loop := u.loop.placePermit r.furnace { action := .withdraw, drive := r.drive.getD 0, demand := r.demand.id }
    taps := { u.taps with
      station := .returning, pour := some r, pourTimer := .idle
      returnTimer := .running u.time (u.mgmt.params.returnTimeout * 1000) } }

/-- An assignment that the furnace of record r loses (R166, R171): a permit is withdrawn, the heat is back in HOLDING, the
demand at the head of the queue, the station free, REQUEUED placed and TAP_ABORT raised. -/
def State.abandoned (u : State) (r : Pour) : State :=
  let f := r.furnace
  let held := if u.taps.station = .permitted then
      { u with
        loop := u.loop.placePermit f { action := .withdraw, drive := r.drive.getD 0, demand := r.demand.id }
        taps := { u.taps with tiltStart := .idle } }
    else u
  (({ held with
      heats := u.heats.set f { u.heats[f] with phase := .holding }
      taps := { held.taps with queue := r.demand :: u.taps.queue, station := .idle, pour := none } } : State).placeStatus
    .requeued (some r.demand.id) (some f) none).raise .tapAbort (numberOf f)

/-- Circuit c, as `y` has it, enters TRIP (R143, R149, R171): the state, the timer, the record with a value, the
emergency-water request where metal is behind it, CIRCUIT_TRIP, and an assignment in ASSIGNED or PERMITTED of a furnace
that names the circuit is abandoned. -/
def State.tripped (u : State) (c : CircuitNo) (y : Circuit) (cause : TripCause) (value : Option Int) : State :=
  let w := ({ u with
    circuits := u.circuits.set c { y with
      state := .trip, start := .idle, trip := some { cause := cause, time := u.time, value := value }
      water := y.water || u.metalBehind c } } : State).raise .circuitTrip (numberOf c)
  match u.taps.pour with
  | some r =>
    if (u.taps.station = .assigned ∨ u.taps.station = .permitted)
        ∧ (u.coilOf r.furnace c = true ∨ u.cabinetOf r.furnace c = true) then w.abandoned r
    else w
  | none => w

/-- The furnace has come home (R165): its latest tilt angle is at or below tilt home, and its indication is on. -/
def State.isHome (s : State) (f : Furnace) : Prop :=
  (∃ a, s.taps.tilt[f] = some a ∧ a ≤ s.mgmt.params.tiltHome) ∧ s.contacts.ind.tiltHome[f] = true

/-! ### What a validation checks (R37, R38, R76) -/

/-- One check: what must hold, and the cause and the index recorded where it does not. -/
structure Check where
  cause : FailCause
  index : Nat
  holds : Prop

/-- The owners and the span of a point kind (R21, R37; log entry 18). -/
def PointKind.limits : PointKind → (Nat × Nat) × (Int × Int)
  | .powerActual | .powerOrder => ((1, 6), (0, 60000))
  | .dipTemp => ((1, 6), (0, 2000))
  | .chargeMass => ((1, 6), (0, 200000))
  | .ladleMass => ((0, 0), (0, 200000))
  | .tiltAngle => ((1, 6), (0, 1000))
  | .flow => ((1, 8), (0, 60000))
  | .supplyTemp | .returnTemp => ((1, 8), (-50, 200))
  | .pressure => ((1, 8), (0, 10000))

/-- The checks of a used point entry (R21, R37). -/
def pointChecks (m : Image) (i : PointNo) : List Check :=
  let e := pointEntry m i
  let owners := fun k : PointKind => k.limits.1
  let span := fun k : PointKind => k.limits.2
  if e.used then
    [{ cause := .badKind, index := i.val, holds := 1 ≤ e.kindCode.toNat ∧ e.kindCode.toNat ≤ 10 },
      { cause := .badOwner, index := i.val
        holds := ∀ k, e.kind = some k → ((owners k).1 ≤ e.owner.toNat ∧ e.owner.toNat ≤ (owners k).2)
          ∧ (k ≠ .dipTemp → k ≠ .chargeMass →
            ∀ j < i, ¬((pointEntry m j).kind = some k ∧ (pointEntry m j).owner = e.owner)) },
      { cause := .badRange, index := i.val
        holds := ∀ k, e.kind = some k → e.station ≠ 0 ∧ e.station ≠ 255 ∧ 1 ≤ e.den ∧ e.den ≤ 1000
          ∧ (span k).1 ≤ e.low ∧ e.low ≤ e.high ∧ e.high ≤ (span k).2
          ∧ 10 ≤ e.interval ∧ e.interval ≤ 10000 ∧ (e.limit = 0 ∨ (50 ≤ e.limit ∧ e.limit ≤ 60000)) },
      { cause := .duplicateKey, index := i.val
        holds := ∀ j < i, (pointEntry m j).used = true →
          ¬((pointEntry m j).station = e.station ∧ (pointEntry m j).channel = e.channel) }]
  else []

/-- The checks of a rated profile entry (R37, with the ranges of R57, R80, R99, R123 and R154). -/
def profileChecks (m : Image) (f : Furnace) : List Check :=
  let p := profileEntry m f
  if 0 < p.rated then
    [{ cause := .badOwner, index := f.val
       holds := (1 ≤ p.coil.toNat ∧ p.coil.toNat ≤ 8) ∧ 1 ≤ p.cabinet.toNat ∧ p.cabinet.toNat ≤ 8 },
      { cause := .badRange, index := f.val
        holds := p.rated ≤ 60000 ∧ (100 ≤ p.capacity ∧ p.capacity ≤ 200000) ∧ p.heel ≤ p.capacity
          ∧ (1000 ≤ p.holdLow ∧ p.holdLow ≤ p.holdHigh ∧ p.holdHigh ≤ 1800)
          ∧ (1000 ≤ p.tapLow ∧ p.tapLow ≤ p.tapHigh ∧ p.tapHigh ≤ 1800)
          ∧ (1 ≤ p.maxHold ∧ p.maxHold ≤ 480)
          ∧ (500 ≤ p.meltEnergy ∧ p.meltEnergy ≤ 3000) ∧ (500 ≤ p.heatCapacity ∧ p.heatCapacity ≤ 1200)
          ∧ (1000 ≤ p.liquidus ∧ p.liquidus ≤ 1400) ∧ p.loss ≤ 2000
          ∧ p.unsupervised ≤ p.rated ∧ p.tiltCeiling ≤ p.rated
          ∧ (p.min ≤ p.mid ∧ p.mid ≤ p.boost ∧ p.boost ≤ p.rated)
          ∧ (1 ≤ p.rampStep ∧ p.rampStep ≤ 60000) ∧ (50 ≤ p.rampInterval ∧ p.rampInterval ≤ 2000)
          ∧ (10 ≤ p.tolerance ∧ p.tolerance ≤ 10000) ∧ (200 ≤ p.followWindow ∧ p.followWindow ≤ 20000)
          ∧ (p.inverter ≠ 0 ∧ p.inverter ≠ 255) ∧ (p.drive ≠ 0 ∧ p.drive ≠ 255)
          ∧ (1 ≤ p.minTap ∧ p.minTap ≤ p.capacity) }]
  else []

/-- The check of an enabled cooling entry: ranges, order, and the recovery bounds within the spans (R133, R134, R137). -/
def coolingChecks (m : Image) (c : CircuitNo) : List Check :=
  let e := coolingEntry m c
  if e.enabled then
    [{ cause := .badRange, index := c.val
       holds := (1 ≤ e.persistence ∧ e.persistence ≤ 16) ∧ (1 ≤ e.startWindow ∧ e.startWindow ≤ 600) ∧ e.derate ≤ 100
        ∧ (e.flowTrip ≤ e.flowDerate ∧ e.flowDerate ≤ e.flowWarn ∧ e.flowWarn ≤ 60000)
        ∧ (-50 ≤ e.retWarn ∧ e.retWarn ≤ e.retDerate ∧ e.retDerate ≤ e.retTrip ∧ e.retTrip ≤ 200)
        ∧ (e.riseWarn ≤ e.riseDerate ∧ e.riseDerate ≤ e.riseTrip ∧ e.riseTrip ≤ 250) ∧ e.pressureTrip ≤ 10000
        ∧ e.flowHyst ≤ 10000 ∧ e.retHyst ≤ 50 ∧ e.riseHyst ≤ 50 ∧ e.pressureHyst ≤ 2000
        ∧ (∀ x ∈ [e.flowWarn, e.flowDerate, e.flowTrip], x + e.flowHyst ≤ 60000)
        ∧ (∀ x ∈ [e.retWarn, e.retDerate, e.retTrip], -50 ≤ x - e.retHyst)
        ∧ (∀ x ∈ [e.riseWarn, e.riseDerate, e.riseTrip], -250 ≤ (x : Int) - e.riseHyst)
        ∧ e.pressureTrip + e.pressureHyst ≤ 10000 }]
  else []

/-- The checks of an input entry with a function (R37, R43, R216). -/
def inputChecks (m : Image) (i : InputNo) : List Check :=
  let e := inputEntry m i
  let alone := ∀ j < i, ¬((inputEntry m j).function = e.function ∧ (inputEntry m j).subject = e.subject)
  if e.function ≠ 0 then
    [{ cause := .badKind, index := i.val
       holds := e.function.toNat ≤ 5 ∧ e.filter.toNat ≤ 3 ∧ e.edge.toNat ≤ 3 },
      { cause := .badOwner, index := i.val
        holds :=
          (e.function = fnFlowSwitch ∨ e.function = fnLeak ∨ e.function = fnPumpRun →
            1 ≤ e.subject.toNat ∧ e.subject.toNat ≤ 8)
          ∧ (e.function = fnTiltHome → 1 ≤ e.subject.toNat ∧ e.subject.toNat ≤ 6)
          ∧ (e.function = fnPumpRun ∨ e.function = fnTiltHome → alone) }]
  else []

/-- The checks of an output entry with a function (R37, R43, R216). -/
def outputChecks (m : Image) (o : OutputNo) : List Check :=
  let e := outputEntry m o
  if e.function ≠ 0 then
    [{ cause := .badKind, index := 16 + o.val, holds := e.function.toNat ≤ 5 ∧ e.mode.toNat ≤ 2 },
      { cause := .badOwner, index := 16 + o.val
        holds := (e.function = fnEmergencyWater → 1 ≤ e.subject.toNat ∧ e.subject.toNat ≤ 8)
          ∧ (e.function = fnReadyLamp → 1 ≤ e.subject.toNat ∧ e.subject.toNat ≤ 6) },
      { cause := .badRange, index := 16 + o.val, holds := e.level = 0 ∨ e.level = 1 }]
  else []

/-- Every rated furnace has one POWER_ACTUAL and one TILT_ANGLE point, and a rated shop one LADLE_MASS point (R38). -/
def missingChecks (points profiles : Image) : List Check :=
  let rated := fun f => 0 < (profileEntry profiles f).rated
  let one := fun (k : PointKind) (owner : Nat) => countOwned points k owner = 1
  furnaces.flatMap (fun f =>
      [{ cause := .missingPoint, index := numberOf f, holds := rated f → one .powerActual (numberOf f) },
        { cause := .missingPoint, index := numberOf f, holds := rated f → one .tiltAngle (numberOf f) }])
    ++ [{ cause := .missingPoint, index := 0, holds := (∃ f, rated f) → one .ladleMass 0 }]

/-- Every check of a commit's validation, in its order (R37, R38, R76). -/
def State.checks (s : State) (n : TableNo) : List Check :=
  let m := (s.tables.copies n).staging
  let profiles := s.tables.profile.active
  match n with
  | .point => pointNos.flatMap (pointChecks m) ++ missingChecks m profiles
  | .profile =>
    furnaces.flatMap (profileChecks m) ++ missingChecks s.tables.point.active m
      ++ furnaces.flatMap (fun f =>
        let p := profileEntry m f
        [{ cause := .badReference, index := numberOf f
           holds := 0 < p.rated → enabledIn s.tables.cooling.active p.coil = true },
          { cause := .badReference, index := numberOf f
            holds := 0 < p.rated → enabledIn s.tables.cooling.active p.cabinet = true }])
      ++ furnaces.map fun f =>
        { cause := .badRange, index := f.val
          holds := 0 < s.heats[f].mass →
            0 < (profileEntry m f).rated ∧ s.heats[f].mass ≤ (profileEntry m f).capacity }
  | .cooling =>
    circuitNos.flatMap (coolingChecks m) ++ circuitNos.map fun c =>
      { cause := .badReference, index := numberOf c
        holds := (∃ f, 0 < (profileEntry profiles f).rated ∧ ((profileEntry profiles f).coil.toNat = numberOf c
          ∨ (profileEntry profiles f).cabinet.toNat = numberOf c)) → (coolingEntry m c).enabled = true }
  | .contact => inputNos.flatMap (inputChecks m) ++ outputNos.flatMap (outputChecks m)

/-! ### How an event ends -/

/-- The ready list that an evaluation makes of the state (R156): the listed furnaces that are still ready, in their
order, then the newly ready ones, ascending, with the present time. -/
def State.listedAnew (u : State) : List Ready :=
  (u.taps.ready.filter fun r => u.isReady r.furnace)
    ++ (furnaces.filter fun f => u.isReady f && !decide (f ∈ u.taps.readyFurnaces)).map fun f =>
      { furnace := f, since := u.time }

/-- A furnace qualifies for a demand (R161): its mass less the heel is at or above the demand's, and its Tp lies within
the demand's bounds, both included. -/
def State.suits (u : State) (d : Demand) (f : Furnace) : Prop :=
  (d.mass : Int) ≤ (u.heats[f].mass : Int) - (u.profile f).heel
    ∧ ∃ tp, u.heats[f].temp = some tp ∧ d.low ≤ tp ∧ tp ≤ d.high

/-- An event from `s`, with its own changes made in `u`, makes a matching attempt (R161): the ready list, the queue
head, or a listed furnace's Tp or mass has changed, the station was not IDLE, or RELEASE TAPS makes one. -/
def attemptMade (s u : State) (x : Causes) : Prop :=
  s.taps.ready ≠ u.listedAnew ∨ s.taps.queue.head? ≠ u.taps.queue.head?
    ∨ (∃ r ∈ u.listedAnew, s.heats[r.furnace].temp ≠ u.heats[r.furnace].temp
      ∨ s.heats[r.furnace].mass ≠ u.heats[r.furnace].mass)
    ∨ s.taps.station ≠ .idle ∨ x.attempt = true

/-- The attempt matches demand `d` to furnace `f` (R161): the station is IDLE, the taps are not held, `d` is the queue's
head, and `f` is the oldest listed furnace that qualifies. -/
structure Matched (s u : State) (x : Causes) (d : Demand) (f : Furnace) : Prop where
  attempt : attemptMade s u x
  station : u.taps.station = .idle
  held : u.taps.held = false
  head : u.taps.queue.head? = some d
  oldest : ∃ before r after, u.listedAnew = before ++ r :: after ∧ r.furnace = f ∧ u.suits d f
    ∧ ∀ y ∈ before, ¬u.suits d y.furnace

/-- The station and its record after a matching attempt (R161, steps 2 and 3). -/
def State.stationAfter (u : State) : Option (Demand × Furnace) → Station × Option Pour
  | some (d, f) =>
    (.assigned, some { demand := d, furnace := f, drive := none, tare := none, poured := 0, abort := false })
  | none => (u.taps.station, u.taps.pour)

/-- The event grants the permit to the record `r` (R162): the station is ASSIGNED with it after the match `m`, the event
is a moment of the permit condition, and the condition holds in the state `t` that it leaves. -/
structure Granted (s u t : State) (x : Causes) (m : Option (Demand × Furnace)) (r : Pour) : Prop where
  assigned : u.stationAfter m = (.assigned, some r)
  moment : m ≠ none ∨ r.furnace ∈ x.permit ∨ s.power[r.furnace].issued ≠ t.power[r.furnace].issued
    ∨ (s.intake.stale.ladle = true ∧ u.intake.stale.ladle = false)
    ∨ (s.intake.stale.tilt[r.furnace] = true ∧ u.intake.stale.tilt[r.furnace] = false)
  issued : t.power[r.furnace].issued ≤ (t.profile r.furnace).tiltCeiling
  actual : ∃ a, t.power[r.furnace].actual = some a
    ∧ a ≤ (t.profile r.furnace).tiltCeiling + (t.profile r.furnace).tolerance
  ladle : u.taps.ladle ≠ none ∧ u.intake.stale.ladle = false
  tilt : (∃ a, u.taps.tilt[r.furnace] = some a ∧ a ≤ u.mgmt.params.tiltHome) ∧ u.intake.stale.tilt[r.furnace] = false

/-- A cut of the remake places an order of the new I (R107, R110): a SAFETY order where it is 0. -/
def cutOrder (u t : State) (l : LoopPort) (f : Furnace) : LoopPort :=
  let p := t.profile f
  let v := t.power[f].issued
  if v < u.power[f].issued ∧ 0 < p.rated then
    l.placeOrder f
      { value := v, station := p.inverter, channel := p.channel, cls := if v = 0 then .safety else .normal }
  else l

/-- The heats after a matching attempt (R161): a matched heat is TAP_ASSIGNED. -/
def State.heatsAfter (u : State) : Option (Demand × Furnace) → Vector Heat 6
  | some (_, f) => u.heats.set f { u.heats[f] with phase := .tapAssigned }
  | none => u.heats

/-- ASSIGNED of a match is placed (R161, step 5). -/
def State.assignedTold (u : State) (l : LoopPort) : Option (Demand × Furnace) → LoopPort
  | some (d, f) => l.placeStatus { dest := destOr255 u.mgmt.params.pouringLine, kind := .assigned, demand := some d.id,
                                   furnace := some f, poured := none }
  | none => l

/-- The GRANT of a granted record is placed (R162). -/
def State.grantTold (t : State) (l : LoopPort) : Option Pour → LoopPort
  | some r => l.placePermit r.furnace { action := .grant, drive := (t.profile r.furnace).drive, demand := r.demand.id }
  | none => l

/-- What an event's end leaves of the heats, the station and the loop port, for the match `m` and the granted record
`g`. -/
structure TapEnd (s u t : State) (m : Option (Demand × Furnace)) (g : Option Pour) : Prop where
  heats : t.heats = u.heatsAfter m
  queue : t.taps.queue = if m.isSome then u.taps.queue.tail else u.taps.queue
  /-- The matched furnace leaves the ready list. -/
  listed : t.taps.ready = u.listedAnew.filter fun r => decide (m.map (·.2) ≠ some r.furnace)
  waiting : g = none → (t.taps.station, t.taps.pour) = u.stationAfter m ∧ t.taps.tiltStart = u.taps.tiltStart
  permitted : ∀ r, g = some r → t.taps.station = .permitted
    ∧ t.taps.pour = some { r with tare := u.taps.ladle, drive := some (t.profile r.furnace).drive }
    ∧ t.taps.tiltStart = .running t.time (u.mgmt.params.tiltStartTimeout * 1000)
  /-- The cut orders of the remake, ascending (log entry 29), then ASSIGNED, then the GRANT, are placed, and nothing
  else. -/
  loop : t.loop = t.grantTold (u.assignedTold (furnaces.foldl (cutOrder u t) u.loop) m) g

/-- An event tests the emergency-water request of circuit `c` (R149): its state has changed, the mass of a rated furnace
with it as coil circuit has, or the profile table has. -/
def waterTested (s u : State) (c : CircuitNo) : Prop :=
  s.circuits[c].state ≠ u.circuits[c].state
    ∨ (∃ f : Furnace, u.coilOf f c = true ∧ s.heats[f].mass ≠ u.heats[f].mass)
    ∨ s.tables.profile.active ≠ u.tables.profile.active

/-- How an event ends (R58, R106, R107, R148, R149, R156, R161, R162; its order is log entry 11's, and the cut
orders are placed by ascending furnace, log entry 29): `s` is the state the event found,
`u` the state with its own changes made, `t` the state it leaves, and `x` what it causes by itself. What no field
mentions is as in `u`. -/
structure EventEnd (s u t : State) (x : Causes := Causes.none) : Prop where
  pending : t.pending = u.pending
  time : t.time = u.time
  pinLow : t.pinLow = u.pinLow
  intake : t.intake = u.intake
  tables : t.tables = u.tables
  orderClamps : t.orderClamps = u.orderClamps
  watch : t.watch = u.watch
  mgmt : t.mgmt = u.mgmt
  /-- Of the contact unit only the driven outputs move, and each is at its level. -/
  contacts : t.contacts = { u.contacts with driven := t.contacts.driven }
  outputs : ∀ o : OutputNo, t.contacts.driven[o] = t.outputLevel o
  /-- Of a circuit only the emergency-water request moves: it is set in TRIP with metal behind the circuit, at the
  moments of R149. -/
  water : ∀ c : CircuitNo, waterTested s u c → u.circuits[c].state = .trip → u.metalBehind c = true →
    t.circuits[c] = { u.circuits[c] with water := true }
  circuits : ∀ c : CircuitNo, ¬(waterTested s u c ∧ u.circuits[c].state = .trip ∧ u.metalBehind c = true) →
    t.circuits[c] = u.circuits[c]
  /-- The ready list holds exactly the ready furnaces. -/
  ready : ∀ f : Furnace, f ∈ t.taps.readyFurnaces ↔ t.isReady f = true
  taps : t.taps = { u.taps with
    ready := t.taps.ready, queue := t.taps.queue, station := t.taps.station, pour := t.taps.pour,
    tiltStart := t.taps.tiltStart }
  /-- The match and the permit are made exactly where R161 and R162 make them. -/
  tap : ∃ m g, (∀ d f, m = some (d, f) ↔ Matched s u x d f) ∧ (∀ r, g = some r ↔ Granted s u t x m r)
    ∧ TapEnd s u t m g
  /-- A comparison for every furnace of which the event changed what the controller reads (R124). -/
  holding : ∀ f : Furnace, t.holding[f] =
    if s.heats[f].holdingInputs = u.heats[f].holdingInputs ∧ t.heats[f] = u.heats[f] then u.holding[f]
    else u.holding[f].after t.heats[f] (t.profile f) t.time
  /-- No input of the allocation moved: nothing of it moves. -/
  kept : s.allocInputs = t.allocInputs → t.power = u.power
  /-- An input moved: d and G are those of the state the event leaves, I is cut to G where it lies above, and a rise to
  it waits for the ramp timer (R107, R110, R113). -/
  remade : s.allocInputs ≠ t.allocInputs → ∀ f : Furnace,
    let p := u.power[f]
    let grant := grantOf (t.served t.demands) f
    t.power[f] = { p with
      demand := t.demandOf f, grant := grant, issued := min p.issued grant
      ramp := if p.issued < grant then p.ramp.ensure t.time else .idle
      follow := if grant < p.issued then p.follow.restart t.time else p.follow
      refresh := if grant < p.issued ∧ 0 < (t.profile f).rated then .running t.time t.mgmt.params.orderRefresh
        else p.refresh }

end Sys2Proof.Machine
end

