-- ==== Sys2Proof/Certificates/Slice0/Obligations.lean ====
section
/-! DEFINITION. The statements for the provers. Each says in its docstring which rules of the manual it formalises; a
clause that rests on the model's own choice names the log entry. -/

open Sys2Proof Sys2Proof.Machine

/-- A step runs the command at the front of the queue; with nothing waiting the part idles (00_scope.md, The part in
the shop). Where a clause is the model's own choice: log entry 1. -/
def Obligations.StepTakesFrontCommand : Prop :=
  (∀ (c : Instr) (rest : List Instr) (s : State), s.pending = c :: rest → step s = exec c (s.withPending rest))
  ∧ ∀ s : State, s.pending = [] → step s = .next s

/-- Every command answers a next state, keeps the waiting queue and moves the clock by its own time alone
(00_scope.md, Time base, R55). Where a clause is the model's own choice: log entries 1 and 16. -/
def Obligations.CommandsKeepQueueAndClock : Prop :=
  ∀ (c : Instr) (s : State), ∃ t, exec c s = .next t ∧ t.pending = s.pending
    ∧ ∀ dt, elapsed c = some dt →
      (s.pinLow = true → t = s) ∧ (s.pinLow = false → t.time = s.time + dt ∧ t.pinLow = false)

/-- What the reset pin leaves: outputs off while it is held low, every block at its cold-reset value after its
release (R1, R19, R20, R42, R55, R79, R121, R132, R153, R174, R186, R203). Where a clause is the model's own choice:
log entry 16. -/
def Obligations.ResetPinValues : Prop :=
  (∀ s : State, exec .resetPinHeldLow s = .next { s with
    pinLow := true, contacts := { s.contacts with driven := Vector.replicate 8 false },
    loop := { s.loop with link := .idle } })
  ∧ ∀ (a : BitVec 3) (r : BitVec 2) (raw : BitVec 16) (s : State), ∃ t, exec (.coldReset a r raw) s = .next t
    ∧ t.time = 0 ∧ t.pinLow = false
    ∧ t.loop.station = 0xE8 + a.setWidth 8 ∧ t.loop.lineRate = r ∧ t.loop.seq = 0 ∧ t.loop.transit = []
    ∧ (∀ f : Furnace, t.loop.orders[f] = none ∧ t.loop.permits[f] = none) ∧ t.loop.reply = none
    ∧ t.loop.reports = [] ∧ t.loop.statuses = [] ∧ t.loop.link = .idle ∧ t.loop.turn = .transit ∧ t.loop.live = .up
    ∧ t.loop.lastValid = 0
    ∧ t.loop.receiver = { bytes := [], overLong := false }
    ∧ t.loop.counters = LoopCounters.zero ∧ t.intake.counters = IntakeCounters.zero
    ∧ (∀ i : PointNo, t.intake.live[i] = none) ∧ (∀ key, t.intake.stale.get key = false)
    ∧ (∀ n : TableNo, (t.tables.copies n).staging = [] ∧ (t.tables.copies n).active = [])
    ∧ (∀ i : InputNo, t.contacts.raw[i] = raw.getLsbD i ∧ t.contacts.filtered[i] = raw.getLsbD i
        ∧ t.contacts.persistence[i] = .idle)
    ∧ t.contacts.ind.estop = false
    ∧ (∀ c : CircuitNo, t.contacts.ind.flowSwitch[c] = false ∧ t.contacts.ind.leak[c] = false
        ∧ t.contacts.ind.pumpRun[c] = true)
    ∧ (∀ f : Furnace, t.contacts.ind.tiltHome[f] = true)
    ∧ t.contacts.changePending = false ∧ t.contacts.overrun = false ∧ t.contacts.snapshot = none
    ∧ (∀ o : OutputNo, t.contacts.driven[o] = false ∧ t.contacts.commanded[o] = false)
    ∧ (∀ f : Furnace, t.heats[f] = Heat.cold ∧ t.power[f] = Power.cold ∧ t.holding[f] = Holding.cold)
    ∧ t.orderClamps = 0 ∧ (∀ c : CircuitNo, t.circuits[c] = Circuit.cold) ∧ t.taps = Taps.cold
    ∧ t.watch.state = .stopped ∧ t.watch.run = .run ∧ t.watch.expiries = 0 ∧ t.watch.stop = none
    ∧ t.watch.expected = .a ∧ t.watch.timer = .idle
    ∧ t.mgmt.params = Params.default ∧ t.mgmt.locked = false ∧ t.mgmt.latched = [] ∧ t.mgmt.selection = none
    ∧ t.mgmt.latch = 0
    ∧ t.mgmt.validator = { validating := none, outcome := .none, table := none, failure := none }

/-- The state after a cold reset, with any straps and raw levels, meets every invariant stated below (R20, R42, R79,
R121, R153, R174, R203). -/
def Obligations.ColdResetMeetsInvariants : Prop :=
  ∀ (a : BitVec 3) (r : BitVec 2) (raw : BitVec 16) (s : State), ∃ t, exec (.coldReset a r raw) s = .next t
    ∧ t.tables.fits = true ∧ t.loopSafe ∧ t.supplySafe ∧ t.readySafe ∧ t.taps.safe ∧ t.outputsSafe ∧ t.holdingSafe
    ∧ t.latchSafe

/-- Every step keeps every copy of every table in canonical form and within the size of its image (R34, R35, R39,
R191, R193). Where a clause is the model's own choice: log entry 6. -/
def Obligations.TableImagesStayInTheirSizes : Prop :=
  ∀ s t : State, s.tables.fits = true → step s = .next t → t.tables.fits = true

/-- Every step keeps the FIFOs within their depths and leaves no frame waiting while the link is IDLE (R12, R15,
R16). -/
def Obligations.NothingWaitsOnAnIdleLink : Prop :=
  ∀ s t : State, s.loopSafe → step s = .next t → t.loopSafe

/-- Every step keeps I at or below G, G at or below d, d at or below the rated power, and the grants within A (R98,
R103, R104, R105, R106, R107, R108, R183). -/
def Obligations.IssuedPowerStaysWithinSupply : Prop :=
  ∀ s t : State, s.supplySafe → step s = .next t → t.supplySafe

/-- Every step keeps the ready list the list of exactly the furnaces that are ready, none twice (R154, R155, R156,
R161). -/
def Obligations.ReadyListHoldsTheReadyFurnaces : Prop :=
  ∀ s t : State, s.readySafe → step s = .next t → t.readySafe

/-- Every step keeps the demands of queue and station at most four, with distinct ids, and the record with the
station (R154, R157, R159, R161, R166). -/
def Obligations.DemandsStayDistinctAndBounded : Prop :=
  ∀ s t : State, s.taps.safe → step s = .next t → t.taps.safe

/-- Every step leaves every contact output driven at the level that its function gives it (R50, R51, R52, R53, R54).
-/
def Obligations.OutputsFollowTheirFunctions : Prop :=
  ∀ s t : State, s.outputsSafe → step s = .next t → t.outputsSafe

/-- Every step keeps the holding state absent, with H 0, for every heat outside the holding phases (R123, R124,
R127). -/
def Obligations.HoldingStateAbsentOutsideHolding : Prop :=
  ∀ s t : State, s.holdingSafe → step s = .next t → t.holdingSafe

/-- The bytes of every management command decode to it, and nothing else decodes to anything (R188, R211). -/
def Obligations.CommandBytesRoundTrip : Prop :=
  ∀ (source seq : Byte) (broadcast : Bool),
    (∀ (i : Instr) (bytes : List Byte), encodeCommand i = some bytes → elapsed i = some 0 →
      (∀ b src, i = .allStop 0 b src → b = broadcast ∧ src = source) →
      (∀ src q, i = .restart 0 src q → src = source ∧ q = seq) →
      decodeCommand source seq broadcast bytes = some i)
    ∧ ∀ (bytes : List Byte) (i : Instr), decodeCommand source seq broadcast bytes = some i →
      encodeCommand i = some bytes ∧ elapsed i = some 0

/-- A built frame is received as its header and body, and a received frame is one built of its header and body (R2,
R204). -/
def Obligations.BuiltFramesAreReceived : Prop :=
  (∀ (dest source kind hop seq : Byte) (body : List Byte), dest ≠ 0 → body.length ≤ 48 →
    (Receiver.store (buildFrame dest source kind hop seq body)).frame =
      some { dest := dest, source := source, kind := kind, hop := hop, seq := seq, body := body })
  ∧ ∀ (bytes : List Byte) (f : Frame), (Receiver.store bytes).frame = some f →
    bytes = buildFrame f.dest f.source f.kind f.hop f.seq f.body ∧ f.dest ≠ 0 ∧ f.body.length ≤ 48

/-- Bad, hop-expired and returning frames, rejected MGMT, DEMAND and CANCEL and foreign orders are discarded, each
on its counter (R2, R3, R5, R6, R8, R9, R18). -/
def Obligations.DiscardedFramesAreCounted : Prop :=
  ∀ (dt : Time) (bytes : List Byte) (s : State), s.pinLow = false →
    ((Receiver.store bytes).frame = none →
      exec (.frameArrival dt bytes) s = .next { s with
        time := s.time + dt
        loop := { s.loop with
          receiver := Receiver.empty, counters := { s.loop.counters with bad := bump s.loop.counters.bad } } })
    ∧ (∀ f, (Receiver.store bytes).frame = some f → f.hop = 0 →
      exec (.frameArrival dt bytes) s = .next { s with
        time := s.time + dt
        loop := { s.loop with
          receiver := Receiver.empty, live := .up, lastValid := s.time + dt
          counters := { s.loop.counters with
            valid := bump s.loop.counters.valid, hopExpired := bump s.loop.counters.hopExpired } } })
    ∧ ∀ f, (Receiver.store bytes).frame = some f → f.hop ≠ 0 →
      let l := heard s dt
      let counted := fun c : LoopCounters =>
        exec (.frameArrival dt bytes) s = .next { s with time := s.time + dt, loop := { l with counters := c } }
      (f.source = s.loop.station → counted { l.counters with stripped := bump s.loop.counters.stripped })
      ∧ (f.source ≠ s.loop.station → f.kind = kindMgmt → f.dest = s.loop.station →
        admits s.mgmt.params.supervisor f.source = false →
        counted { l.counters with rejectedMgmt := bump s.loop.counters.rejectedMgmt })
      ∧ (f.source ≠ s.loop.station → f.kind = kindDemand ∨ f.kind = kindCancel → f.dest = s.loop.station →
        admits s.mgmt.params.pouringLine f.source = false →
        counted { l.counters with rejectedDemands := bump s.loop.counters.rejectedDemands })
      ∧ (f.source ≠ s.loop.station → f.kind = kindOrder → s.mgmt.params.inWindow f.dest = true →
        admits s.mgmt.params.supervisor f.source = false →
        counted { l.counters with foreignOrders := bump s.loop.counters.foreignOrders })

/-- A frame the part does not take is forwarded with its hop one less, queued, started at once, or lost at a full
FIFO (R3, R11, R12, R16). -/
def Obligations.PassingFramesAreForwarded : Prop :=
  ∀ (dt : Time) (bytes : List Byte) (f : Frame) (s : State), s.pinLow = false →
    (Receiver.store bytes).frame = some f → f.hop ≠ 0 → f.source ≠ s.loop.station →
    (f.kind = kindMgmt → f.dest ≠ s.loop.station ∧ f.dest ≠ 255) →
    (f.kind = kindDemand ∨ f.kind = kindCancel → f.dest ≠ s.loop.station) →
    (f.kind = kindOrder → s.mgmt.params.inWindow f.dest = false) → f.kind ≠ kindSample →
    let l := heard s dt
    let out := buildFrame f.dest f.source f.kind (f.hop - 1) f.seq f.body
    (∀ x, s.loop.link = .sending x → s.loop.transit.length < 4 →
      exec (.frameArrival dt bytes) s = .next { s with
        time := s.time + dt, loop := { l with transit := s.loop.transit ++ [out] } })
    ∧ (4 ≤ s.loop.transit.length →
      exec (.frameArrival dt bytes) s = .next { s with
        time := s.time + dt
        loop := { l with counters := { l.counters with transitOverrun := bump l.counters.transitOverrun } } })
    ∧ (s.loop.link = .idle → s.loop.waits = false →
      exec (.frameArrival dt bytes) s = .next { s with
        time := s.time + dt, loop := { l with link := .sending out, turn := .insert } })

/-- An accepted MGMT frame is answered by one reply; one that finds the slot occupied, or is a broadcast, is not
answered (R6, R7, R14, R16, R17, R188, R189, R212). Where a clause is the model's own choice: log entries 2 and 17.
-/
def Obligations.MgmtFramesAreAnswered : Prop :=
  ∀ (dt : Time) (bytes : List Byte) (f : Frame) (s : State), s.pinLow = false →
    (Receiver.store bytes).frame = some f → f.hop ≠ 0 → f.source ≠ s.loop.station → f.kind = kindMgmt →
    let l := heard s dt
    let items := divide f.body
    let admitted := admits s.mgmt.params.supervisor f.source
    let onward := l.placeTransit (buildFrame f.dest f.source f.kind (f.hop - 1) f.seq f.body)
    let marked := fun loop : LoopPort => ({ s with time := s.time + dt, loop := loop } : State)
    (f.dest = s.loop.station → admitted = true → s.loop.reply = none →
      s.loop.link ≠ .idle ∨ s.loop.waits = false →
      ∃ t : State, exec (.frameArrival dt bytes) s = .next t
        ∧ t.mgmt.frame.results.length = items.length
        ∧ 2 + (items.length + 1) / 2 + t.mgmt.frame.data.length ≤ 48
        ∧ let body := [f.seq] ++ enc8 items.length ++ halfBytes t.mgmt.frame.results ++ t.mgmt.frame.data
          let waits := t.loop.reply = some { dest := f.source, body := body }
          let starts := t.loop.reply = none ∧ t.loop.seq = s.loop.seq + 1
            ∧ t.loop.link = .sending (buildFrame f.source s.loop.station kindReply 63 s.loop.seq body)
          (∀ x, s.loop.link = .sending x → t.loop.link = .sending x ∧ waits)
          ∧ (s.loop.link = .idle → starts ∨ (waits ∧ t.loop.link ≠ .idle))
          ∧ (s.loop.link = .idle → f.body = [] → starts))
    ∧ (f.dest = s.loop.station → admitted = true → s.loop.reply ≠ none →
      exec (.frameArrival dt bytes) s = .next ((marked { l with
        counters := { l.counters with mgmtOverrun := bump s.loop.counters.mgmtOverrun } }).raise .mgmtOverrun 0))
    ∧ (f.dest = 255 → s.loop.station ≠ 255 →
      (admitted = false → exec (.frameArrival dt bytes) s = .next (marked { onward with
        counters := { onward.counters with rejectedMgmt := bump s.loop.counters.rejectedMgmt } }))
      ∧ (admitted = true → (∃ x ∈ items, x ≠ .command [0x28]) → exec (.frameArrival dt bytes) s = .next (marked onward))
      ∧ (admitted = true → items = [.command [0x28]] →
        ∃ u, exec (.allStop 0 true f.source) (marked { onward with receiver := Receiver.store bytes }) = .next u
          ∧ exec (.frameArrival dt bytes) s = .next (u.withReceiver Receiver.empty))
      ∧ (admitted = true → (∀ x ∈ items, x = .command [0x28]) → ∃ t, exec (.frameArrival dt bytes) s = .next t
        ∧ (items ≠ [] → t.watch.run = .allStop)
        ∧ ∀ x, s.loop.link = .sending x → t.loop.reply = s.loop.reply))

/-- A MGMT frame of one command does what that command does by itself, and replies (R6, R187, R188). Where a clause
is the model's own choice: log entry 2. -/
def Obligations.OneCommandFrameDoesItsCommand : Prop :=
  ∀ (dt : Time) (source hop seq : Byte) (bytes : List Byte) (i : Instr) (s : State), s.pinLow = false →
    bytes.length ≤ 47 → hop ≠ 0 → source ≠ s.loop.station → s.loop.station ≠ 0 →
    admits s.mgmt.params.supervisor source = true → s.loop.reply = none →
    decodeCommand source seq false bytes = some i → bytes ≠ [0x3F] →
    let frame := buildFrame s.loop.station source kindMgmt hop seq (BitVec.ofNat 8 bytes.length :: bytes)
    let marked := { s with
      time := s.time + dt, loop := { heard s dt with receiver := Receiver.store frame } }
    ∃ u, exec i marked = .next u
      ∧ exec (.frameArrival dt frame) s = .next ((u.placeReplyTo source seq).withReceiver Receiver.empty)

/-- At a completion the arbiter takes the safety class first, then the two sides by turn, and builds what it takes
(R1, R13, R16, R17). Where a clause is the model's own choice: log entry 4. -/
def Obligations.LinkCompletionTakesTheNextFrame : Prop :=
  ∀ (dt : Time) (s : State), s.pinLow = false →
    let c := s.loop.counters
    let l : LoopPort := { s.loop with counters := { c with transmitted := bump c.transmitted } }
    let next := fun l' : LoopPort => exec (.linkCompletion dt) s = .next { s with time := s.time + dt, loop := l' }
    let sent := fun (l' : LoopPort) (dest kind : Byte) (body : List Byte) =>
      next { l' with link := .sending (buildFrame dest l.station kind 63 l.seq body), seq := l.seq + 1 }
    (s.loop.link = .idle → next s.loop)
    ∧ ∀ x, s.loop.link = .sending x →
      (s.loop.waits = false → next { l with link := .idle })
      ∧ (∀ (f : Furnace) (r : OrderRec), l.orders[f] = some r → r.cls = .safety →
          (∀ g < f, l.safetyOrder g = false ∧ l.withdrawal g = false) →
          sent { l with orders := l.orders.set f none } r.station kindOrder (orderBody r))
      ∧ (∀ (f : Furnace) (r : PermitRec), l.permits[f] = some r → r.action = .withdraw → l.safetyOrder f = false →
          (∀ g < f, l.safetyOrder g = false ∧ l.withdrawal g = false) →
          sent { l with permits := l.permits.set f none } r.drive kindPermit (permitBody f r))
      ∧ ((∀ f, l.safetyOrder f = false ∧ l.withdrawal f = false) →
          (∀ y rest, l.transit = y :: rest → l.insertPick = none ∨ l.turn = .transit →
            next { l with transit := rest, link := .sending y, turn := .insert })
          ∧ (l.transit = [] ∨ l.turn = .insert →
            (∀ (f : Furnace) (r : OrderRec), l.orders[f] = some r → (∀ g < f, l.orders[g] = none) →
              sent { l with orders := l.orders.set f none, turn := .transit } r.station kindOrder (orderBody r))
            ∧ ((∀ g : Furnace, l.orders[g] = none) →
              (∀ (f : Furnace) (r : PermitRec), l.permits[f] = some r → (∀ g < f, l.permits[g] = none) →
                sent { l with permits := l.permits.set f none, turn := .transit } r.drive kindPermit (permitBody f r))
              ∧ ((∀ g : Furnace, l.permits[g] = none) →
                (∀ r, l.reply = some r → sent { l with reply := none, turn := .transit } r.dest kindReply r.body)
                ∧ (∀ r rest, l.reply = none → l.statuses = r :: rest →
                  sent { l with statuses := rest, turn := .transit } r.dest kindDemandStatus (statusBody r))
                ∧ ∀ r rest, l.reply = none → l.statuses = [] → l.reports = r :: rest →
                  sent { l with reports := rest, turn := .transit } r.dest kindReport (reportBody r.body)))))

/-- A raise latches its pair once and reports it; the silence of the loop raises LOOP_DOWN and sets the state DOWN
(R15, R18, R197, R198). Where a clause is the model's own choice: log entry 4. -/
def Obligations.LoopSilenceRaisesLoopDown : Prop :=
  (∀ (k : Kind) (n : Nat) (s : State), s.latchSafe →
    let u := s.raise k n
    let set := u.mgmt.latched
    set.filter (fun x => decide (x.kind = k ∧ x.subject = n)) = [{ kind := k, subject := n, time := s.time }]
    ∧ (∀ x : Latched, ¬(x.kind = k ∧ x.subject = n) → (x ∈ set ↔ x ∈ s.mgmt.latched))
    ∧ u = { s with loop := u.loop, mgmt := { s.mgmt with latched := set } }
    ∧ ∃ top rest, set = top :: rest
      ∧ ∀ x, s.loop.link = .sending x →
        (s.loop.reports.length < 12 → u.loop = { s.loop with
          reports := s.loop.reports ++ [{
            dest := if s.mgmt.params.supervisor = 0 then 255 else BitVec.ofNat 8 s.mgmt.params.supervisor
            body := .condition k n s.time top.kind top.subject rest.length }] })
        ∧ (12 ≤ s.loop.reports.length → u.loop = { s.loop with
          counters := { s.loop.counters with reportDrops := bump s.loop.counters.reportDrops } }))
  ∧ ∀ (dt : Time) (s : State), s.pinLow = false →
    ((s.loop.live = .up ∧ s.mgmt.params.loopSilence ≤ (s.time + dt - s.loop.lastValid).toNat →
      exec (.loopSilenceExpiry dt) s
        = .next (({ s with time := s.time + dt, loop := { s.loop with live := .down } } : State).raise .loopDown 0))
    ∧ (s.loop.live = .down ∨ (s.time + dt - s.loop.lastValid).toNat < s.mgmt.params.loopSilence →
      exec (.loopSilenceExpiry dt) s = .next (s.advance dt)))

/-- An accepted sample sets its point's value, sequence, time, marks and fresh flag; a skipped one its sequence and
its mark (R10, R23, R24, R26, R27, R31). Where a clause is the model's own choice: log entries 11, 17 and 29. -/
def Obligations.SampleItemsAreAccepted : Prop :=

  ∀ (dt : Time) (bytes : List Byte) (f : Frame) (ch st hi lo : Byte) (i : PointNo) (p : PointLive) (s : State),
    s.pinLow = false → (Receiver.store bytes).frame = some f → f.hop ≠ 0 → f.source ≠ s.loop.station →
    f.kind = kindSample → f.body = [ch, st, hi, lo] →
    findKey s.tables.point.active f.source ch false = some i → s.intake.live[i] = some p → p.seq ≠ some f.seq →
    let e := s.point i
    let v := e.offset + (word16 hi lo).toInt * e.num / e.den
    let out : Bool := decide (v < e.low ∨ e.high < v)
    let skipped := st.getLsbD 7 && e.skip
    ∃ t, exec (.frameArrival dt bytes) s = .next t
      ∧ (∀ j : PointNo, j ≠ i → t.intake.live[j] = s.intake.live[j]) ∧ t.tables = s.tables
      ∧ (skipped = false →
        t.intake.live[i] = some
          { value := some (if v < e.low then e.low else if e.high < v then e.high else v), seq := some f.seq,
            accepted := some (s.time + dt), staleRef := s.time + dt, clampedLast := out,
            questionableLast := st.getLsbD 7, stale := false }
        ∧ (∀ key, t.intake.stale.get key = (s.intake.stale.get key && !(p.stale && decide (e.staleKey = some key))))
        ∧ t.intake.counters = { s.intake.counters with
            clamped := if out then bump s.intake.counters.clamped else s.intake.counters.clamped })
      ∧ (skipped = true →
        t.intake.live[i] = some { p with seq := some f.seq, questionableLast := true }
        ∧ (∀ key, t.intake.stale.get key = s.intake.stale.get key) ∧ t.intake.counters = s.intake.counters
        ∧ (e.kind ≠ some .powerActual → EventEnd s (s.sampled dt f t.intake) t))

/-- A duplicate or unmatched sample item only counts; the sample is forwarded all the same (R10, R19, R23, R25,
R33). -/
def Obligations.DuplicateAndUnmatchedItems : Prop :=
  ∀ (dt : Time) (bytes : List Byte) (f : Frame) (ch st hi lo : Byte) (s : State),
    s.pinLow = false → (Receiver.store bytes).frame = some f → f.hop ≠ 0 → f.source ≠ s.loop.station →
    f.kind = kindSample → f.body = [ch, st, hi, lo] →
    let out := buildFrame f.dest f.source f.kind (f.hop - 1) f.seq f.body
    let c := s.intake.counters
    let counted := fun c' : IntakeCounters => exec (.frameArrival dt bytes) s = .next { s with
      time := s.time + dt, loop := (heard s dt).placeTransit out,
      intake := { s.intake with counters := c' } }
    (findKey s.tables.point.active f.source ch false = none → counted { c with unmatched := bump c.unmatched })
    ∧ ∀ (i : PointNo) (p : PointLive), findKey s.tables.point.active f.source ch false = some i →
      s.intake.live[i] = some p → p.seq = some f.seq → counted { c with duplicates := bump c.duplicates }

/-- An accepted order inside the intercept window is consumed and sets O, held at the rated power (R9, R28, R98,
R100). -/
def Obligations.OrdersSetTheOrderedPower : Prop :=
  ∀ (dt : Time) (bytes : List Byte) (f : Frame) (ch st hi lo : Byte) (i : PointNo) (p : PointLive) (g : Furnace)
    (x : List Byte) (s : State),
    s.pinLow = false → (Receiver.store bytes).frame = some f → f.hop ≠ 0 → f.source ≠ s.loop.station →
    f.kind = kindOrder → s.mgmt.params.inWindow f.dest = true → admits s.mgmt.params.supervisor f.source = true →
    f.body = [ch, st, hi, lo] → findKey s.tables.point.active f.dest ch true = some i →
    s.intake.live[i] = some p → p.seq ≠ some f.seq → (st.getLsbD 7 && (s.point i).skip) = false →
    (s.point i).kind = some .powerOrder → furnaceOf (s.point i).owner.toNat = some g → s.loop.link = .sending x →
    let v := ((s.point i).value (word16 hi lo).toInt).toNat
    ∃ t, exec (.frameArrival dt bytes) s = .next t ∧ t.power[g].ordered = min v (s.profile g).rated
      ∧ (∀ k : Furnace, k ≠ g → t.power[k].ordered = s.power[k].ordered)
      ∧ t.orderClamps = (if (s.profile g).rated < v then bump s.orderClamps else s.orderClamps)
      ∧ t.loop.transit = s.loop.transit ∧ t.loop.link = .sending x

/-- A stale expiry sets the point's flag, raises STALE and turns the owner's indication on (R30, R31, R95, R115).
Where a clause is the model's own choice: log entry 4. -/
def Obligations.StaleExpiryMarksThePoint : Prop :=
  ∀ (dt : Time) (i : PointNo) (s : State), s.pinLow = false →
    (∀ p : PointLive, s.intake.live[i] = some p → (s.point i).used = true → (s.point i).limit ≠ 0 → p.stale = false →
      (s.point i).limit ≤ (s.time + dt - p.staleRef).toNat →
      ∃ t, exec (.staleTimerExpiry dt i) s = .next t
        ∧ t.intake.live[i] = some { p with stale := true }
        ∧ (∀ j : PointNo, j ≠ i → t.intake.live[j] = s.intake.live[j])
        ∧ t.isLatched .stale i.val = true ∧ t.tables = s.tables ∧ t.intake.counters = s.intake.counters
        ∧ (∀ key, (s.point i).staleKey = some key → t.intake.stale.get key = true)
        ∧ (∀ key, (s.point i).staleKey ≠ some key → t.intake.stale.get key = s.intake.stale.get key)
        ∧ ∀ f : Furnace, (s.point i).staleKey = some (.power f) → s.intake.stale.power[f] = false →
          (t.power[f].follow = .idle ∧ (s.heats[f].phase ≠ .empty → t.heats[f].uncertain = true)))
    ∧ ((s.intake.live[i] = none ∨ (s.point i).used = false ∨ (s.point i).limit = 0
        ∨ ∃ p, s.intake.live[i] = some p ∧ (p.stale = true ∨ (s.time + dt - p.staleRef).toNat < (s.point i).limit)) →
      exec (.staleTimerExpiry dt i) s = .next (s.advance dt))

/-- A raw level change starts or stops the persistence timer, or moves the filtered level at once for class NONE
(R44, R45). Where a clause is the model's own choice: log entries 11 and 29. -/
def Obligations.RawLevelsAreFiltered : Prop :=
  ∀ (dt : Time) (i : InputNo) (closed : Bool) (s : State), s.pinLow = false →
    let c := s.contacts
    let raw := c.raw.set i closed
    (c.raw[i] = closed →
      ∃ t, exec (.rawLevelChange dt i closed) s = .next t ∧ EventEnd s (s.advance dt) t)
    ∧ (c.raw[i] ≠ closed → c.filtered[i] = closed →
      ∃ t, exec (.rawLevelChange dt i closed) s = .next t ∧ EventEnd s { s with
        time := s.time + dt, contacts := { c with raw := raw, persistence := c.persistence.set i .idle } } t)
    ∧ (c.raw[i] ≠ closed → c.filtered[i] ≠ closed → persistenceTime (s.input i).filter ≠ 0 →
      ∃ t, exec (.rawLevelChange dt i closed) s = .next t ∧ EventEnd s { s with
        time := s.time + dt
        contacts := { c with raw := raw, persistence := c.persistence.set i (.running (s.time + dt)) } } t)
    ∧ (c.raw[i] ≠ closed → c.filtered[i] ≠ closed → persistenceTime (s.input i).filter = 0 →
      ∃ t, exec (.rawLevelChange dt i closed) s = .next t ∧ t.contacts.raw = raw
        ∧ t.contacts.filtered = c.filtered.set i closed ∧ t.contacts.persistence = c.persistence.set i .idle
        ∧ t.contacts.ind = t.indications ∧ t.contacts.commanded = c.commanded ∧ t.tables = s.tables)

/-- At a persistence expiry the filtered level takes the raw level, and a selected edge takes the change latch (R44,
R45, R46, R47). Where a clause is the model's own choice: log entry 4. -/
def Obligations.PersistenceExpiryMovesTheLevel : Prop :=
  ∀ (dt : Time) (i : InputNo) (s : State), s.pinLow = false →
    let c := s.contacts
    (∀ t0, c.persistence[i] = .running t0 →
      (persistenceTime (s.input i).filter ≤ (s.time + dt - t0).toNat →
        ∃ t, exec (.persistenceTimerExpiry dt i) s = .next t ∧ t.contacts.raw = c.raw
          ∧ t.contacts.filtered = c.filtered.set i c.raw[i] ∧ t.contacts.persistence = c.persistence.set i .idle
          ∧ t.contacts.ind = t.indications ∧ t.contacts.commanded = c.commanded ∧ t.tables = s.tables
          ∧ (edgeSelected (s.input i).edge c.raw[i] = true →
            t.contacts.snapshot = some { levels := levelWord t.contacts.filtered, time := s.time + dt, input := i }
            ∧ t.contacts.changePending = true ∧ t.contacts.overrun = (c.overrun || c.changePending))
          ∧ (edgeSelected (s.input i).edge c.raw[i] = false →
            t.contacts.snapshot = c.snapshot ∧ t.contacts.changePending = c.changePending
            ∧ t.contacts.overrun = c.overrun))
      ∧ ((s.time + dt - t0).toNat < persistenceTime (s.input i).filter →
        exec (.persistenceTimerExpiry dt i) s = .next (s.advance dt)))
    ∧ (c.persistence[i] = .idle → exec (.persistenceTimerExpiry dt i) s = .next (s.advance dt))

/-- ACK CHANGE clears the latch's two flags and its condition, keeps the snapshot and returns what it found (R48,
R49, R211). Where a clause is the model's own choice: log entry 2. -/
def Obligations.ChangesAreAcknowledged : Prop :=
  ∀ (dt : Time) (s : State), s.pinLow = false →
    let left := s.mgmt.latched.filter fun x => decide (¬(x.kind = .changeOverrun ∧ x.subject = 0))
    exec (.ackChange dt) s = .next (({ s with
      time := s.time + dt, contacts := { s.contacts with changePending := false, overrun := false },
      mgmt := { s.mgmt with latched := left } } : State).reported .ok (encOpt 7 encSnapshot s.contacts.snapshot ++ encFlag s.contacts.changePending
        ++ encFlag s.contacts.overrun))

/-- SET OUTPUT sets the commanded level of a MANUAL output, and is refused by number, level, function and safe mode
(R50, R52, R53). Where a clause is the model's own choice: log entry 2. -/
def Obligations.ManualOutputsAreSet : Prop :=
  ∀ (dt : Time) (n level : Byte) (s : State), s.pinLow = false →
    (outputOf n.toNat = none → exec (.setOutput dt n level) s = .next (s.refused dt .range))
    ∧ ∀ o, outputOf n.toNat = some o →
      (1 < level.toNat → exec (.setOutput dt n level) s = .next (s.refused dt .range))
      ∧ (level.toNat ≤ 1 → ((s.output o).function ≠ fnManual
          ∨ (s.watch.state = .expired ∧ ((s.output o).mode = modeHold ∨ (s.output o).mode = modeSafe))) →
        exec (.setOutput dt n level) s = .next (s.refused dt .state))
      ∧ (level.toNat ≤ 1 → (s.output o).function = fnManual →
        ¬(s.watch.state = .expired ∧ ((s.output o).mode = modeHold ∨ (s.output o).mode = modeSafe)) →
        ∃ t, exec (.setOutput dt n level) s = .next t
          ∧ t = { s with
              time := s.time + dt
              contacts := { s.contacts with
                commanded := s.contacts.commanded.set o (decide (level = 1)), driven := t.contacts.driven }
              }.reported .ok []
          ∧ (∀ k : OutputNo, t.contacts.driven[k] = t.outputLevel k)
          ∧ t.contacts.driven[o] = decide (level = 1))

/-- OPEN HEAT gives an EMPTY heat of a rated furnace its id and default bands; DRAIN clears the whole record (R61,
R73). Where a clause is the model's own choice: log entries 2, 11 and 29. -/
def Obligations.HeatsAreOpenedAndDrained : Prop :=
  ∀ (dt : Time) (n : Byte) (id : BitVec 32) (s : State), s.pinLow = false →
    (furnaceOf n.toNat = none → exec (.openHeat dt n id) s = .next (s.refused dt .range)
      ∧ exec (.drain dt n) s = .next (s.refused dt .range))
    ∧ ∀ f, furnaceOf n.toNat = some f →
      let p := s.profile f
      (s.rated f = false ∨ s.heats[f].phase ≠ .empty → exec (.openHeat dt n id) s = .next (s.refused dt .state))
      ∧ (s.rated f = true → s.heats[f].phase = .empty →
        ∃ t, exec (.openHeat dt n id) s = .next t ∧ EventEnd s ({ s with
          time := s.time + dt
          heats := s.heats.set f { s.heats[f] with
            id := some id.toNat
            bands := some { holdLow := p.holdLow, holdHigh := p.holdHigh, tapLow := p.tapLow, tapHigh := p.tapHigh } }
          }.reported .ok []) t)
      ∧ (s.heats[f].phase = .tapAssigned ∨ s.heats[f].phase = .tapping →
        exec (.drain dt n) s = .next (s.refused dt .state))
      ∧ (s.heats[f].phase ≠ .tapAssigned → s.heats[f].phase ≠ .tapping →
        ∃ t, exec (.drain dt n) s = .next t ∧ EventEnd s ({ s with
          time := s.time + dt, heats := s.heats.set f Heat.cold,
          taps := { s.taps with dipAge := s.taps.dipAge.set f .idle } }.reported .ok []) t)

/-- SET MASS scales the account and re-tests the phase; SET BAND replaces the bands and compares at once (R59, R60,
R74, R75, R91, R129). Where a clause is the model's own choice: log entries 2, 11, 28 and 29. -/
def Obligations.MassAndBandsAreSet : Prop :=
  ∀ (dt : Time) (n : Byte) (m : BitVec 32) (a b c d : BitVec 16) (s : State), s.pinLow = false →
    (furnaceOf n.toNat = none → exec (.setMass dt n m) s = .next (s.refused dt .range)
      ∧ exec (.setBand dt n a b c d) s = .next (s.refused dt .range))
    ∧ ∀ f, furnaceOf n.toNat = some f →
      let h := s.heats[f]
      let p := s.profile f
      let open3 := h.phase = .melting ∨ h.phase = .superheat ∨ h.phase = .holding
      let scaled : Heat := { h with mass := m.toNat, energy := h.energy * m.toNat / h.mass, residue := 0 }
      let after := fun (h' : Heat) => ({ s with time := s.time + dt, heats := s.heats.set f h' } : State)
      let inside := fun w : BitVec 16 => (1000 : Int) ≤ w.toInt ∧ w.toInt ≤ 1800
      let good := inside a ∧ inside b ∧ inside c ∧ inside d ∧ a.toInt ≤ b.toInt ∧ c.toInt ≤ d.toInt
      let bands : Bands := { holdLow := a.toInt, holdHigh := b.toInt, tapLow := c.toInt, tapHigh := d.toInt }
      let banded := ({ h with bands := some bands } : Heat).superheatTest (s.time + dt)
      (¬open3 ∨ h.mass = 0 → exec (.setMass dt n m) s = .next (s.refused dt .state))
      ∧ (open3 → h.mass ≠ 0 → m.toNat = 0 ∨ p.capacity < m.toNat →
        exec (.setMass dt n m) s = .next (s.refused dt .range))
      ∧ (open3 → h.mass ≠ 0 → m.toNat ≠ 0 → m.toNat ≤ p.capacity → m.toNat < 100 →
        ∃ t, exec (.setMass dt n m) s = .next t ∧ EventEnd s ((after { scaled with
          progress := none, temp := none, phase := .melting, approval := none, holdStart := none,
          holdTimer := .idle }).reported .ok []) t)
      ∧ (open3 → h.mass ≠ 0 → 100 ≤ m.toNat → m.toNat ≤ p.capacity →
        ∃ t, exec (.setMass dt n m) s = .next t
          ∧ EventEnd s ((after ((scaled.estimate p).phaseTest (s.time + dt))).reported .ok []) t)
      ∧ (¬good → exec (.setBand dt n a b c d) s = .next (s.refused dt .range))
      ∧ (good → h.id = none → exec (.setBand dt n a b c d) s = .next (s.refused dt .state))
      ∧ (good → h.id ≠ none →
        ∃ t, exec (.setBand dt n a b c d) s = .next t ∧ EventEnd s ({ after banded with
          holding := s.holding.set f (s.holding[f].after banded p (s.time + dt)) }.reported .ok []) t)

/-- APPROVE grants an approval to the named heat of a molten furnace; REVOKE voids it in every phase (R68, R69).
Where a clause is the model's own choice: log entries 2, 11 and 29. -/
def Obligations.ApprovalsAreGrantedAndRevoked : Prop :=
  ∀ (dt : Time) (n : Byte) (id : BitVec 32) (m : Byte) (s : State), s.pinLow = false →
    (furnaceOf n.toNat = none → exec (.approve dt n id m) s = .next (s.refused dt .range)
      ∧ exec (.revoke dt n) s = .next (s.refused dt .range))
    ∧ ∀ f, furnaceOf n.toNat = some f →
      let h := s.heats[f]
      let after := fun (h' : Heat) => ({ s with time := s.time + dt, heats := s.heats.set f h' } : State)
      let fits := 1 ≤ m.toNat ∧ m.toNat ≤ 240
      let molten := h.phase ≠ .empty ∧ h.phase ≠ .melting
      (¬fits → exec (.approve dt n id m) s = .next (s.refused dt .range))
      ∧ (fits → ¬molten → exec (.approve dt n id m) s = .next (s.refused dt .state))
      ∧ (fits → molten → h.id ≠ some id.toNat → exec (.approve dt n id m) s = .next (s.refused dt .absent))
      ∧ (fits → molten → h.id = some id.toNat → ∃ t, exec (.approve dt n id m) s = .next t ∧ EventEnd s
        ((after { h with approval := some { granted := s.time + dt, minutes := m.toNat } }).reported .ok []) t)
      ∧ ∃ t, exec (.revoke dt n) s = .next t ∧ EventEnd s ((after { h with approval := none }).reported .ok []) t

/-- Approval, hold and dip-age expiries void the approval, raise OVERHELD, and take the furnace off the ready list
(R69, R71, R156). Where a clause is the model's own choice: log entries 4, 11 and 29. -/
def Obligations.HeatTimersExpire : Prop :=
  ∀ (dt : Time) (f : Furnace) (s : State), s.pinLow = false →
    let h := s.heats[f]
    let now := s.time + dt
    let after := fun (h' : Heat) => ({ s with time := now, heats := s.heats.set f h' } : State)
    (∀ a, h.approval = some a →
      (a.minutes * 60000 ≤ (now - a.granted).toNat →
        ∃ t, exec (.approvalTimerExpiry dt f) s = .next t ∧ EventEnd s (after { h with approval := none }) t)
      ∧ ((now - a.granted).toNat < a.minutes * 60000 → exec (.approvalTimerExpiry dt f) s = .next (s.advance dt)))
    ∧ (h.approval = none → exec (.approvalTimerExpiry dt f) s = .next (s.advance dt))
    ∧ (∀ t0, h.holdTimer = .running → h.holdStart = some t0 →
      ((s.profile f).maxHold * 60000 ≤ (now - t0).toNat →
        ∃ t, exec (.holdTimerExpiry dt f) s = .next t ∧ EventEnd s
          ((after { h with holdTimer := .expired, approval := none }).raise .overheld (numberOf f)) t)
      ∧ ((now - t0).toNat < (s.profile f).maxHold * 60000 → exec (.holdTimerExpiry dt f) s = .next (s.advance dt)))
    ∧ (h.holdTimer ≠ .running → exec (.holdTimerExpiry dt f) s = .next (s.advance dt))
    ∧ (∀ t0, s.taps.dipAge[f] = .running → h.anchor = some t0 →
      (s.mgmt.params.dipMaxAge * 60000 ≤ (now - t0).toNat →
        ∃ t, exec (.dipAgeTimerExpiry dt f) s = .next t ∧ f ∉ t.taps.readyFurnaces ∧ EventEnd s { s with
          time := now, taps := { s.taps with dipAge := s.taps.dipAge.set f .expired } } t)
      ∧ ((now - t0).toNat < s.mgmt.params.dipMaxAge * 60000 →
        exec (.dipAgeTimerExpiry dt f) s = .next (s.advance dt)))
    ∧ (s.taps.dipAge[f] ≠ .running → exec (.dipAgeTimerExpiry dt f) s = .next (s.advance dt))

/-- RESET FURNACE clears the lockout and both fault pairs, unless the furnace stands tilted or still delivers power
(R117). Where a clause is the model's own choice: log entries 2, 11 and 29. -/
def Obligations.FurnacesAreReset : Prop :=
  ∀ (dt : Time) (n : Byte) (s : State), s.pinLow = false →
    (furnaceOf n.toNat = none → exec (.resetFurnace dt n) s = .next (s.refused dt .range))
    ∧ ∀ f, furnaceOf n.toNat = some f →
      let h := s.heats[f]
      let tilted := (∃ a, s.taps.tilt[f] = some a ∧ s.mgmt.params.tiltHome < a) ∨ s.intake.stale.tilt[f] = true
      let delivers := h.lockout = some .follow ∧ ∃ a, s.power[f].actual = some a ∧ (s.profile f).tolerance < a
      let left := s.mgmt.latched.filter fun x =>
        decide (¬((x.kind = .followFault ∨ x.kind = .tiltFault) ∧ x.subject = f.val + 1))
      (tilted ∨ delivers → exec (.resetFurnace dt n) s = .next (s.refused dt .state))
      ∧ (¬tilted → ¬delivers → ∃ t, exec (.resetFurnace dt n) s = .next t ∧ EventEnd s ({ s with
          time := s.time + dt, heats := s.heats.set f { h with lockout := none },
          mgmt := { s.mgmt with latched := left } }.reported .ok []) t)

/-- A dip is recorded; at progress 1000 it anchors the account, the anchor time and the flag, and Tp is the dip
temperature in bounds (R66, R67, R85, R86, R87, R156). Where a clause is the model's own choice: log entries 11, 17
and 29. -/
def Obligations.DipAnchorsTheEstimate : Prop :=
  (∀ (p : Profile) (h : Heat) (td : Int), 500 ≤ p.meltEnergy → 500 ≤ p.heatCapacity → p.liquidus ≤ 1800 → 100 ≤ h.mass →
    let h' := ({ h with energy := anchorEnergy p h.mass td, residue := 0 } : Heat).estimate p
    h'.progress = some 1000 ∧ h'.temp = some (max p.liquidus (min 1800 td)))
  ∧ ∀ (dt : Time) (bytes : List Byte) (fr : Frame) (i : PointNo) (l : PointLive) (v : Int) (f : Furnace) (s : State),
    SampleAccepted s bytes fr i l v → (s.point i).kind = some .dipTemp → furnaceOf (s.point i).owner.toNat = some f →
    let h := s.heats[f]
    let p := s.profile f
    let now := s.time + dt
    let ends := fun change : State → State =>
      ∃ t, exec (.frameArrival dt bytes) s = .next t ∧ EventEnd s (change (s.sampled dt fr t.intake)) t
    let dipped : Heat := { h with dip := some { temp := v, time := now } }
    let anchored : Heat := { dipped with
      energy := h.mass * p.meltEnergy
        + ((max p.liquidus (min 1800 v) - p.liquidus).toNat * h.mass * p.heatCapacity + 999) / 1000
      residue := 0, anchor := some now, uncertain := h.uncertain && s.intake.stale.power[f] }
    (h.phase = .empty → ends id)
    ∧ (h.phase ≠ .empty → h.progress ≠ some 1000 → ends fun u => { u with heats := u.heats.set f dipped })
    ∧ (h.phase ≠ .empty → h.progress = some 1000 → ends fun u =>
      let w := ({ u with
        heats := u.heats.set f ((anchored.estimate p).phaseTest now)
        taps := { u.taps with dipAge := u.taps.dipAge.set f .running } } : State)
      if v < p.liquidus then w.raise .dipLow (numberOf f) else w)

/-- A power value becomes A_f, is integrated as (P - L) t n joules within the account's bounds, and is held against
I by the follow check (R25, R29, R59, R82, R83, R90, R91, R95, R113, R115). Where a clause is the model's own
choice: log entries 11, 17, 29 and 33. -/
def Obligations.AccountIntegratesExactly : Prop :=
  (∀ (p : Profile) (h : Heat) (power : Int) (t n : Nat),
    let total : Int := (h.energy * 1000 + h.residue : Nat) + (power - p.loss) * t * n
    let h' := h.integrate p power t n
    (h'.residue < 1000 ∧ h' = { h with energy := h'.energy, residue := h'.residue })
    ∧ ((h'.energy * 1000 + h'.residue : Nat) : Int) =
      if total < 0 then 0 else if 4000000000999 < total then 4000000000000 else total)
  ∧ (∀ (p : Profile) (h : Heat) (m : Nat), 0 < h.mass → 0 < p.meltEnergy → 100 ≤ m →
    progressOf p h.mass h.energy = some 1000 → ((h.rescale m).estimate p).progress = some 1000)
  ∧ ∀ (h : Heat) (b : Bands) (now : Time), h.bands = some b →
    let rises := (h.phase = .superheat ∨ (h.phase = .melting ∧ h.progress = some 1000))
    let warm := ∃ t, h.temp = some t ∧ b.holdLow ≤ t
    (¬rises → h.phaseTest now = h)
    ∧ (rises → ¬warm → h.phaseTest now = { h with phase := .superheat })
    ∧ (rises → warm → h.phaseTest now = { h with phase := .holding, holdStart := some now, holdTimer := .running })
  ∧ ∀ (dt : Time) (bytes : List Byte) (fr : Frame) (i : PointNo) (l : PointLive) (f : Furnace) (s : State),
    (s.point i).kind = some .powerActual → furnaceOf (s.point i).owner.toNat = some f →
    let h := s.heats[f]
    let p := s.profile f
    let x := s.power[f]
    let now := s.time + dt
    let n := l.elapsedIntervals fr.seq
    let integrated := fun power : Int =>
      if h.phase = .empty then h
      else ((({ h with uncertain := h.uncertain || decide (9 < n) } : Heat).integrate p power (s.point i).interval
        (if 9 < n then 1 else n)).estimate p).phaseTest now
    (∀ v, SampleAccepted s bytes fr i l v → ∃ t, exec (.frameArrival dt bytes) s = .next t
      ∧ let suspended := t.intake.stale.power[f] = true ∨ p.rated = 0 ∨ h.lockout = some .follow
        let follow :=
          if suspended then x.follow
          else if ((v.toNat : Int) - x.issued).natAbs ≤ p.tolerance then .idle
          else if x.follow = .idle then .running now
          else x.follow
        EventEnd s
          { s.sampled dt fr t.intake with
            heats := s.heats.set f (integrated v), power := s.power.set f { x with actual := some v.toNat, follow := follow } }
          t (Causes.testing [f]))
    ∧ (SampleSkipped s bytes fr i l → ∃ t, exec (.frameArrival dt bytes) s = .next t
      ∧ EventEnd s { s.sampled dt fr t.intake with heats := s.heats.set f (integrated (l.value.getD 0)) } t)

/-- A class gets its demands in full where the remainder allows, else floor shares and the left-over kW one each,
ascending (R105). -/
def Obligations.ClassesAreServedExactly : Prop :=
  (∀ (r : Nat) (l : List Claim),
    (serveClass r l).map (fun x => (x.furnace, x.demand)) = l.map (fun x => (x.furnace, x.demand))
    ∧ (demandSum l ≤ r → ∀ x ∈ serveClass r l, x.share = x.demand)
    ∧ (r < demandSum l →
      let left := r - (l.map fun y => r * y.demand / demandSum l).sum
      shareSum (serveClass r l) = r ∧ (∀ x ∈ serveClass r l, x.share ≤ x.demand)
      ∧ left < (l.filter fun y => decide (0 < y.demand)).length
      ∧ ∀ (i : Nat) (x : Claim), (serveClass r l)[i]? = some x →
        x.share = r * x.demand / demandSum l
          + if 0 < x.demand ∧ ((l.take i).filter fun y => decide (0 < y.demand)).length < left then 1 else 0))
  ∧ (∀ (r : Nat) (l : List Claim) (rest : List (List Claim)),
    serveClasses r (l :: rest) = serveClass r l ++ serveClasses (r - shareSum (serveClass r l)) rest
    ∧ shareSum (serveClasses r (l :: rest)) ≤ r)
  ∧ (∀ (ls : List (List Claim)), ∀ x ∈ serveClasses 0 ls, x.share = 0)
  ∧ ∀ (s : State) (d : Vector Nat 6) (k : Nat), ((s.claims d k).map (·.furnace)).Pairwise (· < ·)

/-- A remake gives demands within the ratings and grants within the demands and the supply, and only ever cuts I
(R101, R103, R104, R107). -/
def Obligations.RemakeDividesTheSupply : Prop :=
  ∀ s : State, let t := s.remake
    (∀ f : Furnace, t.power[f].demand = s.demandOf f ∧ t.power[f].demand ≤ (s.profile f).rated
      ∧ t.power[f].grant ≤ t.power[f].demand ∧ t.power[f].issued = min s.power[f].issued t.power[f].grant
      ∧ (s.heats[f].phase = .empty → t.power[f].grant = 0)
      ∧ t.power[f].ordered = s.power[f].ordered ∧ t.power[f].actual = s.power[f].actual)
    ∧ t.grantSum ≤ s.availablePower ∧ t = { s with power := t.power, loop := t.loop }

/-- A ramp expiry raises I by at most a step and the headroom toward G, with a NORMAL order, and runs on below G
(R107, R108, R110, R113). Where a clause is the model's own choice: log entry 4. -/
def Obligations.RampExpiryRaisesThePower : Prop :=
  ∀ (dt : Time) (f : Furnace) (s : State), s.pinLow = false →
    let x := s.power[f]
    let p := s.profile f
    let now := s.time + dt
    let v := min x.grant (min (x.issued + p.rampStep) (x.issued + (s.availablePower - s.issuedSum)))
    (∀ t0, x.ramp = .running t0 →
      (p.rampInterval ≤ (now - t0).toNat → s.readySafe → x.issued ≤ x.grant →
        ∃ t, exec (.rampTimerExpiry dt f) s = .next t ∧ t.time = now ∧ t.heats = s.heats ∧ t.watch = s.watch
          ∧ t.power[f] = { x with
              issued := v, ramp := if v = x.grant then .idle else .running now
              follow := if x.issued < v then x.follow.restart now else x.follow
              refresh := if x.issued < v ∧ 0 < p.rated then .running now s.mgmt.params.orderRefresh else x.refresh }
          ∧ (∀ g : Furnace, g ≠ f → t.power[g] = s.power[g])
          ∧ (∀ b, s.loop.link = .sending b → x.issued < v → 0 < p.rated →
            t.loop.orders = s.loop.orders.set f (some
              { value := v, station := p.inverter, channel := p.channel, cls := .normal })))
      ∧ ((now - t0).toNat < p.rampInterval → exec (.rampTimerExpiry dt f) s = .next (s.advance dt)))
    ∧ (x.ramp = .idle → exec (.rampTimerExpiry dt f) s = .next (s.advance dt))

/-- A refresh expiry places the current I as a NORMAL order and restarts the timer with the present parameter (R13,
R110, R111). Where a clause is the model's own choice: log entry 4. -/
def Obligations.RefreshExpiryRepeatsTheOrder : Prop :=
  ∀ (dt : Time) (f : Furnace) (s : State), s.pinLow = false →
    let x := s.power[f]
    let p := s.profile f
    let zeroOverZero := decide (x.issued = 0) && s.loop.orders[f].any fun o => decide (o.cls = .safety ∧ o.value = 0)
    let order : OrderRec :=
      { value := x.issued, station := p.inverter, channel := p.channel,
        cls := if zeroOverZero then .safety else .normal }
    (∀ t0 ms b, x.refresh = .running t0 ms →
      (ms ≤ (s.time + dt - t0).toNat → 0 < p.rated → s.loop.link = .sending b →
        exec (.refreshTimerExpiry dt f) s = .next { s with
          time := s.time + dt
          power := s.power.set f { x with refresh := .running (s.time + dt) s.mgmt.params.orderRefresh }
          loop := { s.loop with orders := s.loop.orders.set f (some order) } })
      ∧ ((s.time + dt - t0).toNat < ms → exec (.refreshTimerExpiry dt f) s = .next (s.advance dt)))
    ∧ (x.refresh = .idle → exec (.refreshTimerExpiry dt f) s = .next (s.advance dt))

/-- A follow expiry sets the FOLLOW lockout, raises FOLLOW_FAULT and cuts d, G and I to 0 (R102, R107, R114, R116).
Where a clause is the model's own choice: log entry 4. -/
def Obligations.FollowExpiryLocksTheFurnace : Prop :=
  ∀ (dt : Time) (f : Furnace) (s : State), s.pinLow = false →
    let x := s.power[f]
    (∀ t0, x.follow = .running t0 →
      ((s.profile f).followWindow ≤ (s.time + dt - t0).toNat → s.heats[f].lockout ≠ some .follow →
        ∃ t, exec (.followTimerExpiry dt f) s = .next t ∧ t.heats[f].lockout = some .follow
          ∧ t.isLatched .followFault (numberOf f) = true
          ∧ t.power[f].demand = 0 ∧ t.power[f].grant = 0 ∧ t.power[f].issued = 0 ∧ t.power[f].follow = .idle
          ∧ f ∉ t.taps.readyFurnaces ∧ (∀ g : Furnace, t.power[g].ordered = s.power[g].ordered)
          ∧ t.watch = s.watch ∧ t.tables = s.tables ∧ t.mgmt.params = s.mgmt.params)
      ∧ ((s.time + dt - t0).toNat < (s.profile f).followWindow →
        exec (.followTimerExpiry dt f) s = .next (s.advance dt)))
    ∧ (x.follow = .idle → exec (.followTimerExpiry dt f) s = .next (s.advance dt))

/-- A comparison gives band position, basis and H by the table, keeps the position time of an unchanged position
(R125, R126, R127). -/
def Obligations.HoldingComparesTheBath : Prop :=
  ∀ (old : Holding) (h : Heat) (p : Profile) (now : Time),
    let x := old.after h p now
    let held := h.phase = .holding ∨ h.phase = .tapAssigned ∨ h.phase = .tapping
    (¬held → x = { position := none, basis := none, compared := none, level := 0, since := none })
    ∧ (held → x.since = (if x.position = old.position then old.since else some now))
    ∧ (held → h.uncertain = true →
      x.position = some .inBand ∧ x.basis = some .uncertain ∧ x.compared = none ∧ x.level = p.mid)
    ∧ (held → h.uncertain = false → h.temp = none →
      x.position = some .low ∧ x.basis = some .tpAbsent ∧ x.compared = none ∧ x.level = p.boost)
    ∧ ∀ t b, held → h.uncertain = false → h.temp = some t → h.bands = some b →
      x.basis = some .temperature ∧ x.compared = some t
      ∧ (t < b.holdLow → x.position = some .low ∧ x.level = p.boost)
      ∧ (b.holdLow ≤ t → b.holdHigh < t → x.position = some .high ∧ x.level = p.min)
      ∧ (b.holdLow ≤ t → t ≤ b.holdHigh → x.position = some .inBand ∧ x.level = p.mid)

/-- A flow, return or pressure value is evaluated, moves the state with its levels, and takes the circuit to TRIP by
a present cause (R133, R136, R137, R138, R139, R141, R142, R143, R149, R171). Where a clause is the model's own
choice: log entries 11, 17 and 29. -/
def Obligations.PersistentSamplesTrip : Prop :=
  (∀ (q : Quantity) (t : Thresholds) (n : Nat), 0 ≤ t.hyst → 1 ≤ n → n ≤ 255 →
    (∀ vs : List Int, n ≤ vs.length → (∀ v ∈ vs, if t.low then v < t.trip else t.trip < v) →
      (vs.foldl (fun q v => q.sample t n v) q).level = .trip)
    ∧ ∀ v : Int, ¬(if t.low then v < t.trip else t.trip < v) → (q.sample t n v).tripCount = 0)
  ∧ ∀ (dt : Time) (bytes : List Byte) (fr : Frame) (i : PointNo) (l : PointLive) (v : Int) (c : CircuitNo)
    (k : CoolingKind) (s : State), SampleAccepted s bytes fr i l v →
    (s.point i).kind = some k.point → circuitOf (s.point i).owner.toNat = some c →
    let x := s.circuits[c]
    let e := s.cooling c
    let sampled := fun (y : Circuit) (q : QuantityNo) (w : Int) =>
      y.setQuantity q ((y.quantity q).sample (e.thresholds q) e.persistence w)
    let evaluated := match k with
      | .flow => [sampled x .flow v]
      | .pressure => [sampled x .pressure v]
      | .supply => []
      | .ret =>
        let y := sampled x .ret v
        match s.supplyValue c with
        | some supply => [y, sampled y .rise (v - supply)]
        | none => [y]
    let tested := (if l.stale = true ∧ s.intake.stale.get (.cooling c k) = true then [x] else []) ++ evaluated
    let last := tested.getLastD x
    ∃ t, exec (.frameArrival dt bytes) s = .next t ∧
      let u := s.sampled dt fr t.intake
      let circuit := fun y : Circuit => ({ u with circuits := u.circuits.set c y } : State)
      let cause := fun y : Circuit => (circuit y).firstCause c
      let live := x.state = .normal ∨ x.state = .alert ∨ x.state = .derate
      (x.state = .disabled ∨ tested = [] → EventEnd s u t)
      ∧ (x.state = .trip → EventEnd s (circuit last) t)
      ∧ (x.state = .starting → s.contacts.ind.leak[c] = false → EventEnd s (circuit last) t)
      ∧ (x.state = .starting → s.contacts.ind.leak[c] = true → tested ≠ [] →
        EventEnd s (u.tripped c last .leak none) t)
      ∧ (live → tested ≠ [] → (∀ y ∈ tested, cause y = none) →
        EventEnd s (circuit { last with state := last.byLevels, start := .idle }) t)
      ∧ ∀ before y after z, live → tested = before ++ y :: after → (∀ w ∈ before, cause w = none) → cause y = some z →
        EventEnd s (u.tripped c last z (y.causeValue z)) t

/-- A start expiry ends STARTING once the pump runs: TRIP by the first cause present, else the state of its levels
(R142, R143, R146, R149, R171). Where a clause is the model's own choice: log entries 4, 11 and 29. -/
def Obligations.StartTimersExpire : Prop :=
  ∀ (dt : Time) (c : CircuitNo) (s : State), s.pinLow = false →
    let x := s.circuits[c]
    let now := s.time + dt
    let after := fun (y : Circuit) => ({ s with time := now, circuits := s.circuits.set c y } : State)
    (∀ t0, x.start = .running t0 →
      ((s.cooling c).startWindow * 1000 ≤ (now - t0).toNat →
        (x.state ≠ .starting ∨ s.contacts.ind.pumpRun[c] = false →
          ∃ t, exec (.startTimerExpiry dt c) s = .next t ∧ EventEnd s (after { x with start := .expired }) t)
        ∧ (x.state = .starting → s.contacts.ind.pumpRun[c] = true → s.firstCause c = none →
          ∃ t, exec (.startTimerExpiry dt c) s = .next t
            ∧ EventEnd s (after { x with state := x.byLevels, start := .idle }) t)
        ∧ ∀ cause, x.state = .starting → s.contacts.ind.pumpRun[c] = true → s.firstCause c = some cause →
          ∃ t, exec (.startTimerExpiry dt c) s = .next t
            ∧ EventEnd s ((s.advance dt).tripped c x cause (x.causeValue cause)) t)
      ∧ ((now - t0).toNat < (s.cooling c).startWindow * 1000 →
        exec (.startTimerExpiry dt c) s = .next (s.advance dt)))
    ∧ ((∀ t0, x.start ≠ .running t0) → exec (.startTimerExpiry dt c) s = .next (s.advance dt))

/-- RESET CIRCUIT removes the trip pair, and restarts a tripped circuit whose causes are gone (R145, R147). Where a
clause is the model's own choice: log entries 2, 11 and 29. -/
def Obligations.CircuitsAreReset : Prop :=
  ∀ (dt : Time) (n : Byte) (s : State), s.pinLow = false →
    (circuitOf n.toNat = none → exec (.resetCircuit dt n) s = .next (s.refused dt .range))
    ∧ ∀ c, circuitOf n.toNat = some c →
      let x := s.circuits[c]
      let zero := fun q : Quantity => { q with warnCount := 0, derateCount := 0, tripCount := 0, recovery := 0 }
      let left := s.mgmt.latched.filter fun y => decide (¬(y.kind = .circuitTrip ∧ y.subject = c.val + 1))
      let cleared : State := { s with time := s.time + dt, mgmt := { s.mgmt with latched := left } }
      (x.state = .trip → (∃ cause, s.firstCause c = some cause) →
        exec (.resetCircuit dt n) s = .next (s.refused dt .state))
      ∧ (x.state = .trip → s.firstCause c = none →
        ∃ t, exec (.resetCircuit dt n) s = .next t ∧ EventEnd s ({ cleared with
          circuits := s.circuits.set c { x with
            state := .starting, flow := zero x.flow, ret := zero x.ret, rise := zero x.rise,
            pressure := zero x.pressure, start := .running (s.time + dt), water := false } }.reported .ok []) t)
      ∧ (x.state ≠ .trip → exec (.resetCircuit dt n) s = .next (cleared.reported .ok []))

/-- A demand is refused BAD, BUSY or FULL, replaces its namesake or joins the queue; a cancel removes it (R8, R154,
R157, R158, R159, R164, R165, R166, R208). Where a clause is the model's own choice: log entries 11 and 29. -/
def Obligations.DemandsAndCancelsAreAnswered : Prop :=
  ∀ (dt : Time) (bytes : List Byte) (f : Frame) (s : State), s.pinLow = false →
    (Receiver.store bytes).frame = some f → f.hop ≠ 0 → f.source ≠ s.loop.station → f.dest = s.loop.station →
    admits s.mgmt.params.pouringLine f.source = true →
    let m : State := { s with time := s.time + dt, loop := heard s dt }
    let q := s.taps.queue
    let ends := fun u : State => ∃ t, exec (.frameArrival dt bytes) s = .next t ∧ EventEnd s u t
    let queued := fun (q' : List Demand) => ({ m with taps := { s.taps with queue := q' } } : State)
    let malformed := exec (.frameArrival dt bytes) s = .next { m with
      taps := { s.taps with malformed := bump s.taps.malformed } }
    (f.kind = kindDemand →
      (f.body.length ≠ 9 → malformed)
      ∧ ∀ d, demandBody f.body = some d →
        let good := 1 ≤ d.mass ∧ d.mass ≤ 200000 ∧ d.low ≤ d.high ∧ d.low ≤ 2000 ∧ d.high ≤ 2000
        let held := s.taps.pour.toList.length
        let free := ∀ r, s.taps.pour = some r → r.demand.id ≠ d.id
        (¬good → ends (m.placeStatus .bad (some d.id) none none))
        ∧ (∀ r, good → s.taps.pour = some r → r.demand.id = d.id →
          ends (m.placeStatus .busy (some d.id) (some r.furnace) none))
        ∧ (good → free → (∃ x ∈ q, x.id = d.id) →
          ends ((queued (q.map fun x => if x.id = d.id then d else x)).placeStatus .queued (some d.id) none none))
        ∧ (good → free → (∀ x ∈ q, x.id ≠ d.id) → 4 ≤ q.length + held →
          ends (m.placeStatus .full (some d.id) none none))
        ∧ (good → free → (∀ x ∈ q, x.id ≠ d.id) → q.length + held < 4 →
          ends ((queued (q ++ [d])).placeStatus .queued (some d.id) none none)))
    ∧ (f.kind = kindCancel →
      (f.body.length ≠ 1 → malformed)
      ∧ ∀ i, f.body = [i] →
        ((∃ x ∈ q, x.id = i) →
          ends ((queued (q.filter fun x => decide (x.id ≠ i))).placeStatus .cancelled (some i) none none))
        ∧ ((∀ x ∈ q, x.id ≠ i) → (∀ r, s.taps.pour = some r → r.demand.id ≠ i) →
          ends (m.placeStatus .unknown (some i) none none))
        ∧ ∀ r, (∀ x ∈ q, x.id ≠ i) → s.taps.pour = some r → r.demand.id = i →
          let back : State := { m with
            heats := s.heats.set r.furnace { s.heats[r.furnace] with phase := .holding },
            taps := { s.taps with station := .idle, pour := none } }
          let withdrawn : State := { back with
            loop := m.loop.placePermit r.furnace { action := .withdraw, drive := r.drive.getD 0, demand := i },
            taps := { back.taps with tiltStart := .idle } }
          (s.taps.station = .assigned → ends (back.placeStatus .cancelled (some i) (some r.furnace) none))
          ∧ (s.taps.station = .permitted → ends (withdrawn.placeStatus .cancelled (some i) (some r.furnace) none))
          ∧ (s.taps.station = .pouring → ¬s.isHome r.furnace → ends (m.returning r))
          ∧ (s.taps.station = .pouring → s.isHome r.furnace → ends ((m.returning r).afterPour r))
          ∧ (s.taps.station = .returning → ends m))

/-- A tilt-start expiry gives the demand back and requeues it first; a pour expiry aborts the pour into RETURNING
(R162, R164, R165, R166, R167, R168). Where a clause is the model's own choice: log entries 4, 11 and 29. -/
def Obligations.TiltStartAndPourTimersExpire : Prop :=
  ∀ (dt : Time) (r : Pour) (s : State), s.pinLow = false → s.taps.pour = some r →
    let f := r.furnace
    let now := s.time + dt
    let withdraw := fun (u : State) => u.withLoop (u.loop.placePermit f
      { action := .withdraw, drive := r.drive.getD 0, demand := r.demand.id })
    (∀ t0 ms, s.taps.tiltStart = .running t0 ms →
      (ms ≤ (now - t0).toNat → s.taps.station = .permitted →
        ∃ t, exec (.tiltStartTimerExpiry dt) s = .next t ∧ EventEnd s
          (((withdraw { s with
            time := now, heats := s.heats.set f { s.heats[f] with phase := .holding },
            taps := { s.taps with
              queue := r.demand :: s.taps.queue, station := .idle, pour := none, tiltStart := .idle } }).placeStatus
                .requeued (some r.demand.id) (some f) none).raise .tapAbort (numberOf f)) t)
      ∧ (ms ≤ (now - t0).toNat → s.taps.station ≠ .permitted →
        ∃ t, exec (.tiltStartTimerExpiry dt) s = .next t ∧ EventEnd s (s.advance dt) t)
      ∧ ((now - t0).toNat < ms → exec (.tiltStartTimerExpiry dt) s = .next (s.advance dt)))
    ∧ ∀ t0 ms, s.taps.pourTimer = .running t0 ms →
      (ms ≤ (now - t0).toNat → s.taps.station = .pouring →
        (s.tiltHome f = false ∨ s.contacts.ind.tiltHome[f] = false) →
        ∃ t, exec (.pourTimerExpiry dt) s = .next t ∧ EventEnd s
          ((withdraw { s with
            time := now
            taps := { s.taps with
              pour := some { r with abort := true }, station := .returning, pourTimer := .idle,
              returnTimer := .running now (s.mgmt.params.returnTimeout * 1000) } }).raise .tapAbort (numberOf f)) t)
      ∧ (ms ≤ (now - t0).toNat → s.taps.station = .pouring → s.isHome f →
        ∃ t, exec (.pourTimerExpiry dt) s = .next t ∧ EventEnd s
          ((((s.advance dt).returning { r with abort := true }).raise .tapAbort (numberOf f)).afterPour
            { r with abort := true }) t)
      ∧ (ms ≤ (now - t0).toNat → s.taps.station ≠ .pouring →
        ∃ t, exec (.pourTimerExpiry dt) s = .next t ∧ EventEnd s (s.advance dt) t)
      ∧ ((now - t0).toNat < ms → exec (.pourTimerExpiry dt) s = .next (s.advance dt))

/-- A return expiry locks the furnace TILT, takes the poured mass off the heat and answers SHORT (R90, R92, R165,
R169). Where a clause is the model's own choice: log entry 4. -/
def Obligations.ReturnExpiryAccountsThePour : Prop :=
  ∀ (dt : Time) (r : Pour) (t0 : Time) (ms : Nat) (s : State), s.pinLow = false → s.taps.pour = some r →
    s.taps.returnTimer = .running t0 ms →
    let f := r.furnace
    let h := s.heats[f]
    let p := min (s.taps.ladle.getD 0 - r.tare.getD 0) h.mass
    (ms ≤ (s.time + dt - t0).toNat → s.taps.station = .returning →
      ∃ t, exec (.returnTimerExpiry dt) s = .next t ∧ t.heats[f].mass = h.mass - p
        ∧ t.heats[f].phase = (if h.mass - p = 0 then .empty else if h.mass - p < 100 then .melting else .holding)
        ∧ t.heats[f].lockout = (if h.lockout = some .follow then some .follow else some .tilt)
        ∧ t.isLatched .tiltFault (numberOf f) = true ∧ f ∉ t.taps.readyFurnaces ∧ t.taps.returnTimer = .idle
        ∧ t.taps.station ≠ .returning
        ∧ ∀ b, s.loop.link = .sending b →
          ({ dest := destOr255 s.mgmt.params.pouringLine, kind := .short, demand := some r.demand.id,
             furnace := some f, poured := some p } : Status) ∈ t.loop.statuses)
    ∧ ((s.time + dt - t0).toNat < ms → exec (.returnTimerExpiry dt) s = .next (s.advance dt))

/-- WD START, HEARTBEAT, WD PAUSE, WD FORCE and WD RESTART move the watchdog as its table says, or are refused STATE
(R176, R177, R178, R180, R181, R182). Where a clause is the model's own choice: log entries 2, 11 and 29. -/
def Obligations.WatchdogCommandsAct : Prop :=
  ∀ (dt : Time) (token : BitVec 16) (s : State), s.pinLow = false →
    let w := s.watch
    let st := w.state
    let now := s.time + dt
    let ends := fun (c : Instr) (w' : Watch) (l : List Latched) => ∃ t, exec c s = .next t ∧ EventEnd s
      ({ s with time := now, watch := w', mgmt := { s.mgmt with latched := l } }.reported .ok []) t
    let started : Watch := { w with state := .expectA, expected := .a, timer := .running now }
    let refuses := fun c : Instr => exec c s = .next (s.refused dt .state)
    let expires := fun (c : Instr) (r : Result) => ∃ t, exec c s = .next t
      ∧ t.watch = { w with state := .expired, timer := .idle, expiries := min 255 (w.expiries + 1) }
      ∧ t.isLatched .watchdogExpired 0 = true ∧ t.taps.ready = []
      ∧ t.mgmt.frame = { items := 1, results := [r], data := [] }
    (st = .stopped ∨ st = .paused → ends (.wdStart dt) started s.mgmt.latched)
    ∧ (st = .expectA ∨ st = .expectB ∨ st = .expired → refuses (.wdStart dt))
    ∧ (st = .expectA → token.toNat = s.expectedToken → exec (.heartbeat dt token) s = .next ({ s with
        time := now, watch := { w with state := .expectB, expected := .b, timer := .running now } }.reported .ok []))
    ∧ (st = .expectB → token.toNat = s.expectedToken → exec (.heartbeat dt token) s = .next ({ s with
        time := now, watch := started }.reported .ok []))
    ∧ (st = .expectA ∨ st = .expectB → token.toNat ≠ s.expectedToken → expires (.heartbeat dt token) .state)
    ∧ (st = .stopped ∨ st = .paused ∨ st = .expired → refuses (.heartbeat dt token))
    ∧ (st = .expectA ∨ st = .expectB → (∀ f : Furnace, s.power[f].ordered = 0) →
      ends (.wdPause dt) { w with state := .paused, timer := .idle } s.mgmt.latched)
    ∧ (st = .stopped ∨ st = .paused ∨ st = .expired ∨ (∃ f : Furnace, s.power[f].ordered ≠ 0) → refuses (.wdPause dt))
    ∧ (st ≠ .expired → expires (.wdForce dt) .ok)
    ∧ (st = .expired → refuses (.wdForce dt))
    ∧ (st = .expired → ends (.wdRestart dt) started
        (s.mgmt.latched.filter fun x => decide (¬(x.kind = .watchdogExpired ∧ x.subject = 0))))
    ∧ (st ≠ .expired → refuses (.wdRestart dt))

/-- A watchdog expiry enters EXPIRED, freezes the HOLD outputs, drives the SAFE ones and empties the ready list
(R53, R155, R179, R182). Where a clause is the model's own choice: log entry 4. -/
def Obligations.WatchdogExpiryAppliesSafeModes : Prop :=
  ∀ (dt : Time) (s : State), s.pinLow = false →
    let w := s.watch
    (∀ t0, w.timer = .running t0 → (w.state = .expectA ∨ w.state = .expectB) →
      (s.mgmt.params.watchdogTimeout ≤ (s.time + dt - t0).toNat →
        ∃ t, exec (.watchdogTimerExpiry dt) s = .next t
          ∧ t.watch = { w with state := .expired, timer := .idle, expiries := min 255 (w.expiries + 1) }
          ∧ t.isLatched .watchdogExpired 0 = true ∧ t.taps.ready = [] ∧ t.contacts.commanded = s.contacts.commanded
          ∧ t.tables = s.tables
          ∧ ∀ o : OutputNo, (s.output o).function = fnManual →
            ((s.output o).mode = modeHold → t.contacts.driven[o] = s.contacts.driven[o])
            ∧ ((s.output o).mode = modeSafe → t.contacts.driven[o] = decide ((s.output o).level = 1))
            ∧ ((s.output o).mode = modeFollow → t.contacts.driven[o] = s.contacts.commanded[o]))
      ∧ ((s.time + dt - t0).toNat < s.mgmt.params.watchdogTimeout →
        exec (.watchdogTimerExpiry dt) s = .next (s.advance dt)))
    ∧ (w.timer = .idle ∨ (w.state ≠ .expectA ∧ w.state ≠ .expectB) →
      exec (.watchdogTimerExpiry dt) s = .next (s.advance dt))

/-- ALL STOP zeroes every O, d, G and I and records its cause; RESUME returns to RUN unless the ESTOP is on (R118,
R183, R184). Where a clause is the model's own choice: log entries 2, 11 and 29. -/
def Obligations.AllStopAndResumeAct : Prop :=
  ∀ (dt : Time) (b : Bool) (source : Byte) (s : State), s.pinLow = false →
    let w := s.watch
    let stop : StopRec := { cause := if b then .broadcast else .addressed, number := source, time := s.time + dt }
    let left := s.mgmt.latched.filter fun x => decide (¬(x.kind = .allStop ∧ x.subject = 0))
    (w.run = .run → ∃ t, exec (.allStop dt b source) s = .next t
      ∧ t.watch = { w with run := .allStop, stop := some stop }
      ∧ t.isLatched .allStop 0 = true ∧ t.taps.ready = []
      ∧ (∀ f : Furnace, t.power[f].ordered = 0 ∧ t.power[f].demand = 0 ∧ t.power[f].grant = 0 ∧ t.power[f].issued = 0)
      ∧ (∀ o : OutputNo, (s.output o).function = fnSupplyTrip → t.contacts.driven[o] = true)
      ∧ t.mgmt.frame = { items := 1, results := [.ok], data := [] } ∧ t.tables = s.tables
      ∧ t.mgmt.params = s.mgmt.params)
    ∧ (w.run = .allStop → exec (.allStop dt b source) s = .next ((s.advance dt).reported .ok []))
    ∧ (w.run = .run ∨ s.contacts.ind.estop = true → exec (.resume dt) s = .next (s.refused dt .state))
    ∧ (w.run = .allStop → s.contacts.ind.estop = false → ∃ t, exec (.resume dt) s = .next t ∧ EventEnd s
      ({ s with
        time := s.time + dt, watch := { w with run := .run },
        mgmt := { s.mgmt with latched := left } }.reported .ok []) t)

/-- SELECT TABLE and RELOAD STAGING, decided in order: their refusals, and all that they change when taken (R190,
R193). Where a clause is the model's own choice: log entry 2. -/
def Obligations.TablesAreSelectedAndReloaded : Prop :=
  ∀ (dt : Time) (table copy : Byte) (offset : BitVec 16) (s : State), s.pinLow = false →
    let sel := Instr.selectTable dt table copy offset
    let ok := fun u : State => ({ u with time := s.time + dt } : State).reported .ok []
    let choice := fun t : TableNo =>
      ({ table := t, active := decide (copy = 1), pointer := offset.toNat } : Selection)
    (3 < table.toNat ∨ 1 < copy.toNat → exec sel s = .next (s.refused dt .range))
    ∧ (∀ t, tableOf table.toNat = some t → copy.toNat ≤ 1 →
      (t.size ≤ offset.toNat → exec sel s = .next (s.refused dt .range))
      ∧ (offset.toNat < t.size → exec sel s = .next (ok { s with
          mgmt := { s.mgmt with selection := some (choice t) } })))
    ∧ (s.mgmt.validator.validating ≠ none → exec (.reloadStaging dt) s = .next (s.refused dt .busy))
    ∧ (s.mgmt.validator.validating = none →
      (s.mgmt.selection = none → exec (.reloadStaging dt) s = .next (s.refused dt .state))
      ∧ ∀ x, s.mgmt.selection = some x →
        (x.table = .cooling ∧ s.mgmt.locked = true → exec (.reloadStaging dt) s = .next (s.refused dt .locked))
        ∧ (x.table ≠ .cooling ∨ s.mgmt.locked = false → exec (.reloadStaging dt) s = .next (ok { s with
            tables := s.tables.setCopies x.table
              { staging := (s.tables.copies x.table).active, active := (s.tables.copies x.table).active } })))

/-- Table data writes the staging copy at the pointer and no further than its image; READ TABLE returns latch and
bytes (R34, R191, R192). Where a clause is the model's own choice: log entries 2 and 6. -/
def Obligations.TableDataIsWrittenAndRead : Prop :=
  (∀ (dt : Time) (bytes : List Byte) (s : State), s.pinLow = false →
    let c := Instr.tableData dt bytes
    (s.mgmt.validator.validating ≠ none → exec c s = .next (s.refused dt .busy))
    ∧ (s.mgmt.validator.validating = none →
      ((s.mgmt.selection = none ∨ ∃ x, s.mgmt.selection = some x ∧ x.active = true) →
        exec c s = .next (s.refused dt .state))
      ∧ ∀ x, s.mgmt.selection = some x → x.active = false →
        (x.table = .cooling ∧ s.mgmt.locked = true → exec c s = .next (s.refused dt .locked))
        ∧ (x.table ≠ .cooling ∨ s.mgmt.locked = false →
          let n := min bytes.length (x.table.size - x.pointer)
          let old := s.tables.copies x.table
          ∃ t, exec c s = .next t
            ∧ t = ({ s with
                time := s.time + dt, tables := t.tables
                mgmt := { s.mgmt with selection := some { x with pointer := x.pointer + n } } } : State).reported
                  (if n = bytes.length then .ok else .range) []
            ∧ (∀ k, k ≠ x.table → t.tables.copies k = s.tables.copies k)
            ∧ (t.tables.copies x.table).active = old.active
            ∧ (old.staging.wf = true → ∀ a, (t.tables.copies x.table).staging.read a =
                if x.pointer ≤ a ∧ a < x.pointer + n then (bytes[a - x.pointer]?).getD 0 else old.staging.read a))))
  ∧ ∀ (dt : Time) (count : Byte) (s : State), s.pinLow = false →
    let c := Instr.readTable dt count
    let n := count.toNat
    (n = 0 ∨ 40 < n → exec c s = .next (s.refused dt .range))
    ∧ (1 ≤ n → n ≤ 40 → s.mgmt.selection = none → exec c s = .next (s.refused dt .state))
    ∧ ∀ x, 1 ≤ n → n ≤ 40 → s.mgmt.selection = some x →
      let image := (s.tables.copies x.table).image x.active
      let fetched := fun k : Nat => if x.pointer + k < x.table.size then image.read (x.pointer + k) else 0
      exec c s = .next (({ s with
        time := s.time + dt
        mgmt := { s.mgmt with
          latch := fetched (n - 1)
          selection := some { x with
            pointer := if x.pointer < x.table.size then min (x.pointer + n) x.table.size else x.pointer } }
        } : State).reported .ok (s.mgmt.latch :: (List.range (n - 1)).map fetched))

/-- COMMIT TABLE starts a validation; its checks decide it, and its completion records the failure or activates the
staging copy (R21, R35, R36, R37, R38, R39, R43, R76, R133, R134, R216). Where a clause is the model's own choice:
log entries 2, 4, 18 and 21. -/
def Obligations.TablesAreCommitted : Prop :=
  (∀ (s : State) (n : TableNo), (s.validate n = none ↔ ∀ c ∈ s.checks n, c.holds)
    ∧ ∀ before c after, s.checks n = before ++ c :: after → (∀ d ∈ before, d.holds) → ¬c.holds →
      s.validate n = some (c.cause, c.index))
  ∧ ∀ (dt : Time) (number : Byte) (s : State), s.pinLow = false →
    let c := Instr.commitTable dt number
    let v := s.mgmt.validator
    (3 < number.toNat → exec c s = .next (s.refused dt .range))
    ∧ (∀ n, tableOf number.toNat = some n →
      (v.validating ≠ none → exec c s = .next (s.refused dt .busy))
      ∧ (v.validating = none → n = .cooling → s.mgmt.locked = true → exec c s = .next (s.refused dt .locked))
      ∧ (v.validating = none → n ≠ .cooling ∨ s.mgmt.locked = false → exec c s = .next (({ s with
          time := s.time + dt
          mgmt := { s.mgmt with validator := { v with validating := some n } } } : State).reported .ok [])))
    ∧ (v.validating = none → exec (.validationComplete dt) s = .next (s.advance dt))
    ∧ ∀ n, v.validating = some n →
      (∀ failure, s.validate n = some failure → exec (.validationComplete dt) s = .next
        (({ s with
          time := s.time + dt
          mgmt := { s.mgmt with validator :=
            { validating := none, outcome := .failed, table := some n, failure := some failure } } } : State).raise
          .validationFailed n.number))
      ∧ (s.validate n = none → ∃ t, exec (.validationComplete dt) s = .next t
        ∧ t.mgmt.validator = { validating := none, outcome := .passed, table := some n, failure := none }
        ∧ t.tables = s.tables.setCopies n
            { staging := (s.tables.copies n).staging, active := (s.tables.copies n).staging }
        ∧ t.mgmt.params = s.mgmt.params ∧ t.mgmt.locked = s.mgmt.locked)

/-- SET and READ PARAMETER, LOCK and UNLOCK, HOLD TAPS and RELEASE TAPS: their refusals and what they change (R160,
R161, R194, R195, R196). Where a clause is the model's own choice: log entries 2, 11 and 29. -/
def Obligations.ParametersLockAndHoldAct : Prop :=
  ∀ (dt : Time) (number : Byte) (value : BitVec 32) (s : State), s.pinLow = false →
    let c := Instr.setParameter dt number value
    let k := number.toNat
    let p := s.mgmt.params
    let inRange := ((paramRange k).1 : Int) ≤ value.toInt ∧ value.toInt ≤ ((paramRange k).2 : Int)
    let clash := (k = 10 ∧ value.toNat = p.tokenB) ∨ (k = 11 ∧ value.toNat = p.tokenA)
    let ok := fun u : State => ({ u with time := s.time + dt } : State).reported .ok []
    (p.get k = none → exec c s = .next (s.refused dt .range)
      ∧ exec (.readParameter dt number) s = .next (s.refused dt .range))
    ∧ (∀ old, p.get k = some old →
      (s.mgmt.locked = true → exec c s = .next (s.refused dt .locked))
      ∧ (s.mgmt.locked = false → ¬inRange ∨ clash → exec c s = .next (s.refused dt .range))
      ∧ (s.mgmt.locked = false → inRange → ¬clash → old = value.toNat → exec c s = .next (ok s))
      ∧ (s.mgmt.locked = false → inRange → ¬clash → old ≠ value.toNat →
        ∃ t, exec c s = .next t ∧ t.mgmt.params.get k = some value.toNat
          ∧ (∀ j, j ≠ k → t.mgmt.params.get j = p.get j)
          ∧ t.mgmt.frame = { items := 1, results := [.ok], data := [] }
          ∧ (k ≠ 8 → k ≠ 9 → k ≠ 12 →
            EventEnd s (ok { s with mgmt := { s.mgmt with params := t.mgmt.params } }) t))
      ∧ exec (.readParameter dt number) s = .next ((s.advance dt).reported .ok (enc32 old)))
    ∧ exec (.lock dt) s = .next (ok { s with mgmt := { s.mgmt with locked := true } })
    ∧ ((∃ f : Furnace, 0 < s.heats[f].mass) → exec (.unlock dt) s = .next (s.refused dt .state))
    ∧ ((∀ f : Furnace, s.heats[f].mass = 0) →
      exec (.unlock dt) s = .next (ok { s with mgmt := { s.mgmt with locked := false } }))
    ∧ exec (.holdTaps dt) s = .next (ok { s with taps := { s.taps with held := true } })
    ∧ (s.taps.held = false → exec (.releaseTaps dt) s = .next (ok s))
    ∧ (s.taps.held = true → ∃ t, exec (.releaseTaps dt) s = .next t
      ∧ EventEnd s (ok { s with taps := { s.taps with held := false } }) t { permit := [], attempt := true })

/-- CLEAR CONDITION removes one informational pair; CLEAR COUNTERS zeroes every counter that READ COUNTERS returns
(R199, R201). Where a clause is the model's own choice: log entry 2. -/
def Obligations.ConditionsAndCountersAreCleared : Prop :=
  ∀ (dt : Time) (kind subject : Byte) (s : State), s.pinLow = false →
    let c := Instr.clearCondition dt kind subject
    let informational := fun k : Kind => k = .stale ∨ k = .tapAbort ∨ k = .validationFailed ∨ k = .overheld
      ∨ k = .dipLow ∨ k = .overcharge ∨ k = .chargeRefused ∨ k = .loopDown ∨ k = .mgmtOverrun
    let left := fun k : Kind => s.mgmt.latched.filter fun x => decide (¬(x.kind = k ∧ x.subject = subject.toNat))
    (kind.toNat = 0 ∨ 15 < kind.toNat → exec c s = .next (s.refused dt .range))
    ∧ (∀ k : Kind, k.code = kind.toNat →
      (¬informational k → exec c s = .next (s.refused dt .state))
      ∧ (informational k → (∀ x ∈ s.mgmt.latched, ¬(x.kind = k ∧ x.subject = subject.toNat)) →
        exec c s = .next (s.refused dt .absent))
      ∧ (informational k → (∃ x ∈ s.mgmt.latched, x.kind = k ∧ x.subject = subject.toNat) →
        exec c s = .next (({ s with
          time := s.time + dt, mgmt := { s.mgmt with latched := left k } } : State).reported .ok [])))
    ∧ exec (.clearCounters dt) s = .next (({ s with
        time := s.time + dt
        loop := { s.loop with counters :=
          { valid := 0, bad := 0, hopExpired := 0, stripped := 0, rejectedMgmt := 0, mgmtOverrun := 0,
            rejectedDemands := 0, foreignOrders := 0, transitOverrun := 0, reportDrops := 0, statusDrops := 0,
            transmitted := 0 } }
        intake := { s.intake with counters := { unmatched := 0, duplicates := 0, clamped := 0, shortBodies := 0 } }
        orderClamps := 0, taps := { s.taps with malformed := 0 } } : State).reported .ok [])

/-- Every part of every read record fits a reply, the parts join to the record, and a read moves nothing (R32, R78,
R152, R173, R200, R205). Where a clause is the model's own choice: log entries 2 and 15. -/
def Obligations.ReadsReturnTheirRecords : Prop :=
  (∀ fields : List (List Byte), (recordParts fields).flatten = fields.flatten)
  ∧ ∀ (dt : Time) (n part : Byte) (s : State), s.pinLow = false →
    let s' := s.advance dt
    let returns := fun (c : Instr) (fields : List (List Byte)) =>
      (∀ body, (recordParts fields)[part.toNat]? = some body →
        let b := bytes32 (s.time + dt) ++ (if part = 0 then enc8 (recordParts fields).length else []) ++ body
        b.length ≤ 40 ∧ exec c s = .next (s'.reported .ok b))
      ∧ ((recordParts fields).length ≤ part.toNat → exec c s = .next (s.refused dt .range))
    (furnaceOf n.toNat = none → exec (.readFurnace dt n part) s = .next (s.refused dt .range))
    ∧ (∀ f, furnaceOf n.toNat = some f → returns (.readFurnace dt n part) (s'.furnaceRecord f))
    ∧ (circuitOf n.toNat = none → exec (.readCircuit dt n part) s = .next (s.refused dt .range))
    ∧ (∀ c, circuitOf n.toNat = some c → returns (.readCircuit dt n part) (s'.circuitRecord c))
    ∧ (pointOf n.toNat = none → exec (.readPoint dt n part) s = .next (s.refused dt .range))
    ∧ (∀ i, pointOf n.toNat = some i → (s.point i).used = false →
      exec (.readPoint dt n part) s = .next (s.refused dt .absent))
    ∧ (∀ i l, pointOf n.toNat = some i → (s.point i).used = true → s.intake.live[i] = some l →
      returns (.readPoint dt n part) (pointFields (s.time + dt) (s.point i) l))
    ∧ returns (.readQueues dt part) s'.queuesRecord
    ∧ returns (.readConditions dt part) s'.conditionsRecord
    ∧ returns (.readCounters dt part) s'.countersRecord

/-- RESTART replies, and a warm restart clears orders, queues, counters and conditions but keeps tables, heats and
circuits (R20, R42, R55, R90, R122, R132, R153, R165, R175, R186, R202). Where a clause is the model's own choice:
log entries 2, 12, 19 and 21. -/
def Obligations.RestartKeepsTheMetal : Prop :=
  ∀ (dt : Time) (source seq : Byte) (x : List Byte) (s : State), s.pinLow = false → s.loop.link = .sending x →
    ∃ t, exec (.restart dt source seq) s = .next t ∧ t.time = s.time + dt ∧ t.pinLow = false
      ∧ t.loop.reply = some { dest := source, body := [seq, 1, 0x0F] }
      ∧ t.tables = s.tables ∧ t.mgmt.locked = s.mgmt.locked
      ∧ t.mgmt.params = (if s.mgmt.locked then s.mgmt.params else Params.default)
      ∧ t.mgmt.selection = none ∧ t.mgmt.latch = 0
      ∧ t.intake = { s.intake with counters := IntakeCounters.zero }
      ∧ t.contacts = { s.contacts with
          changePending := false, overrun := false, snapshot := none, driven := t.contacts.driven }
      ∧ (∀ o : OutputNo, t.contacts.driven[o] = t.outputLevel o)
      ∧ t.loop.station = s.loop.station ∧ t.loop.transit = s.loop.transit ∧ t.loop.link = .sending x
      ∧ t.loop.seq = s.loop.seq ∧ t.loop.turn = .transit ∧ t.loop.live = .up
      ∧ t.loop.counters = { LoopCounters.zero with reportDrops := t.mgmt.latched.length - 12 }
      ∧ t.loop.reports.length = min 12 t.mgmt.latched.length
      ∧ (∀ f : Furnace, t.loop.orders[f] = if 0 < (s.profile f).rated then
          some { value := 0, station := (s.profile f).inverter, channel := (s.profile f).channel, cls := .safety }
        else none)
      ∧ t.loop.statuses = [{
          dest := if t.mgmt.params.pouringLine = 0 then 255 else BitVec.ofNat 8 t.mgmt.params.pouringLine
          kind := .cleared, demand := none, furnace := none, poured := none }]
      ∧ t.orderClamps = 0 ∧ t.taps.malformed = 0
      ∧ (∀ f : Furnace, t.power[f].ordered = 0 ∧ t.power[f].issued = 0)
      ∧ t.taps.queue = [] ∧ t.taps.station = .idle ∧ t.taps.pour = none ∧ t.taps.ready = [] ∧ t.taps.held = false
      ∧ t.watch.state = .stopped ∧ t.watch.timer = .idle ∧ t.watch.expiries = s.watch.expiries
      ∧ t.watch.run = (if s.watch.run = .allStop ∧ s.contacts.ind.estop = true then .allStop else .run)
      ∧ t.mgmt.validator.validating = none
      ∧ (∀ n, s.mgmt.validator.validating = some n →
        t.mgmt.validator = { validating := none, outcome := .abandoned, table := some n, failure := none })
      ∧ (∀ f : Furnace, (s.taps.station = .idle ∨ ∀ r, s.taps.pour = some r → r.furnace ≠ f) →
        t.heats[f] = s.heats[f])
      ∧ (∀ r, s.taps.pour = some r →
        let f := r.furnace
        let h := s.heats[f]
        let left := h.mass - min (s.taps.ladle.getD 0 - r.tare.getD 0) h.mass
        let scaled : Heat := { h with mass := left, energy := h.energy * left / h.mass, residue := 0 }
        let tilted := (∃ a, s.taps.tilt[f] = some a ∧ t.mgmt.params.tiltHome < a) ∨ s.intake.stale.tilt[f] = true
        let locked := fun (l : Option Lockout) => (tilted → l = if h.lockout = some .follow then h.lockout else some .tilt)
          ∧ (¬tilted → l = h.lockout)
        (s.taps.station = .assigned ∨ s.taps.station = .permitted → t.heats[f] = { h with phase := .holding })
        ∧ (s.taps.station = .pouring ∨ s.taps.station = .returning → locked t.heats[f].lockout
          ∧ (left = 0 → t.heats[f] = { Heat.cold with lockout := t.heats[f].lockout })
          ∧ (0 < left → left < 100 → t.heats[f] = { scaled with
              phase := .melting, progress := none, temp := none, approval := none, holdStart := none, holdTimer := .idle
              lockout := t.heats[f].lockout })
          ∧ (100 ≤ left → t.heats[f] = { scaled.estimate (s.profile f) with
              phase := .holding, lockout := t.heats[f].lockout })))
      ∧ (∀ f : Furnace, t.holding[f] = s.holding[f].after t.heats[f] (s.profile f) t.time)
      ∧ (∀ c : CircuitNo, t.circuits[c] = { s.circuits[c] with water := t.circuits[c].water })
      ∧ (∀ y ∈ t.mgmt.latched, y.time = t.time)
      ∧ (∀ k n, t.isLatched k n = true ↔
        (k = .allStop ∧ n = 0 ∧ t.watch.run = .allStop)
        ∨ (∃ c : CircuitNo, k = .circuitTrip ∧ n = numberOf c ∧ t.circuits[c].state = .trip)
        ∨ (∃ f : Furnace, k = .followFault ∧ n = numberOf f ∧ t.heats[f].lockout = some .follow)
        ∨ ∃ f : Furnace, k = .tiltFault ∧ n = numberOf f ∧ t.heats[f].lockout = some .tilt)

/-- Every step keeps the latched-condition set in priority order, each pair at most once, with a subject of its kind
(R30, R39, R71, R197, R199). -/
def Obligations.LatchedConditionsStayInOrder : Prop :=
  ∀ s t : State, s.latchSafe → step s = .next t → t.latchSafe

/-- A charge opens, feeds or is refused by the furnace it names: mass, phase, dip, approval, hold start and its
conditions (R28, R59, R62, R63, R64, R65, R95). Where a clause is the model's own choice: log entries 11, 17 and 29.
-/
def Obligations.ChargesAreTakenOrRefused : Prop :=
  ∀ (dt : Time) (bytes : List Byte) (fr : Frame) (i : PointNo) (l : PointLive) (v : Int) (f : Furnace) (s : State),
    SampleAccepted s bytes fr i l v → (s.point i).kind = some .chargeMass → furnaceOf (s.point i).owner.toNat = some f →
    let m := v.toNat
    let h := s.heats[f]
    let p := s.profile f
    let now := s.time + dt
    let ends := fun change : State → State =>
      ∃ t, exec (.frameArrival dt bytes) s = .next t ∧ EventEnd s (change (s.sampled dt fr t.intake)) t
    let capped := fun (total : Nat) (u : State) => if p.capacity < total then u.raise .overcharge (numberOf f) else u
    let opened : Heat := { h with
      id := some (h.id.getD 0)
      bands := if h.id = none then
          some { holdLow := p.holdLow, holdHigh := p.holdHigh, tapLow := p.tapLow, tapHigh := p.tapHigh }
        else h.bands
      mass := min p.capacity m, phase := .melting, uncertain := h.uncertain || s.intake.stale.power[f] }
    let first := (opened.estimate p).phaseTest now
    let fed := ({ h with
      mass := min p.capacity (h.mass + m), dip := none, anchor := none, approval := none, holdStart := none
      holdTimer := .idle } : Heat).estimate p
    let further := ({ fed with phase := if fed.progress = some 1000 then .superheat else .melting } : Heat).phaseTest now
    (m = 0 → ends id)
    ∧ (m ≠ 0 → p.rated = 0 → ends fun u => u.raise .chargeRefused (numberOf f))
    ∧ (m ≠ 0 → 0 < p.rated → h.phase = .tapAssigned ∨ h.phase = .tapping →
      ends fun u => u.raise .chargeRefused (numberOf f))
    ∧ (m ≠ 0 → 0 < p.rated → h.phase = .empty →
      (ends fun u => capped m { u with heats := u.heats.set f first })
      ∧ (h.energy = 0 → first.phase = .melting ∧ first.temp = none
        ∧ first.progress = if min p.capacity m < 100 then none else some 0))
    ∧ (m ≠ 0 → 0 < p.rated → h.phase = .melting ∨ h.phase = .superheat ∨ h.phase = .holding →
      ends fun u => capped (h.mass + m) { u with
        heats := u.heats.set f further, taps := { u.taps with dipAge := u.taps.dipAge.set f .idle } })

/-- A tilt value starts a pour, brings it back and completes it at home; a ladle value counts it and ends it at its
target (R28, R90, R154, R162, R163, R164, R165, R168). Where a clause is the model's own choice: log entries 11, 17
and 29. -/
def Obligations.PoursFollowTiltAndLadle : Prop :=
  ∀ (dt : Time) (bytes : List Byte) (fr : Frame) (i : PointNo) (l : PointLive) (v : Int) (s : State), SampleAccepted s bytes fr i l v →
    let now := s.time + dt
    let prm := s.mgmt.params
    let station := s.taps.station
    let endsWith := fun (x : Causes) (change : State → State) =>
      ∃ t, exec (.frameArrival dt bytes) s = .next t ∧ EventEnd s (change (s.sampled dt fr t.intake)) t x
    (∀ f, (s.point i).kind = some .tiltAngle → furnaceOf (s.point i).owner.toNat = some f →
      let ends := endsWith (Causes.testing [f])
      let seen := fun u : State => ({ u with taps := { u.taps with tilt := u.taps.tilt.set f (some v.toNat) } } : State)
      let home := v.toNat ≤ prm.tiltHome
      let tapping := fun u : State => ({ u with
        heats := u.heats.set f { u.heats[f] with phase := .tapping }
        taps := { u.taps with tiltStart := .idle } } : State)
      (s.taps.pour = none ∨ (∃ r, s.taps.pour = some r ∧ r.furnace ≠ f) ∨ station = .assigned → ends seen)
      ∧ ∀ r, s.taps.pour = some r → r.furnace = f →
        (station = .permitted → home → ends seen)
        ∧ (station = .permitted → ¬home → s.intake.stale.ladle = false → ends fun u => let w := tapping (seen u)
          { w with taps := { w.taps with
            station := .pouring, pourTimer := .running now (prm.pourTimeout * 1000) } })
        ∧ (station = .permitted → ¬home → s.intake.stale.ladle = true → ends fun u =>
          ((tapping (seen u)).returning { r with abort := true }).raise .tapAbort (numberOf f))
        ∧ (station = .pouring ∨ station = .returning → ¬home → ends seen)
        ∧ (station = .pouring → home → s.contacts.ind.tiltHome[f] = false → ends fun u => (seen u).returning r)
        ∧ (station = .pouring → home → s.contacts.ind.tiltHome[f] = true → ends fun u =>
          ((seen u).returning r).afterPour r)
        ∧ (station = .returning → home → s.contacts.ind.tiltHome[f] = false → ends seen)
        ∧ (station = .returning → home → s.contacts.ind.tiltHome[f] = true → ends fun u => (seen u).afterPour r))
    ∧ ((s.point i).kind = some .ladleMass →
      let ends := endsWith (Causes.testing furnaces)
      let seen := fun u : State => ({ u with taps := { u.taps with ladle := some v.toNat } } : State)
      (station = .idle ∨ station = .assigned ∨ station = .permitted → ends seen)
      ∧ ∀ r, s.taps.pour = some r →
        let r' : Pour := { r with poured := v.toNat - r.tare.getD 0 }
        let target := r.demand.mass - prm.pourLead
        let counted := fun u : State => let w := seen u
          ({ w with taps := { w.taps with pour := some r' } } : State)
        (station = .returning → ends counted)
        ∧ (station = .pouring → r'.poured < target → ends counted)
        ∧ (station = .pouring → target ≤ r'.poured → ¬s.isHome r.furnace → ends fun u => (seen u).returning r')
        ∧ (station = .pouring → target ≤ r'.poured → s.isHome r.furnace → ends fun u =>
          ((seen u).returning r').afterPour r'))

/-- A passed commit carries over live states, re-anchors accounts and re-places orders, treats circuits by their
flags, re-filters (R40, R41, R54, R93, R94, R112, R150). Where a clause is the model's own choice: log entries 11
and 30. -/
def Obligations.CommitsActOnTheShop : Prop :=
  ∀ (dt : Time) (n : TableNo) (s : State), s.pinLow = false → s.mgmt.validator.validating = some n →
    s.validate n = none →
    let now := s.time + dt
    ∃ t, exec (.validationComplete dt) s = .next t
      ∧ (n = .profile → ∀ f : Furnace,
        let h := s.heats[f]
        let g := t.heats[f]
        let old := s.profile f
        let new := profileEntry s.tables.profile.staging f
        let same := new.meltEnergy = old.meltEnergy ∧ new.heatCapacity = old.heatCapacity ∧ new.liquidus = old.liquidus
        g.mass = h.mass ∧ g.anchor = h.anchor ∧ g.uncertain = h.uncertain
        ∧ g.progress = progressOf new g.mass g.energy ∧ g.temp = tempOf new g.mass g.energy
        ∧ (h.mass < 100 ∨ same → g.energy = h.energy ∧ g.residue = h.residue)
        ∧ (∀ td, 100 ≤ h.mass → ¬same → h.progress = some 1000 → h.temp = some td → g.residue = 0
          ∧ g.energy = h.mass * new.meltEnergy
            + ((max new.liquidus (min 1800 td) - new.liquidus).toNat * h.mass * new.heatCapacity + 999) / 1000)
        ∧ (∀ k, 100 ≤ h.mass → ¬same → h.progress = some k → k < 1000 → g.residue = 0
          ∧ g.energy = (k * h.mass * new.meltEnergy + 999) / 1000)
        ∧ t.power[f].ordered = min s.power[f].ordered new.rated
        ∧ (new.rated = 0 → t.power[f].refresh = .idle)
        ∧ (0 < new.rated → t.power[f].refresh = .running now s.mgmt.params.orderRefresh
          ∧ ∀ x, s.loop.link = .sending x → ∃ cls, t.loop.orders[f] = some
            { value := t.power[f].issued, station := new.inverter, channel := new.channel, cls := cls }))
      ∧ (n = .cooling → ∀ c : CircuitNo,
        let x := s.circuits[c]
        let y := t.circuits[c]
        let was := (s.cooling c).enabled
        let new := coolingEntry s.tables.cooling.staging c
        let due := ∃ t0, x.start = .running t0 ∧ new.startWindow * 1000 ≤ (now - t0).toNat
        let ended := x.state = .starting ∧ s.contacts.ind.pumpRun[c] = true
        let kept := y = { x with water := y.water }
        (was = false → new.enabled = false → kept)
        ∧ (was = false → new.enabled = true → s.contacts.ind.leak[c] = false →
          y = { Circuit.cold with state := .starting, start := .running now })
        ∧ (was = false → new.enabled = true → s.contacts.ind.leak[c] = true →
          y.state = .trip ∧ y.start = .idle ∧ y.trip = some { cause := .leak, time := now, value := none }
          ∧ t.isLatched .circuitTrip (numberOf c) = true)
        ∧ (was = true → new.enabled = false → y = Circuit.cold)
        ∧ (was = true → new.enabled = true → ¬due → kept)
        ∧ (was = true → new.enabled = true → due → ¬ended → y = { x with start := .expired, water := y.water })
        ∧ (was = true → new.enabled = true → due → ended → s.firstCause c = none →
          y = { x with state := x.byLevels, start := .idle })
        ∧ ∀ cause, was = true → new.enabled = true → due → ended → s.firstCause c = some cause →
          y.state = .trip ∧ y.start = .idle
          ∧ y.trip = some { cause := cause, time := now, value := x.causeValue cause }
          ∧ t.isLatched .circuitTrip (numberOf c) = true)
      ∧ (n = .point → t.intake.stale = t.staleIndications ∧ ∀ i : PointNo,
        let e := pointEntry s.tables.point.staging i
        let carries := fun j : PointNo => (s.point j).used = true ∧ (s.point j).station = e.station
          ∧ (s.point j).channel = e.channel ∧ (s.point j).kindCode = e.kindCode
        (e.used = false → t.intake.live[i] = none)
        ∧ (e.used = true → (∀ j, ¬carries j) → t.intake.live[i] = some
          { value := none, seq := none, accepted := none, staleRef := now, clampedLast := false
            questionableLast := false, stale := false })
        ∧ ∀ j q, e.used = true → carries j → (∀ k, carries k → k = j) → s.intake.live[j] = some q →
          let reached := e.limit ≠ 0 ∧ e.limit ≤ (now - q.staleRef).toNat
          t.intake.live[i] = some { q with stale := decide (e.limit ≠ 0 ∧ (q.stale = true ∨ reached)) }
          ∧ (q.stale = false → reached → t.isLatched .stale i.val = true))
      ∧ (n = .contact → t.contacts.raw = s.contacts.raw ∧ t.contacts.ind = t.indications
        ∧ (∀ i : InputNo,
          let class' := (inputEntry s.tables.contact.staging i).filter
          let due := ∃ t0, s.contacts.persistence[i] = .running t0 ∧ persistenceTime class' ≤ (now - t0).toNat
          (due → t.contacts.filtered[i] = s.contacts.raw[i] ∧ t.contacts.persistence[i] = .idle)
          ∧ (¬due → t.contacts.filtered[i] = s.contacts.filtered[i]
            ∧ t.contacts.persistence[i] = s.contacts.persistence[i]))
        ∧ ∀ o : OutputNo, t.contacts.driven[o] = t.outputLevel o
          ∧ t.contacts.commanded[o] =
            if (outputEntry s.tables.contact.staging o).function = fnManual ∧ (s.output o).function ≠ fnManual then false
            else s.contacts.commanded[o])
end

