-- ==== Sys2Proof/Laws/State.lean ====
section
/-! SUPPORT. What each update of the state leaves in each field: one lemma per field per update, true by `rfl`, so that
no proof unfolds a record update. -/

namespace Sys2Proof.Machine

variable (s : State)

@[simp] theorem State.advance_pending (dt : Time) : (s.advance dt).pending = s.pending := rfl
@[simp] theorem State.advance_time (dt : Time) : (s.advance dt).time = s.time + dt := rfl
@[simp] theorem State.advance_pinLow (dt : Time) : (s.advance dt).pinLow = s.pinLow := rfl
@[simp] theorem State.advance_loop (dt : Time) : (s.advance dt).loop = s.loop := rfl
@[simp] theorem State.advance_intake (dt : Time) : (s.advance dt).intake = s.intake := rfl
@[simp] theorem State.advance_tables (dt : Time) : (s.advance dt).tables = s.tables := rfl
@[simp] theorem State.advance_contacts (dt : Time) : (s.advance dt).contacts = s.contacts := rfl
@[simp] theorem State.advance_heats (dt : Time) : (s.advance dt).heats = s.heats := rfl
@[simp] theorem State.advance_power (dt : Time) : (s.advance dt).power = s.power := rfl
@[simp] theorem State.advance_orderClamps (dt : Time) : (s.advance dt).orderClamps = s.orderClamps := rfl
@[simp] theorem State.advance_holding (dt : Time) : (s.advance dt).holding = s.holding := rfl
@[simp] theorem State.advance_circuits (dt : Time) : (s.advance dt).circuits = s.circuits := rfl
@[simp] theorem State.advance_taps (dt : Time) : (s.advance dt).taps = s.taps := rfl
@[simp] theorem State.advance_watch (dt : Time) : (s.advance dt).watch = s.watch := rfl
@[simp] theorem State.advance_mgmt (dt : Time) : (s.advance dt).mgmt = s.mgmt := rfl

@[simp] theorem State.withPending_pending (q : List Instr) : (s.withPending q).pending = q := rfl
@[simp] theorem State.withPending_time (q : List Instr) : (s.withPending q).time = s.time := rfl
@[simp] theorem State.withPending_pinLow (q : List Instr) : (s.withPending q).pinLow = s.pinLow := rfl
@[simp] theorem State.withPending_loop (q : List Instr) : (s.withPending q).loop = s.loop := rfl
@[simp] theorem State.withPending_intake (q : List Instr) : (s.withPending q).intake = s.intake := rfl
@[simp] theorem State.withPending_tables (q : List Instr) : (s.withPending q).tables = s.tables := rfl
@[simp] theorem State.withPending_contacts (q : List Instr) : (s.withPending q).contacts = s.contacts := rfl
@[simp] theorem State.withPending_heats (q : List Instr) : (s.withPending q).heats = s.heats := rfl
@[simp] theorem State.withPending_power (q : List Instr) : (s.withPending q).power = s.power := rfl
@[simp] theorem State.withPending_orderClamps (q : List Instr) : (s.withPending q).orderClamps = s.orderClamps := rfl
@[simp] theorem State.withPending_holding (q : List Instr) : (s.withPending q).holding = s.holding := rfl
@[simp] theorem State.withPending_circuits (q : List Instr) : (s.withPending q).circuits = s.circuits := rfl
@[simp] theorem State.withPending_taps (q : List Instr) : (s.withPending q).taps = s.taps := rfl
@[simp] theorem State.withPending_watch (q : List Instr) : (s.withPending q).watch = s.watch := rfl
@[simp] theorem State.withPending_mgmt (q : List Instr) : (s.withPending q).mgmt = s.mgmt := rfl

@[simp] theorem State.withLoop_pending (l : LoopPort) : (s.withLoop l).pending = s.pending := rfl
@[simp] theorem State.withLoop_time (l : LoopPort) : (s.withLoop l).time = s.time := rfl
@[simp] theorem State.withLoop_pinLow (l : LoopPort) : (s.withLoop l).pinLow = s.pinLow := rfl
@[simp] theorem State.withLoop_loop (l : LoopPort) : (s.withLoop l).loop = l := rfl
@[simp] theorem State.withLoop_intake (l : LoopPort) : (s.withLoop l).intake = s.intake := rfl
@[simp] theorem State.withLoop_tables (l : LoopPort) : (s.withLoop l).tables = s.tables := rfl
@[simp] theorem State.withLoop_contacts (l : LoopPort) : (s.withLoop l).contacts = s.contacts := rfl
@[simp] theorem State.withLoop_heats (l : LoopPort) : (s.withLoop l).heats = s.heats := rfl
@[simp] theorem State.withLoop_power (l : LoopPort) : (s.withLoop l).power = s.power := rfl
@[simp] theorem State.withLoop_orderClamps (l : LoopPort) : (s.withLoop l).orderClamps = s.orderClamps := rfl
@[simp] theorem State.withLoop_holding (l : LoopPort) : (s.withLoop l).holding = s.holding := rfl
@[simp] theorem State.withLoop_circuits (l : LoopPort) : (s.withLoop l).circuits = s.circuits := rfl
@[simp] theorem State.withLoop_taps (l : LoopPort) : (s.withLoop l).taps = s.taps := rfl
@[simp] theorem State.withLoop_watch (l : LoopPort) : (s.withLoop l).watch = s.watch := rfl
@[simp] theorem State.withLoop_mgmt (l : LoopPort) : (s.withLoop l).mgmt = s.mgmt := rfl

@[simp] theorem State.withStale_pending (x : StaleInd) : (s.withStale x).pending = s.pending := rfl
@[simp] theorem State.withStale_time (x : StaleInd) : (s.withStale x).time = s.time := rfl
@[simp] theorem State.withStale_pinLow (x : StaleInd) : (s.withStale x).pinLow = s.pinLow := rfl
@[simp] theorem State.withStale_loop (x : StaleInd) : (s.withStale x).loop = s.loop := rfl
@[simp] theorem State.withStale_intake (x : StaleInd) : (s.withStale x).intake = { s.intake with stale := x } := rfl
@[simp] theorem State.withStale_tables (x : StaleInd) : (s.withStale x).tables = s.tables := rfl
@[simp] theorem State.withStale_contacts (x : StaleInd) : (s.withStale x).contacts = s.contacts := rfl
@[simp] theorem State.withStale_heats (x : StaleInd) : (s.withStale x).heats = s.heats := rfl
@[simp] theorem State.withStale_power (x : StaleInd) : (s.withStale x).power = s.power := rfl
@[simp] theorem State.withStale_orderClamps (x : StaleInd) : (s.withStale x).orderClamps = s.orderClamps := rfl
@[simp] theorem State.withStale_holding (x : StaleInd) : (s.withStale x).holding = s.holding := rfl
@[simp] theorem State.withStale_circuits (x : StaleInd) : (s.withStale x).circuits = s.circuits := rfl
@[simp] theorem State.withStale_taps (x : StaleInd) : (s.withStale x).taps = s.taps := rfl
@[simp] theorem State.withStale_watch (x : StaleInd) : (s.withStale x).watch = s.watch := rfl
@[simp] theorem State.withStale_mgmt (x : StaleInd) : (s.withStale x).mgmt = s.mgmt := rfl

@[simp] theorem State.withIntakeCounters_pending (x : IntakeCounters) : (s.withIntakeCounters x).pending = s.pending := rfl
@[simp] theorem State.withIntakeCounters_time (x : IntakeCounters) : (s.withIntakeCounters x).time = s.time := rfl
@[simp] theorem State.withIntakeCounters_pinLow (x : IntakeCounters) : (s.withIntakeCounters x).pinLow = s.pinLow := rfl
@[simp] theorem State.withIntakeCounters_loop (x : IntakeCounters) : (s.withIntakeCounters x).loop = s.loop := rfl
@[simp] theorem State.withIntakeCounters_intake (x : IntakeCounters) : (s.withIntakeCounters x).intake = { s.intake with counters := x } := rfl
@[simp] theorem State.withIntakeCounters_tables (x : IntakeCounters) : (s.withIntakeCounters x).tables = s.tables := rfl
@[simp] theorem State.withIntakeCounters_contacts (x : IntakeCounters) : (s.withIntakeCounters x).contacts = s.contacts := rfl
@[simp] theorem State.withIntakeCounters_heats (x : IntakeCounters) : (s.withIntakeCounters x).heats = s.heats := rfl
@[simp] theorem State.withIntakeCounters_power (x : IntakeCounters) : (s.withIntakeCounters x).power = s.power := rfl
@[simp] theorem State.withIntakeCounters_orderClamps (x : IntakeCounters) : (s.withIntakeCounters x).orderClamps = s.orderClamps := rfl
@[simp] theorem State.withIntakeCounters_holding (x : IntakeCounters) : (s.withIntakeCounters x).holding = s.holding := rfl
@[simp] theorem State.withIntakeCounters_circuits (x : IntakeCounters) : (s.withIntakeCounters x).circuits = s.circuits := rfl
@[simp] theorem State.withIntakeCounters_taps (x : IntakeCounters) : (s.withIntakeCounters x).taps = s.taps := rfl
@[simp] theorem State.withIntakeCounters_watch (x : IntakeCounters) : (s.withIntakeCounters x).watch = s.watch := rfl
@[simp] theorem State.withIntakeCounters_mgmt (x : IntakeCounters) : (s.withIntakeCounters x).mgmt = s.mgmt := rfl

@[simp] theorem State.setLive_pending (i : PointNo) (l : Option PointLive) : (s.setLive i l).pending = s.pending := rfl
@[simp] theorem State.setLive_time (i : PointNo) (l : Option PointLive) : (s.setLive i l).time = s.time := rfl
@[simp] theorem State.setLive_pinLow (i : PointNo) (l : Option PointLive) : (s.setLive i l).pinLow = s.pinLow := rfl
@[simp] theorem State.setLive_loop (i : PointNo) (l : Option PointLive) : (s.setLive i l).loop = s.loop := rfl
@[simp] theorem State.setLive_intake (i : PointNo) (l : Option PointLive) : (s.setLive i l).intake = { s.intake with live := s.intake.live.set i l } := rfl
@[simp] theorem State.setLive_tables (i : PointNo) (l : Option PointLive) : (s.setLive i l).tables = s.tables := rfl
@[simp] theorem State.setLive_contacts (i : PointNo) (l : Option PointLive) : (s.setLive i l).contacts = s.contacts := rfl
@[simp] theorem State.setLive_heats (i : PointNo) (l : Option PointLive) : (s.setLive i l).heats = s.heats := rfl
@[simp] theorem State.setLive_power (i : PointNo) (l : Option PointLive) : (s.setLive i l).power = s.power := rfl
@[simp] theorem State.setLive_orderClamps (i : PointNo) (l : Option PointLive) : (s.setLive i l).orderClamps = s.orderClamps := rfl
@[simp] theorem State.setLive_holding (i : PointNo) (l : Option PointLive) : (s.setLive i l).holding = s.holding := rfl
@[simp] theorem State.setLive_circuits (i : PointNo) (l : Option PointLive) : (s.setLive i l).circuits = s.circuits := rfl
@[simp] theorem State.setLive_taps (i : PointNo) (l : Option PointLive) : (s.setLive i l).taps = s.taps := rfl
@[simp] theorem State.setLive_watch (i : PointNo) (l : Option PointLive) : (s.setLive i l).watch = s.watch := rfl
@[simp] theorem State.setLive_mgmt (i : PointNo) (l : Option PointLive) : (s.setLive i l).mgmt = s.mgmt := rfl

@[simp] theorem State.withContacts_pending (c : Contacts) : (s.withContacts c).pending = s.pending := rfl
@[simp] theorem State.withContacts_time (c : Contacts) : (s.withContacts c).time = s.time := rfl
@[simp] theorem State.withContacts_pinLow (c : Contacts) : (s.withContacts c).pinLow = s.pinLow := rfl
@[simp] theorem State.withContacts_loop (c : Contacts) : (s.withContacts c).loop = s.loop := rfl
@[simp] theorem State.withContacts_intake (c : Contacts) : (s.withContacts c).intake = s.intake := rfl
@[simp] theorem State.withContacts_tables (c : Contacts) : (s.withContacts c).tables = s.tables := rfl
@[simp] theorem State.withContacts_contacts (c : Contacts) : (s.withContacts c).contacts = c := rfl
@[simp] theorem State.withContacts_heats (c : Contacts) : (s.withContacts c).heats = s.heats := rfl
@[simp] theorem State.withContacts_power (c : Contacts) : (s.withContacts c).power = s.power := rfl
@[simp] theorem State.withContacts_orderClamps (c : Contacts) : (s.withContacts c).orderClamps = s.orderClamps := rfl
@[simp] theorem State.withContacts_holding (c : Contacts) : (s.withContacts c).holding = s.holding := rfl
@[simp] theorem State.withContacts_circuits (c : Contacts) : (s.withContacts c).circuits = s.circuits := rfl
@[simp] theorem State.withContacts_taps (c : Contacts) : (s.withContacts c).taps = s.taps := rfl
@[simp] theorem State.withContacts_watch (c : Contacts) : (s.withContacts c).watch = s.watch := rfl
@[simp] theorem State.withContacts_mgmt (c : Contacts) : (s.withContacts c).mgmt = s.mgmt := rfl

@[simp] theorem State.setHeat_pending (f : Furnace) (h : Heat) : (s.setHeat f h).pending = s.pending := rfl
@[simp] theorem State.setHeat_time (f : Furnace) (h : Heat) : (s.setHeat f h).time = s.time := rfl
@[simp] theorem State.setHeat_pinLow (f : Furnace) (h : Heat) : (s.setHeat f h).pinLow = s.pinLow := rfl
@[simp] theorem State.setHeat_loop (f : Furnace) (h : Heat) : (s.setHeat f h).loop = s.loop := rfl
@[simp] theorem State.setHeat_intake (f : Furnace) (h : Heat) : (s.setHeat f h).intake = s.intake := rfl
@[simp] theorem State.setHeat_tables (f : Furnace) (h : Heat) : (s.setHeat f h).tables = s.tables := rfl
@[simp] theorem State.setHeat_contacts (f : Furnace) (h : Heat) : (s.setHeat f h).contacts = s.contacts := rfl
@[simp] theorem State.setHeat_heats (f : Furnace) (h : Heat) : (s.setHeat f h).heats = s.heats.set f h := rfl
@[simp] theorem State.setHeat_power (f : Furnace) (h : Heat) : (s.setHeat f h).power = s.power := rfl
@[simp] theorem State.setHeat_orderClamps (f : Furnace) (h : Heat) : (s.setHeat f h).orderClamps = s.orderClamps := rfl
@[simp] theorem State.setHeat_holding (f : Furnace) (h : Heat) : (s.setHeat f h).holding = s.holding := rfl
@[simp] theorem State.setHeat_circuits (f : Furnace) (h : Heat) : (s.setHeat f h).circuits = s.circuits := rfl
@[simp] theorem State.setHeat_taps (f : Furnace) (h : Heat) : (s.setHeat f h).taps = s.taps := rfl
@[simp] theorem State.setHeat_watch (f : Furnace) (h : Heat) : (s.setHeat f h).watch = s.watch := rfl
@[simp] theorem State.setHeat_mgmt (f : Furnace) (h : Heat) : (s.setHeat f h).mgmt = s.mgmt := rfl

@[simp] theorem State.setPower_pending (f : Furnace) (p : Power) : (s.setPower f p).pending = s.pending := rfl
@[simp] theorem State.setPower_time (f : Furnace) (p : Power) : (s.setPower f p).time = s.time := rfl
@[simp] theorem State.setPower_pinLow (f : Furnace) (p : Power) : (s.setPower f p).pinLow = s.pinLow := rfl
@[simp] theorem State.setPower_loop (f : Furnace) (p : Power) : (s.setPower f p).loop = s.loop := rfl
@[simp] theorem State.setPower_intake (f : Furnace) (p : Power) : (s.setPower f p).intake = s.intake := rfl
@[simp] theorem State.setPower_tables (f : Furnace) (p : Power) : (s.setPower f p).tables = s.tables := rfl
@[simp] theorem State.setPower_contacts (f : Furnace) (p : Power) : (s.setPower f p).contacts = s.contacts := rfl
@[simp] theorem State.setPower_heats (f : Furnace) (p : Power) : (s.setPower f p).heats = s.heats := rfl
@[simp] theorem State.setPower_power (f : Furnace) (p : Power) : (s.setPower f p).power = s.power.set f p := rfl
@[simp] theorem State.setPower_orderClamps (f : Furnace) (p : Power) : (s.setPower f p).orderClamps = s.orderClamps := rfl
@[simp] theorem State.setPower_holding (f : Furnace) (p : Power) : (s.setPower f p).holding = s.holding := rfl
@[simp] theorem State.setPower_circuits (f : Furnace) (p : Power) : (s.setPower f p).circuits = s.circuits := rfl
@[simp] theorem State.setPower_taps (f : Furnace) (p : Power) : (s.setPower f p).taps = s.taps := rfl
@[simp] theorem State.setPower_watch (f : Furnace) (p : Power) : (s.setPower f p).watch = s.watch := rfl
@[simp] theorem State.setPower_mgmt (f : Furnace) (p : Power) : (s.setPower f p).mgmt = s.mgmt := rfl

@[simp] theorem State.setHolding_pending (f : Furnace) (h : Holding) : (s.setHolding f h).pending = s.pending := rfl
@[simp] theorem State.setHolding_time (f : Furnace) (h : Holding) : (s.setHolding f h).time = s.time := rfl
@[simp] theorem State.setHolding_pinLow (f : Furnace) (h : Holding) : (s.setHolding f h).pinLow = s.pinLow := rfl
@[simp] theorem State.setHolding_loop (f : Furnace) (h : Holding) : (s.setHolding f h).loop = s.loop := rfl
@[simp] theorem State.setHolding_intake (f : Furnace) (h : Holding) : (s.setHolding f h).intake = s.intake := rfl
@[simp] theorem State.setHolding_tables (f : Furnace) (h : Holding) : (s.setHolding f h).tables = s.tables := rfl
@[simp] theorem State.setHolding_contacts (f : Furnace) (h : Holding) : (s.setHolding f h).contacts = s.contacts := rfl
@[simp] theorem State.setHolding_heats (f : Furnace) (h : Holding) : (s.setHolding f h).heats = s.heats := rfl
@[simp] theorem State.setHolding_power (f : Furnace) (h : Holding) : (s.setHolding f h).power = s.power := rfl
@[simp] theorem State.setHolding_orderClamps (f : Furnace) (h : Holding) : (s.setHolding f h).orderClamps = s.orderClamps := rfl
@[simp] theorem State.setHolding_holding (f : Furnace) (h : Holding) : (s.setHolding f h).holding = s.holding.set f h := rfl
@[simp] theorem State.setHolding_circuits (f : Furnace) (h : Holding) : (s.setHolding f h).circuits = s.circuits := rfl
@[simp] theorem State.setHolding_taps (f : Furnace) (h : Holding) : (s.setHolding f h).taps = s.taps := rfl
@[simp] theorem State.setHolding_watch (f : Furnace) (h : Holding) : (s.setHolding f h).watch = s.watch := rfl
@[simp] theorem State.setHolding_mgmt (f : Furnace) (h : Holding) : (s.setHolding f h).mgmt = s.mgmt := rfl

@[simp] theorem State.setCircuit_pending (c : CircuitNo) (x : Circuit) : (s.setCircuit c x).pending = s.pending := rfl
@[simp] theorem State.setCircuit_time (c : CircuitNo) (x : Circuit) : (s.setCircuit c x).time = s.time := rfl
@[simp] theorem State.setCircuit_pinLow (c : CircuitNo) (x : Circuit) : (s.setCircuit c x).pinLow = s.pinLow := rfl
@[simp] theorem State.setCircuit_loop (c : CircuitNo) (x : Circuit) : (s.setCircuit c x).loop = s.loop := rfl
@[simp] theorem State.setCircuit_intake (c : CircuitNo) (x : Circuit) : (s.setCircuit c x).intake = s.intake := rfl
@[simp] theorem State.setCircuit_tables (c : CircuitNo) (x : Circuit) : (s.setCircuit c x).tables = s.tables := rfl
@[simp] theorem State.setCircuit_contacts (c : CircuitNo) (x : Circuit) : (s.setCircuit c x).contacts = s.contacts := rfl
@[simp] theorem State.setCircuit_heats (c : CircuitNo) (x : Circuit) : (s.setCircuit c x).heats = s.heats := rfl
@[simp] theorem State.setCircuit_power (c : CircuitNo) (x : Circuit) : (s.setCircuit c x).power = s.power := rfl
@[simp] theorem State.setCircuit_orderClamps (c : CircuitNo) (x : Circuit) : (s.setCircuit c x).orderClamps = s.orderClamps := rfl
@[simp] theorem State.setCircuit_holding (c : CircuitNo) (x : Circuit) : (s.setCircuit c x).holding = s.holding := rfl
@[simp] theorem State.setCircuit_circuits (c : CircuitNo) (x : Circuit) : (s.setCircuit c x).circuits = s.circuits.set c x := rfl
@[simp] theorem State.setCircuit_taps (c : CircuitNo) (x : Circuit) : (s.setCircuit c x).taps = s.taps := rfl
@[simp] theorem State.setCircuit_watch (c : CircuitNo) (x : Circuit) : (s.setCircuit c x).watch = s.watch := rfl
@[simp] theorem State.setCircuit_mgmt (c : CircuitNo) (x : Circuit) : (s.setCircuit c x).mgmt = s.mgmt := rfl

@[simp] theorem State.withTaps_pending (t : Taps) : (s.withTaps t).pending = s.pending := rfl
@[simp] theorem State.withTaps_time (t : Taps) : (s.withTaps t).time = s.time := rfl
@[simp] theorem State.withTaps_pinLow (t : Taps) : (s.withTaps t).pinLow = s.pinLow := rfl
@[simp] theorem State.withTaps_loop (t : Taps) : (s.withTaps t).loop = s.loop := rfl
@[simp] theorem State.withTaps_intake (t : Taps) : (s.withTaps t).intake = s.intake := rfl
@[simp] theorem State.withTaps_tables (t : Taps) : (s.withTaps t).tables = s.tables := rfl
@[simp] theorem State.withTaps_contacts (t : Taps) : (s.withTaps t).contacts = s.contacts := rfl
@[simp] theorem State.withTaps_heats (t : Taps) : (s.withTaps t).heats = s.heats := rfl
@[simp] theorem State.withTaps_power (t : Taps) : (s.withTaps t).power = s.power := rfl
@[simp] theorem State.withTaps_orderClamps (t : Taps) : (s.withTaps t).orderClamps = s.orderClamps := rfl
@[simp] theorem State.withTaps_holding (t : Taps) : (s.withTaps t).holding = s.holding := rfl
@[simp] theorem State.withTaps_circuits (t : Taps) : (s.withTaps t).circuits = s.circuits := rfl
@[simp] theorem State.withTaps_taps (t : Taps) : (s.withTaps t).taps = t := rfl
@[simp] theorem State.withTaps_watch (t : Taps) : (s.withTaps t).watch = s.watch := rfl
@[simp] theorem State.withTaps_mgmt (t : Taps) : (s.withTaps t).mgmt = s.mgmt := rfl

@[simp] theorem State.setDipAge_pending (f : Furnace) (t : Lapse) : (s.setDipAge f t).pending = s.pending := rfl
@[simp] theorem State.setDipAge_time (f : Furnace) (t : Lapse) : (s.setDipAge f t).time = s.time := rfl
@[simp] theorem State.setDipAge_pinLow (f : Furnace) (t : Lapse) : (s.setDipAge f t).pinLow = s.pinLow := rfl
@[simp] theorem State.setDipAge_loop (f : Furnace) (t : Lapse) : (s.setDipAge f t).loop = s.loop := rfl
@[simp] theorem State.setDipAge_intake (f : Furnace) (t : Lapse) : (s.setDipAge f t).intake = s.intake := rfl
@[simp] theorem State.setDipAge_tables (f : Furnace) (t : Lapse) : (s.setDipAge f t).tables = s.tables := rfl
@[simp] theorem State.setDipAge_contacts (f : Furnace) (t : Lapse) : (s.setDipAge f t).contacts = s.contacts := rfl
@[simp] theorem State.setDipAge_heats (f : Furnace) (t : Lapse) : (s.setDipAge f t).heats = s.heats := rfl
@[simp] theorem State.setDipAge_power (f : Furnace) (t : Lapse) : (s.setDipAge f t).power = s.power := rfl
@[simp] theorem State.setDipAge_orderClamps (f : Furnace) (t : Lapse) : (s.setDipAge f t).orderClamps = s.orderClamps := rfl
@[simp] theorem State.setDipAge_holding (f : Furnace) (t : Lapse) : (s.setDipAge f t).holding = s.holding := rfl
@[simp] theorem State.setDipAge_circuits (f : Furnace) (t : Lapse) : (s.setDipAge f t).circuits = s.circuits := rfl
@[simp] theorem State.setDipAge_taps (f : Furnace) (t : Lapse) : (s.setDipAge f t).taps = { s.taps with dipAge := s.taps.dipAge.set f t } := rfl
@[simp] theorem State.setDipAge_watch (f : Furnace) (t : Lapse) : (s.setDipAge f t).watch = s.watch := rfl
@[simp] theorem State.setDipAge_mgmt (f : Furnace) (t : Lapse) : (s.setDipAge f t).mgmt = s.mgmt := rfl

@[simp] theorem State.withWatch_pending (w : Watch) : (s.withWatch w).pending = s.pending := rfl
@[simp] theorem State.withWatch_time (w : Watch) : (s.withWatch w).time = s.time := rfl
@[simp] theorem State.withWatch_pinLow (w : Watch) : (s.withWatch w).pinLow = s.pinLow := rfl
@[simp] theorem State.withWatch_loop (w : Watch) : (s.withWatch w).loop = s.loop := rfl
@[simp] theorem State.withWatch_intake (w : Watch) : (s.withWatch w).intake = s.intake := rfl
@[simp] theorem State.withWatch_tables (w : Watch) : (s.withWatch w).tables = s.tables := rfl
@[simp] theorem State.withWatch_contacts (w : Watch) : (s.withWatch w).contacts = s.contacts := rfl
@[simp] theorem State.withWatch_heats (w : Watch) : (s.withWatch w).heats = s.heats := rfl
@[simp] theorem State.withWatch_power (w : Watch) : (s.withWatch w).power = s.power := rfl
@[simp] theorem State.withWatch_orderClamps (w : Watch) : (s.withWatch w).orderClamps = s.orderClamps := rfl
@[simp] theorem State.withWatch_holding (w : Watch) : (s.withWatch w).holding = s.holding := rfl
@[simp] theorem State.withWatch_circuits (w : Watch) : (s.withWatch w).circuits = s.circuits := rfl
@[simp] theorem State.withWatch_taps (w : Watch) : (s.withWatch w).taps = s.taps := rfl
@[simp] theorem State.withWatch_watch (w : Watch) : (s.withWatch w).watch = w := rfl
@[simp] theorem State.withWatch_mgmt (w : Watch) : (s.withWatch w).mgmt = s.mgmt := rfl

@[simp] theorem State.withMgmt_pending (m : Mgmt) : (s.withMgmt m).pending = s.pending := rfl
@[simp] theorem State.withMgmt_time (m : Mgmt) : (s.withMgmt m).time = s.time := rfl
@[simp] theorem State.withMgmt_pinLow (m : Mgmt) : (s.withMgmt m).pinLow = s.pinLow := rfl
@[simp] theorem State.withMgmt_loop (m : Mgmt) : (s.withMgmt m).loop = s.loop := rfl
@[simp] theorem State.withMgmt_intake (m : Mgmt) : (s.withMgmt m).intake = s.intake := rfl
@[simp] theorem State.withMgmt_tables (m : Mgmt) : (s.withMgmt m).tables = s.tables := rfl
@[simp] theorem State.withMgmt_contacts (m : Mgmt) : (s.withMgmt m).contacts = s.contacts := rfl
@[simp] theorem State.withMgmt_heats (m : Mgmt) : (s.withMgmt m).heats = s.heats := rfl
@[simp] theorem State.withMgmt_power (m : Mgmt) : (s.withMgmt m).power = s.power := rfl
@[simp] theorem State.withMgmt_orderClamps (m : Mgmt) : (s.withMgmt m).orderClamps = s.orderClamps := rfl
@[simp] theorem State.withMgmt_holding (m : Mgmt) : (s.withMgmt m).holding = s.holding := rfl
@[simp] theorem State.withMgmt_circuits (m : Mgmt) : (s.withMgmt m).circuits = s.circuits := rfl
@[simp] theorem State.withMgmt_taps (m : Mgmt) : (s.withMgmt m).taps = s.taps := rfl
@[simp] theorem State.withMgmt_watch (m : Mgmt) : (s.withMgmt m).watch = s.watch := rfl
@[simp] theorem State.withMgmt_mgmt (m : Mgmt) : (s.withMgmt m).mgmt = m := rfl

@[simp] theorem State.withParams_pending (p : Params) : (s.withParams p).pending = s.pending := rfl
@[simp] theorem State.withParams_time (p : Params) : (s.withParams p).time = s.time := rfl
@[simp] theorem State.withParams_pinLow (p : Params) : (s.withParams p).pinLow = s.pinLow := rfl
@[simp] theorem State.withParams_loop (p : Params) : (s.withParams p).loop = s.loop := rfl
@[simp] theorem State.withParams_intake (p : Params) : (s.withParams p).intake = s.intake := rfl
@[simp] theorem State.withParams_tables (p : Params) : (s.withParams p).tables = s.tables := rfl
@[simp] theorem State.withParams_contacts (p : Params) : (s.withParams p).contacts = s.contacts := rfl
@[simp] theorem State.withParams_heats (p : Params) : (s.withParams p).heats = s.heats := rfl
@[simp] theorem State.withParams_power (p : Params) : (s.withParams p).power = s.power := rfl
@[simp] theorem State.withParams_orderClamps (p : Params) : (s.withParams p).orderClamps = s.orderClamps := rfl
@[simp] theorem State.withParams_holding (p : Params) : (s.withParams p).holding = s.holding := rfl
@[simp] theorem State.withParams_circuits (p : Params) : (s.withParams p).circuits = s.circuits := rfl
@[simp] theorem State.withParams_taps (p : Params) : (s.withParams p).taps = s.taps := rfl
@[simp] theorem State.withParams_watch (p : Params) : (s.withParams p).watch = s.watch := rfl
@[simp] theorem State.withParams_mgmt (p : Params) : (s.withParams p).mgmt = { s.mgmt with params := p } := rfl

/-! The element that an update replaces, and the others. -/

@[simp] theorem State.setHeat_same (f : Furnace) (h : Heat) : (s.setHeat f h).heats[f] = h := by simp

theorem State.setHeat_other {f g : Furnace} (h : Heat) (n : f ≠ g) : (s.setHeat f h).heats[g] = s.heats[g] := by
  have : f.val ≠ g.val := fun e => n (Fin.ext e)
  simp [this]

@[simp] theorem State.setPower_same (f : Furnace) (p : Power) : (s.setPower f p).power[f] = p := by simp

theorem State.setPower_other {f g : Furnace} (p : Power) (n : f ≠ g) : (s.setPower f p).power[g] = s.power[g] := by
  have : f.val ≠ g.val := fun e => n (Fin.ext e)
  simp [this]

@[simp] theorem State.setHolding_same (f : Furnace) (h : Holding) : (s.setHolding f h).holding[f] = h := by simp

theorem State.setHolding_other {f g : Furnace} (h : Holding) (n : f ≠ g) :
    (s.setHolding f h).holding[g] = s.holding[g] := by
  have : f.val ≠ g.val := fun e => n (Fin.ext e)
  simp [this]

@[simp] theorem State.setCircuit_same (c : CircuitNo) (x : Circuit) : (s.setCircuit c x).circuits[c] = x := by simp

theorem State.setCircuit_other {c d : CircuitNo} (x : Circuit) (n : c ≠ d) :
    (s.setCircuit c x).circuits[d] = s.circuits[d] := by
  have : c.val ≠ d.val := fun e => n (Fin.ext e)
  simp [this]

end Sys2Proof.Machine
end

