-- ==== Sys2Proof/Laws/Frames.lean ====
section
/-! SUPPORT. What each operation of the blocks can change: one lemma per operation names every field of the state that
it leaves as it was; what the lemma does not name is all that the operation can write. -/

-- One script proves each of these lemmas, and not every step of it is needed by each.
set_option linter.unusedTactic false
set_option linter.unnecessarySeqFocus false
set_option linter.unreachableTactic false
set_option linter.unusedSimpArgs false

namespace Sys2Proof.Machine

/-- What every step of a fold keeps, the fold keeps. -/
theorem foldl_keeps {α β γ : Type} (p : α → γ) (g : α → β → α) (h : ∀ a b, p (g a b) = p a) (l : List β) (a : α) :
    p (l.foldl g a) = p a := by
  induction l generalizing a with
  | nil => rfl
  | cons b l ih => simp [ih, h]

variable (s : State)

@[simp] theorem State.placeStatus_frame (k : StatusKind) (d : Option Byte) (f : Option Furnace) (p : Option Nat) :
    (s.placeStatus k d f p).pending = s.pending ∧ (s.placeStatus k d f p).time = s.time ∧
    (s.placeStatus k d f p).pinLow = s.pinLow ∧ (s.placeStatus k d f p).intake = s.intake ∧
    (s.placeStatus k d f p).tables = s.tables ∧ (s.placeStatus k d f p).contacts = s.contacts ∧
    (s.placeStatus k d f p).heats = s.heats ∧ (s.placeStatus k d f p).power = s.power ∧
    (s.placeStatus k d f p).orderClamps = s.orderClamps ∧ (s.placeStatus k d f p).holding = s.holding ∧
    (s.placeStatus k d f p).circuits = s.circuits ∧ (s.placeStatus k d f p).taps = s.taps ∧
    (s.placeStatus k d f p).watch = s.watch ∧ (s.placeStatus k d f p).mgmt = s.mgmt := by
  unfold State.placeStatus; try dsimp only
  (repeat' split) <;> simp

@[simp] theorem State.placeReport_frame (b : ReportBody) :
    (s.placeReport b).pending = s.pending ∧ (s.placeReport b).time = s.time ∧ (s.placeReport b).pinLow = s.pinLow ∧
    (s.placeReport b).intake = s.intake ∧ (s.placeReport b).tables = s.tables ∧
    (s.placeReport b).contacts = s.contacts ∧ (s.placeReport b).heats = s.heats ∧
    (s.placeReport b).power = s.power ∧ (s.placeReport b).orderClamps = s.orderClamps ∧
    (s.placeReport b).holding = s.holding ∧ (s.placeReport b).circuits = s.circuits ∧
    (s.placeReport b).taps = s.taps ∧ (s.placeReport b).watch = s.watch ∧ (s.placeReport b).mgmt = s.mgmt := by
  unfold State.placeReport; try dsimp only
  (repeat' split) <;> simp

@[simp] theorem State.raise_frame (k : Kind) (n : Nat) :
    (s.raise k n).pending = s.pending ∧ (s.raise k n).time = s.time ∧ (s.raise k n).pinLow = s.pinLow ∧
    (s.raise k n).intake = s.intake ∧ (s.raise k n).tables = s.tables ∧ (s.raise k n).contacts = s.contacts ∧
    (s.raise k n).heats = s.heats ∧ (s.raise k n).power = s.power ∧ (s.raise k n).orderClamps = s.orderClamps ∧
    (s.raise k n).holding = s.holding ∧ (s.raise k n).circuits = s.circuits ∧ (s.raise k n).taps = s.taps ∧
    (s.raise k n).watch = s.watch ∧ (s.raise k n).mgmt.selection = s.mgmt.selection ∧
    (s.raise k n).mgmt.latch = s.mgmt.latch ∧ (s.raise k n).mgmt.validator = s.mgmt.validator ∧
    (s.raise k n).mgmt.params = s.mgmt.params ∧ (s.raise k n).mgmt.locked = s.mgmt.locked ∧
    (s.raise k n).mgmt.frame = s.mgmt.frame := by
  unfold State.raise; try dsimp only
  (repeat' split) <;> simp

@[simp] theorem State.unlatch_frame (k : Kind) (n : Nat) :
    (s.unlatch k n).pending = s.pending ∧ (s.unlatch k n).time = s.time ∧ (s.unlatch k n).pinLow = s.pinLow ∧
    (s.unlatch k n).loop = s.loop ∧ (s.unlatch k n).intake = s.intake ∧ (s.unlatch k n).tables = s.tables ∧
    (s.unlatch k n).contacts = s.contacts ∧ (s.unlatch k n).heats = s.heats ∧ (s.unlatch k n).power = s.power ∧
    (s.unlatch k n).orderClamps = s.orderClamps ∧ (s.unlatch k n).holding = s.holding ∧
    (s.unlatch k n).circuits = s.circuits ∧ (s.unlatch k n).taps = s.taps ∧ (s.unlatch k n).watch = s.watch ∧
    (s.unlatch k n).mgmt.selection = s.mgmt.selection ∧ (s.unlatch k n).mgmt.latch = s.mgmt.latch ∧
    (s.unlatch k n).mgmt.validator = s.mgmt.validator ∧ (s.unlatch k n).mgmt.params = s.mgmt.params ∧
    (s.unlatch k n).mgmt.locked = s.mgmt.locked ∧ (s.unlatch k n).mgmt.frame = s.mgmt.frame := by
  unfold State.unlatch; try dsimp only
  (repeat' split) <;> simp

@[simp] theorem State.driveOutputs_frame :
    (s.driveOutputs).pending = s.pending ∧ (s.driveOutputs).time = s.time ∧ (s.driveOutputs).pinLow = s.pinLow ∧
    (s.driveOutputs).loop = s.loop ∧ (s.driveOutputs).intake = s.intake ∧ (s.driveOutputs).tables = s.tables ∧
    (s.driveOutputs).contacts.raw = s.contacts.raw ∧ (s.driveOutputs).contacts.filtered = s.contacts.filtered ∧
    (s.driveOutputs).contacts.persistence = s.contacts.persistence ∧
    (s.driveOutputs).contacts.ind = s.contacts.ind ∧
    (s.driveOutputs).contacts.changePending = s.contacts.changePending ∧
    (s.driveOutputs).contacts.overrun = s.contacts.overrun ∧
    (s.driveOutputs).contacts.snapshot = s.contacts.snapshot ∧
    (s.driveOutputs).contacts.commanded = s.contacts.commanded ∧
    (s.driveOutputs).contacts.frozen = s.contacts.frozen ∧ (s.driveOutputs).heats = s.heats ∧
    (s.driveOutputs).power = s.power ∧ (s.driveOutputs).orderClamps = s.orderClamps ∧
    (s.driveOutputs).holding = s.holding ∧ (s.driveOutputs).circuits = s.circuits ∧
    (s.driveOutputs).taps = s.taps ∧ (s.driveOutputs).watch = s.watch ∧ (s.driveOutputs).mgmt = s.mgmt := by
  unfold State.driveOutputs; try dsimp only
  (repeat' split) <;> simp

@[simp] theorem State.updateHeat_frame (f : Furnace) (h : Heat) :
    (s.updateHeat f h).pending = s.pending ∧ (s.updateHeat f h).time = s.time ∧
    (s.updateHeat f h).pinLow = s.pinLow ∧ (s.updateHeat f h).loop = s.loop ∧
    (s.updateHeat f h).intake = s.intake ∧ (s.updateHeat f h).tables = s.tables ∧
    (s.updateHeat f h).contacts = s.contacts ∧ (s.updateHeat f h).power = s.power ∧
    (s.updateHeat f h).orderClamps = s.orderClamps ∧ (s.updateHeat f h).holding = s.holding ∧
    (s.updateHeat f h).circuits = s.circuits ∧ (s.updateHeat f h).taps = s.taps ∧
    (s.updateHeat f h).watch = s.watch ∧ (s.updateHeat f h).mgmt = s.mgmt := by
  unfold State.updateHeat; try dsimp only
  (repeat' split) <;> simp

@[simp] theorem State.integratePower_frame (f : Furnace) (p : Int) (t n : Nat) :
    (s.integratePower f p t n).pending = s.pending ∧ (s.integratePower f p t n).time = s.time ∧
    (s.integratePower f p t n).pinLow = s.pinLow ∧ (s.integratePower f p t n).loop = s.loop ∧
    (s.integratePower f p t n).intake = s.intake ∧ (s.integratePower f p t n).tables = s.tables ∧
    (s.integratePower f p t n).contacts = s.contacts ∧ (s.integratePower f p t n).power = s.power ∧
    (s.integratePower f p t n).orderClamps = s.orderClamps ∧ (s.integratePower f p t n).holding = s.holding ∧
    (s.integratePower f p t n).circuits = s.circuits ∧ (s.integratePower f p t n).taps = s.taps ∧
    (s.integratePower f p t n).watch = s.watch ∧ (s.integratePower f p t n).mgmt = s.mgmt := by
  unfold State.integratePower; try dsimp only
  (repeat' split) <;> simp

@[simp] theorem State.markUncertain_frame (f : Furnace) :
    (s.markUncertain f).pending = s.pending ∧ (s.markUncertain f).time = s.time ∧
    (s.markUncertain f).pinLow = s.pinLow ∧ (s.markUncertain f).loop = s.loop ∧
    (s.markUncertain f).intake = s.intake ∧ (s.markUncertain f).tables = s.tables ∧
    (s.markUncertain f).contacts = s.contacts ∧ (s.markUncertain f).power = s.power ∧
    (s.markUncertain f).orderClamps = s.orderClamps ∧ (s.markUncertain f).holding = s.holding ∧
    (s.markUncertain f).circuits = s.circuits ∧ (s.markUncertain f).taps = s.taps ∧
    (s.markUncertain f).watch = s.watch ∧ (s.markUncertain f).mgmt = s.mgmt := by
  unfold State.markUncertain; try dsimp only
  (repeat' split) <;> simp

@[simp] theorem State.overcharge_frame (f : Furnace) (o m : Nat) :
    (s.overcharge f o m).pending = s.pending ∧ (s.overcharge f o m).time = s.time ∧
    (s.overcharge f o m).pinLow = s.pinLow ∧ (s.overcharge f o m).intake = s.intake ∧
    (s.overcharge f o m).tables = s.tables ∧ (s.overcharge f o m).contacts = s.contacts ∧
    (s.overcharge f o m).heats = s.heats ∧ (s.overcharge f o m).power = s.power ∧
    (s.overcharge f o m).orderClamps = s.orderClamps ∧ (s.overcharge f o m).holding = s.holding ∧
    (s.overcharge f o m).circuits = s.circuits ∧ (s.overcharge f o m).taps = s.taps ∧
    (s.overcharge f o m).watch = s.watch ∧ (s.overcharge f o m).mgmt.selection = s.mgmt.selection ∧
    (s.overcharge f o m).mgmt.latch = s.mgmt.latch ∧ (s.overcharge f o m).mgmt.validator = s.mgmt.validator ∧
    (s.overcharge f o m).mgmt.params = s.mgmt.params ∧ (s.overcharge f o m).mgmt.locked = s.mgmt.locked ∧
    (s.overcharge f o m).mgmt.frame = s.mgmt.frame := by
  unfold State.overcharge; try dsimp only
  (repeat' split) <;> simp

@[simp] theorem State.firstCharge_frame (f : Furnace) (m : Nat) :
    (s.firstCharge f m).pending = s.pending ∧ (s.firstCharge f m).time = s.time ∧
    (s.firstCharge f m).pinLow = s.pinLow ∧ (s.firstCharge f m).intake = s.intake ∧
    (s.firstCharge f m).tables = s.tables ∧ (s.firstCharge f m).contacts = s.contacts ∧
    (s.firstCharge f m).power = s.power ∧ (s.firstCharge f m).orderClamps = s.orderClamps ∧
    (s.firstCharge f m).holding = s.holding ∧ (s.firstCharge f m).circuits = s.circuits ∧
    (s.firstCharge f m).taps = s.taps ∧ (s.firstCharge f m).watch = s.watch ∧
    (s.firstCharge f m).mgmt.selection = s.mgmt.selection ∧ (s.firstCharge f m).mgmt.latch = s.mgmt.latch ∧
    (s.firstCharge f m).mgmt.validator = s.mgmt.validator ∧ (s.firstCharge f m).mgmt.params = s.mgmt.params ∧
    (s.firstCharge f m).mgmt.locked = s.mgmt.locked ∧ (s.firstCharge f m).mgmt.frame = s.mgmt.frame := by
  unfold State.firstCharge; try dsimp only
  (repeat' split) <;> simp

@[simp] theorem State.furtherCharge_frame (f : Furnace) (m : Nat) :
    (s.furtherCharge f m).pending = s.pending ∧ (s.furtherCharge f m).time = s.time ∧
    (s.furtherCharge f m).pinLow = s.pinLow ∧ (s.furtherCharge f m).intake = s.intake ∧
    (s.furtherCharge f m).tables = s.tables ∧ (s.furtherCharge f m).contacts = s.contacts ∧
    (s.furtherCharge f m).power = s.power ∧ (s.furtherCharge f m).orderClamps = s.orderClamps ∧
    (s.furtherCharge f m).holding = s.holding ∧ (s.furtherCharge f m).circuits = s.circuits ∧
    (s.furtherCharge f m).taps.ready = s.taps.ready ∧ (s.furtherCharge f m).taps.queue = s.taps.queue ∧
    (s.furtherCharge f m).taps.station = s.taps.station ∧ (s.furtherCharge f m).taps.pour = s.taps.pour ∧
    (s.furtherCharge f m).taps.tiltStart = s.taps.tiltStart ∧
    (s.furtherCharge f m).taps.pourTimer = s.taps.pourTimer ∧
    (s.furtherCharge f m).taps.returnTimer = s.taps.returnTimer ∧ (s.furtherCharge f m).taps.held = s.taps.held ∧
    (s.furtherCharge f m).taps.tilt = s.taps.tilt ∧ (s.furtherCharge f m).taps.ladle = s.taps.ladle ∧
    (s.furtherCharge f m).taps.malformed = s.taps.malformed ∧ (s.furtherCharge f m).watch = s.watch ∧
    (s.furtherCharge f m).mgmt.selection = s.mgmt.selection ∧ (s.furtherCharge f m).mgmt.latch = s.mgmt.latch ∧
    (s.furtherCharge f m).mgmt.validator = s.mgmt.validator ∧ (s.furtherCharge f m).mgmt.params = s.mgmt.params ∧
    (s.furtherCharge f m).mgmt.locked = s.mgmt.locked ∧ (s.furtherCharge f m).mgmt.frame = s.mgmt.frame := by
  unfold State.furtherCharge; try dsimp only
  (repeat' split) <;> simp

@[simp] theorem State.charge_frame (f : Furnace) (m : Nat) :
    (s.charge f m).pending = s.pending ∧ (s.charge f m).time = s.time ∧ (s.charge f m).pinLow = s.pinLow ∧
    (s.charge f m).intake = s.intake ∧ (s.charge f m).tables = s.tables ∧ (s.charge f m).contacts = s.contacts ∧
    (s.charge f m).power = s.power ∧ (s.charge f m).orderClamps = s.orderClamps ∧
    (s.charge f m).holding = s.holding ∧ (s.charge f m).circuits = s.circuits ∧
    (s.charge f m).taps.ready = s.taps.ready ∧ (s.charge f m).taps.queue = s.taps.queue ∧
    (s.charge f m).taps.station = s.taps.station ∧ (s.charge f m).taps.pour = s.taps.pour ∧
    (s.charge f m).taps.tiltStart = s.taps.tiltStart ∧ (s.charge f m).taps.pourTimer = s.taps.pourTimer ∧
    (s.charge f m).taps.returnTimer = s.taps.returnTimer ∧ (s.charge f m).taps.held = s.taps.held ∧
    (s.charge f m).taps.tilt = s.taps.tilt ∧ (s.charge f m).taps.ladle = s.taps.ladle ∧
    (s.charge f m).taps.malformed = s.taps.malformed ∧ (s.charge f m).watch = s.watch ∧
    (s.charge f m).mgmt.selection = s.mgmt.selection ∧ (s.charge f m).mgmt.latch = s.mgmt.latch ∧
    (s.charge f m).mgmt.validator = s.mgmt.validator ∧ (s.charge f m).mgmt.params = s.mgmt.params ∧
    (s.charge f m).mgmt.locked = s.mgmt.locked ∧ (s.charge f m).mgmt.frame = s.mgmt.frame := by
  unfold State.charge; try dsimp only
  (repeat' split) <;> simp

@[simp] theorem State.anchor_frame (f : Furnace) (h : Heat) (t : Int) :
    (s.anchor f h t).pending = s.pending ∧ (s.anchor f h t).time = s.time ∧ (s.anchor f h t).pinLow = s.pinLow ∧
    (s.anchor f h t).intake = s.intake ∧ (s.anchor f h t).tables = s.tables ∧
    (s.anchor f h t).contacts = s.contacts ∧ (s.anchor f h t).power = s.power ∧
    (s.anchor f h t).orderClamps = s.orderClamps ∧ (s.anchor f h t).holding = s.holding ∧
    (s.anchor f h t).circuits = s.circuits ∧ (s.anchor f h t).taps.ready = s.taps.ready ∧
    (s.anchor f h t).taps.queue = s.taps.queue ∧ (s.anchor f h t).taps.station = s.taps.station ∧
    (s.anchor f h t).taps.pour = s.taps.pour ∧ (s.anchor f h t).taps.tiltStart = s.taps.tiltStart ∧
    (s.anchor f h t).taps.pourTimer = s.taps.pourTimer ∧ (s.anchor f h t).taps.returnTimer = s.taps.returnTimer ∧
    (s.anchor f h t).taps.held = s.taps.held ∧ (s.anchor f h t).taps.tilt = s.taps.tilt ∧
    (s.anchor f h t).taps.ladle = s.taps.ladle ∧ (s.anchor f h t).taps.malformed = s.taps.malformed ∧
    (s.anchor f h t).watch = s.watch ∧ (s.anchor f h t).mgmt.selection = s.mgmt.selection ∧
    (s.anchor f h t).mgmt.latch = s.mgmt.latch ∧ (s.anchor f h t).mgmt.validator = s.mgmt.validator ∧
    (s.anchor f h t).mgmt.params = s.mgmt.params ∧ (s.anchor f h t).mgmt.locked = s.mgmt.locked ∧
    (s.anchor f h t).mgmt.frame = s.mgmt.frame := by
  unfold State.anchor; try dsimp only
  (repeat' split) <;> simp

@[simp] theorem State.dip_frame (f : Furnace) (t : Int) :
    (s.dip f t).pending = s.pending ∧ (s.dip f t).time = s.time ∧ (s.dip f t).pinLow = s.pinLow ∧
    (s.dip f t).intake = s.intake ∧ (s.dip f t).tables = s.tables ∧ (s.dip f t).contacts = s.contacts ∧
    (s.dip f t).power = s.power ∧ (s.dip f t).orderClamps = s.orderClamps ∧ (s.dip f t).holding = s.holding ∧
    (s.dip f t).circuits = s.circuits ∧ (s.dip f t).taps.ready = s.taps.ready ∧
    (s.dip f t).taps.queue = s.taps.queue ∧ (s.dip f t).taps.station = s.taps.station ∧
    (s.dip f t).taps.pour = s.taps.pour ∧ (s.dip f t).taps.tiltStart = s.taps.tiltStart ∧
    (s.dip f t).taps.pourTimer = s.taps.pourTimer ∧ (s.dip f t).taps.returnTimer = s.taps.returnTimer ∧
    (s.dip f t).taps.held = s.taps.held ∧ (s.dip f t).taps.tilt = s.taps.tilt ∧
    (s.dip f t).taps.ladle = s.taps.ladle ∧ (s.dip f t).taps.malformed = s.taps.malformed ∧
    (s.dip f t).watch = s.watch ∧ (s.dip f t).mgmt.selection = s.mgmt.selection ∧
    (s.dip f t).mgmt.latch = s.mgmt.latch ∧ (s.dip f t).mgmt.validator = s.mgmt.validator ∧
    (s.dip f t).mgmt.params = s.mgmt.params ∧ (s.dip f t).mgmt.locked = s.mgmt.locked ∧
    (s.dip f t).mgmt.frame = s.mgmt.frame := by
  unfold State.dip; try dsimp only
  (repeat' split) <;> simp

@[simp] theorem State.voidApproval_frame (f : Furnace) :
    (s.voidApproval f).pending = s.pending ∧ (s.voidApproval f).time = s.time ∧
    (s.voidApproval f).pinLow = s.pinLow ∧ (s.voidApproval f).loop = s.loop ∧
    (s.voidApproval f).intake = s.intake ∧ (s.voidApproval f).tables = s.tables ∧
    (s.voidApproval f).contacts = s.contacts ∧ (s.voidApproval f).power = s.power ∧
    (s.voidApproval f).orderClamps = s.orderClamps ∧ (s.voidApproval f).holding = s.holding ∧
    (s.voidApproval f).circuits = s.circuits ∧ (s.voidApproval f).taps = s.taps ∧
    (s.voidApproval f).watch = s.watch ∧ (s.voidApproval f).mgmt = s.mgmt := by
  unfold State.voidApproval; try dsimp only
  (repeat' split) <;> simp

@[simp] theorem State.overheld_frame (f : Furnace) :
    (s.overheld f).pending = s.pending ∧ (s.overheld f).time = s.time ∧ (s.overheld f).pinLow = s.pinLow ∧
    (s.overheld f).intake = s.intake ∧ (s.overheld f).tables = s.tables ∧ (s.overheld f).contacts = s.contacts ∧
    (s.overheld f).power = s.power ∧ (s.overheld f).orderClamps = s.orderClamps ∧
    (s.overheld f).holding = s.holding ∧ (s.overheld f).circuits = s.circuits ∧ (s.overheld f).taps = s.taps ∧
    (s.overheld f).watch = s.watch ∧ (s.overheld f).mgmt.selection = s.mgmt.selection ∧
    (s.overheld f).mgmt.latch = s.mgmt.latch ∧ (s.overheld f).mgmt.validator = s.mgmt.validator ∧
    (s.overheld f).mgmt.params = s.mgmt.params ∧ (s.overheld f).mgmt.locked = s.mgmt.locked ∧
    (s.overheld f).mgmt.frame = s.mgmt.frame := by
  unfold State.overheld; try dsimp only
  (repeat' split) <;> simp

@[simp] theorem State.lockFollow_frame (f : Furnace) :
    (s.lockFollow f).pending = s.pending ∧ (s.lockFollow f).time = s.time ∧ (s.lockFollow f).pinLow = s.pinLow ∧
    (s.lockFollow f).loop = s.loop ∧ (s.lockFollow f).intake = s.intake ∧ (s.lockFollow f).tables = s.tables ∧
    (s.lockFollow f).contacts = s.contacts ∧ (s.lockFollow f).power = s.power ∧
    (s.lockFollow f).orderClamps = s.orderClamps ∧ (s.lockFollow f).holding = s.holding ∧
    (s.lockFollow f).circuits = s.circuits ∧ (s.lockFollow f).taps = s.taps ∧ (s.lockFollow f).watch = s.watch ∧
    (s.lockFollow f).mgmt = s.mgmt := by
  unfold State.lockFollow; try dsimp only
  (repeat' split) <;> simp

@[simp] theorem State.lockTilt_frame (f : Furnace) :
    (s.lockTilt f).pending = s.pending ∧ (s.lockTilt f).time = s.time ∧ (s.lockTilt f).pinLow = s.pinLow ∧
    (s.lockTilt f).loop = s.loop ∧ (s.lockTilt f).intake = s.intake ∧ (s.lockTilt f).tables = s.tables ∧
    (s.lockTilt f).contacts = s.contacts ∧ (s.lockTilt f).power = s.power ∧
    (s.lockTilt f).orderClamps = s.orderClamps ∧ (s.lockTilt f).holding = s.holding ∧
    (s.lockTilt f).circuits = s.circuits ∧ (s.lockTilt f).taps = s.taps ∧ (s.lockTilt f).watch = s.watch ∧
    (s.lockTilt f).mgmt = s.mgmt := by
  unfold State.lockTilt; try dsimp only
  (repeat' split) <;> simp

@[simp] theorem State.tiltFault_frame (f : Furnace) :
    (s.tiltFault f).pending = s.pending ∧ (s.tiltFault f).time = s.time ∧ (s.tiltFault f).pinLow = s.pinLow ∧
    (s.tiltFault f).intake = s.intake ∧ (s.tiltFault f).tables = s.tables ∧ (s.tiltFault f).contacts = s.contacts ∧
    (s.tiltFault f).power = s.power ∧ (s.tiltFault f).orderClamps = s.orderClamps ∧
    (s.tiltFault f).holding = s.holding ∧ (s.tiltFault f).circuits = s.circuits ∧ (s.tiltFault f).taps = s.taps ∧
    (s.tiltFault f).watch = s.watch ∧ (s.tiltFault f).mgmt.selection = s.mgmt.selection ∧
    (s.tiltFault f).mgmt.latch = s.mgmt.latch ∧ (s.tiltFault f).mgmt.validator = s.mgmt.validator ∧
    (s.tiltFault f).mgmt.params = s.mgmt.params ∧ (s.tiltFault f).mgmt.locked = s.mgmt.locked ∧
    (s.tiltFault f).mgmt.frame = s.mgmt.frame := by
  unfold State.tiltFault; try dsimp only
  (repeat' split) <;> simp

@[simp] theorem State.pourOff_frame (f : Furnace) (p : Nat) :
    (s.pourOff f p).pending = s.pending ∧ (s.pourOff f p).time = s.time ∧ (s.pourOff f p).pinLow = s.pinLow ∧
    (s.pourOff f p).loop = s.loop ∧ (s.pourOff f p).intake = s.intake ∧ (s.pourOff f p).tables = s.tables ∧
    (s.pourOff f p).contacts = s.contacts ∧ (s.pourOff f p).power = s.power ∧
    (s.pourOff f p).orderClamps = s.orderClamps ∧ (s.pourOff f p).holding = s.holding ∧
    (s.pourOff f p).circuits = s.circuits ∧ (s.pourOff f p).taps.ready = s.taps.ready ∧
    (s.pourOff f p).taps.queue = s.taps.queue ∧ (s.pourOff f p).taps.station = s.taps.station ∧
    (s.pourOff f p).taps.pour = s.taps.pour ∧ (s.pourOff f p).taps.tiltStart = s.taps.tiltStart ∧
    (s.pourOff f p).taps.pourTimer = s.taps.pourTimer ∧ (s.pourOff f p).taps.returnTimer = s.taps.returnTimer ∧
    (s.pourOff f p).taps.held = s.taps.held ∧ (s.pourOff f p).taps.tilt = s.taps.tilt ∧
    (s.pourOff f p).taps.ladle = s.taps.ladle ∧ (s.pourOff f p).taps.malformed = s.taps.malformed ∧
    (s.pourOff f p).watch = s.watch ∧ (s.pourOff f p).mgmt = s.mgmt := by
  unfold State.pourOff; try dsimp only
  (repeat' split) <;> simp

@[simp] theorem State.compare_frame (f : Furnace) :
    (s.compare f).pending = s.pending ∧ (s.compare f).time = s.time ∧ (s.compare f).pinLow = s.pinLow ∧
    (s.compare f).loop = s.loop ∧ (s.compare f).intake = s.intake ∧ (s.compare f).tables = s.tables ∧
    (s.compare f).contacts = s.contacts ∧ (s.compare f).heats = s.heats ∧ (s.compare f).power = s.power ∧
    (s.compare f).orderClamps = s.orderClamps ∧ (s.compare f).circuits = s.circuits ∧ (s.compare f).taps = s.taps ∧
    (s.compare f).watch = s.watch ∧ (s.compare f).mgmt = s.mgmt := by
  unfold State.compare; try dsimp only
  (repeat' split) <;> simp

@[simp] theorem State.compareChanged_frame (s0 : State) :
    (s0.compareChanged s).pending = s.pending ∧ (s0.compareChanged s).time = s.time ∧
    (s0.compareChanged s).pinLow = s.pinLow ∧ (s0.compareChanged s).loop = s.loop ∧
    (s0.compareChanged s).intake = s.intake ∧ (s0.compareChanged s).tables = s.tables ∧
    (s0.compareChanged s).contacts = s.contacts ∧ (s0.compareChanged s).heats = s.heats ∧
    (s0.compareChanged s).power = s.power ∧ (s0.compareChanged s).orderClamps = s.orderClamps ∧
    (s0.compareChanged s).circuits = s.circuits ∧ (s0.compareChanged s).taps = s.taps ∧
    (s0.compareChanged s).watch = s.watch ∧ (s0.compareChanged s).mgmt = s.mgmt := by
  unfold State.compareChanged
  refine ⟨?_, ?_, ?_, ?_, ?_, ?_, ?_, ?_, ?_, ?_, ?_, ?_, ?_, ?_⟩
  · simp [foldl_keeps (fun s : State => s.pending), apply_ite (fun s : State => s.pending)]
  · simp [foldl_keeps (fun s : State => s.time), apply_ite (fun s : State => s.time)]
  · simp [foldl_keeps (fun s : State => s.pinLow), apply_ite (fun s : State => s.pinLow)]
  · simp [foldl_keeps (fun s : State => s.loop), apply_ite (fun s : State => s.loop)]
  · simp [foldl_keeps (fun s : State => s.intake), apply_ite (fun s : State => s.intake)]
  · simp [foldl_keeps (fun s : State => s.tables), apply_ite (fun s : State => s.tables)]
  · simp [foldl_keeps (fun s : State => s.contacts), apply_ite (fun s : State => s.contacts)]
  · simp [foldl_keeps (fun s : State => s.heats), apply_ite (fun s : State => s.heats)]
  · simp [foldl_keeps (fun s : State => s.power), apply_ite (fun s : State => s.power)]
  · simp [foldl_keeps (fun s : State => s.orderClamps), apply_ite (fun s : State => s.orderClamps)]
  · simp [foldl_keeps (fun s : State => s.circuits), apply_ite (fun s : State => s.circuits)]
  · simp [foldl_keeps (fun s : State => s.taps), apply_ite (fun s : State => s.taps)]
  · simp [foldl_keeps (fun s : State => s.watch), apply_ite (fun s : State => s.watch)]
  · simp [foldl_keeps (fun s : State => s.mgmt), apply_ite (fun s : State => s.mgmt)]

@[simp] theorem State.compareAll_frame :
    (s.compareAll).pending = s.pending ∧ (s.compareAll).time = s.time ∧ (s.compareAll).pinLow = s.pinLow ∧
    (s.compareAll).loop = s.loop ∧ (s.compareAll).intake = s.intake ∧ (s.compareAll).tables = s.tables ∧
    (s.compareAll).contacts = s.contacts ∧ (s.compareAll).heats = s.heats ∧ (s.compareAll).power = s.power ∧
    (s.compareAll).orderClamps = s.orderClamps ∧ (s.compareAll).circuits = s.circuits ∧
    (s.compareAll).taps = s.taps ∧ (s.compareAll).watch = s.watch ∧ (s.compareAll).mgmt = s.mgmt := by
  unfold State.compareAll
  refine ⟨?_, ?_, ?_, ?_, ?_, ?_, ?_, ?_, ?_, ?_, ?_, ?_, ?_, ?_⟩
  · simp [foldl_keeps (fun s : State => s.pending), apply_ite (fun s : State => s.pending)]
  · simp [foldl_keeps (fun s : State => s.time), apply_ite (fun s : State => s.time)]
  · simp [foldl_keeps (fun s : State => s.pinLow), apply_ite (fun s : State => s.pinLow)]
  · simp [foldl_keeps (fun s : State => s.loop), apply_ite (fun s : State => s.loop)]
  · simp [foldl_keeps (fun s : State => s.intake), apply_ite (fun s : State => s.intake)]
  · simp [foldl_keeps (fun s : State => s.tables), apply_ite (fun s : State => s.tables)]
  · simp [foldl_keeps (fun s : State => s.contacts), apply_ite (fun s : State => s.contacts)]
  · simp [foldl_keeps (fun s : State => s.heats), apply_ite (fun s : State => s.heats)]
  · simp [foldl_keeps (fun s : State => s.power), apply_ite (fun s : State => s.power)]
  · simp [foldl_keeps (fun s : State => s.orderClamps), apply_ite (fun s : State => s.orderClamps)]
  · simp [foldl_keeps (fun s : State => s.circuits), apply_ite (fun s : State => s.circuits)]
  · simp [foldl_keeps (fun s : State => s.taps), apply_ite (fun s : State => s.taps)]
  · simp [foldl_keeps (fun s : State => s.watch), apply_ite (fun s : State => s.watch)]
  · simp [foldl_keeps (fun s : State => s.mgmt), apply_ite (fun s : State => s.mgmt)]

@[simp] theorem State.placeOrder_frame (f : Furnace) (c : OrderClass) :
    (s.placeOrder f c).pending = s.pending ∧ (s.placeOrder f c).time = s.time ∧
    (s.placeOrder f c).pinLow = s.pinLow ∧ (s.placeOrder f c).intake = s.intake ∧
    (s.placeOrder f c).tables = s.tables ∧ (s.placeOrder f c).contacts = s.contacts ∧
    (s.placeOrder f c).heats = s.heats ∧ (s.placeOrder f c).orderClamps = s.orderClamps ∧
    (s.placeOrder f c).holding = s.holding ∧ (s.placeOrder f c).circuits = s.circuits ∧
    (s.placeOrder f c).taps = s.taps ∧ (s.placeOrder f c).watch = s.watch ∧ (s.placeOrder f c).mgmt = s.mgmt := by
  unfold State.placeOrder; try dsimp only
  (repeat' split) <;> simp

@[simp] theorem State.setIssued_frame (f : Furnace) (v : Nat) (c : OrderClass) :
    (s.setIssued f v c).pending = s.pending ∧ (s.setIssued f v c).time = s.time ∧
    (s.setIssued f v c).pinLow = s.pinLow ∧ (s.setIssued f v c).intake = s.intake ∧
    (s.setIssued f v c).tables = s.tables ∧ (s.setIssued f v c).contacts = s.contacts ∧
    (s.setIssued f v c).heats = s.heats ∧ (s.setIssued f v c).orderClamps = s.orderClamps ∧
    (s.setIssued f v c).holding = s.holding ∧ (s.setIssued f v c).circuits = s.circuits ∧
    (s.setIssued f v c).taps = s.taps ∧ (s.setIssued f v c).watch = s.watch ∧ (s.setIssued f v c).mgmt = s.mgmt := by
  unfold State.setIssued; try dsimp only
  (repeat' split) <;> simp

@[simp] theorem State.applyGrant_frame (f : Furnace) (d g : Nat) :
    (s.applyGrant f d g).pending = s.pending ∧ (s.applyGrant f d g).time = s.time ∧
    (s.applyGrant f d g).pinLow = s.pinLow ∧ (s.applyGrant f d g).intake = s.intake ∧
    (s.applyGrant f d g).tables = s.tables ∧ (s.applyGrant f d g).contacts = s.contacts ∧
    (s.applyGrant f d g).heats = s.heats ∧ (s.applyGrant f d g).orderClamps = s.orderClamps ∧
    (s.applyGrant f d g).holding = s.holding ∧ (s.applyGrant f d g).circuits = s.circuits ∧
    (s.applyGrant f d g).taps = s.taps ∧ (s.applyGrant f d g).watch = s.watch ∧ (s.applyGrant f d g).mgmt = s.mgmt := by
  unfold State.applyGrant; try dsimp only
  (repeat' split) <;> simp

@[simp] theorem State.remake_frame :
    (s.remake).pending = s.pending ∧ (s.remake).time = s.time ∧ (s.remake).pinLow = s.pinLow ∧
    (s.remake).intake = s.intake ∧ (s.remake).tables = s.tables ∧ (s.remake).contacts = s.contacts ∧
    (s.remake).heats = s.heats ∧ (s.remake).orderClamps = s.orderClamps ∧ (s.remake).holding = s.holding ∧
    (s.remake).circuits = s.circuits ∧ (s.remake).taps = s.taps ∧ (s.remake).watch = s.watch ∧
    (s.remake).mgmt = s.mgmt := by
  unfold State.remake
  refine ⟨?_, ?_, ?_, ?_, ?_, ?_, ?_, ?_, ?_, ?_, ?_, ?_, ?_⟩
  · simp [foldl_keeps (fun s : State => s.pending), apply_ite (fun s : State => s.pending)]
  · simp [foldl_keeps (fun s : State => s.time), apply_ite (fun s : State => s.time)]
  · simp [foldl_keeps (fun s : State => s.pinLow), apply_ite (fun s : State => s.pinLow)]
  · simp [foldl_keeps (fun s : State => s.intake), apply_ite (fun s : State => s.intake)]
  · simp [foldl_keeps (fun s : State => s.tables), apply_ite (fun s : State => s.tables)]
  · simp [foldl_keeps (fun s : State => s.contacts), apply_ite (fun s : State => s.contacts)]
  · simp [foldl_keeps (fun s : State => s.heats), apply_ite (fun s : State => s.heats)]
  · simp [foldl_keeps (fun s : State => s.orderClamps), apply_ite (fun s : State => s.orderClamps)]
  · simp [foldl_keeps (fun s : State => s.holding), apply_ite (fun s : State => s.holding)]
  · simp [foldl_keeps (fun s : State => s.circuits), apply_ite (fun s : State => s.circuits)]
  · simp [foldl_keeps (fun s : State => s.taps), apply_ite (fun s : State => s.taps)]
  · simp [foldl_keeps (fun s : State => s.watch), apply_ite (fun s : State => s.watch)]
  · simp [foldl_keeps (fun s : State => s.mgmt), apply_ite (fun s : State => s.mgmt)]

@[simp] theorem State.remakeChanged_frame (s0 : State) :
    (s0.remakeChanged s).pending = s.pending ∧ (s0.remakeChanged s).time = s.time ∧
    (s0.remakeChanged s).pinLow = s.pinLow ∧ (s0.remakeChanged s).intake = s.intake ∧
    (s0.remakeChanged s).tables = s.tables ∧ (s0.remakeChanged s).contacts = s.contacts ∧
    (s0.remakeChanged s).heats = s.heats ∧ (s0.remakeChanged s).orderClamps = s.orderClamps ∧
    (s0.remakeChanged s).holding = s.holding ∧ (s0.remakeChanged s).circuits = s.circuits ∧
    (s0.remakeChanged s).taps = s.taps ∧ (s0.remakeChanged s).watch = s.watch ∧ (s0.remakeChanged s).mgmt = s.mgmt := by
  unfold State.remakeChanged; try dsimp only
  (repeat' split) <;> simp

@[simp] theorem State.orderPower_frame (f : Furnace) (v : Nat) :
    (s.orderPower f v).pending = s.pending ∧ (s.orderPower f v).time = s.time ∧
    (s.orderPower f v).pinLow = s.pinLow ∧ (s.orderPower f v).loop = s.loop ∧
    (s.orderPower f v).intake = s.intake ∧ (s.orderPower f v).tables = s.tables ∧
    (s.orderPower f v).contacts = s.contacts ∧ (s.orderPower f v).heats = s.heats ∧
    (s.orderPower f v).holding = s.holding ∧ (s.orderPower f v).circuits = s.circuits ∧
    (s.orderPower f v).taps = s.taps ∧ (s.orderPower f v).watch = s.watch ∧ (s.orderPower f v).mgmt = s.mgmt := by
  unfold State.orderPower; try dsimp only
  (repeat' split) <;> simp

@[simp] theorem State.rampExpire_frame (f : Furnace) :
    (s.rampExpire f).pending = s.pending ∧ (s.rampExpire f).time = s.time ∧ (s.rampExpire f).pinLow = s.pinLow ∧
    (s.rampExpire f).intake = s.intake ∧ (s.rampExpire f).tables = s.tables ∧
    (s.rampExpire f).contacts = s.contacts ∧ (s.rampExpire f).heats = s.heats ∧
    (s.rampExpire f).orderClamps = s.orderClamps ∧ (s.rampExpire f).holding = s.holding ∧
    (s.rampExpire f).circuits = s.circuits ∧ (s.rampExpire f).taps = s.taps ∧ (s.rampExpire f).watch = s.watch ∧
    (s.rampExpire f).mgmt = s.mgmt := by
  unfold State.rampExpire; try dsimp only
  (repeat' split) <;> simp

@[simp] theorem State.suspendFollow_frame (f : Furnace) :
    (s.suspendFollow f).pending = s.pending ∧ (s.suspendFollow f).time = s.time ∧
    (s.suspendFollow f).pinLow = s.pinLow ∧ (s.suspendFollow f).loop = s.loop ∧
    (s.suspendFollow f).intake = s.intake ∧ (s.suspendFollow f).tables = s.tables ∧
    (s.suspendFollow f).contacts = s.contacts ∧ (s.suspendFollow f).heats = s.heats ∧
    (s.suspendFollow f).orderClamps = s.orderClamps ∧ (s.suspendFollow f).holding = s.holding ∧
    (s.suspendFollow f).circuits = s.circuits ∧ (s.suspendFollow f).taps = s.taps ∧
    (s.suspendFollow f).watch = s.watch ∧ (s.suspendFollow f).mgmt = s.mgmt := by
  unfold State.suspendFollow; try dsimp only
  (repeat' split) <;> simp

@[simp] theorem State.actualPower_frame (f : Furnace) (v : Nat) :
    (s.actualPower f v).pending = s.pending ∧ (s.actualPower f v).time = s.time ∧
    (s.actualPower f v).pinLow = s.pinLow ∧ (s.actualPower f v).loop = s.loop ∧
    (s.actualPower f v).intake = s.intake ∧ (s.actualPower f v).tables = s.tables ∧
    (s.actualPower f v).contacts = s.contacts ∧ (s.actualPower f v).heats = s.heats ∧
    (s.actualPower f v).orderClamps = s.orderClamps ∧ (s.actualPower f v).holding = s.holding ∧
    (s.actualPower f v).circuits = s.circuits ∧ (s.actualPower f v).taps = s.taps ∧
    (s.actualPower f v).watch = s.watch ∧ (s.actualPower f v).mgmt = s.mgmt := by
  unfold State.actualPower; try dsimp only
  (repeat' split) <;> simp

@[simp] theorem State.placeZeros_frame :
    (s.placeZeros).pending = s.pending ∧ (s.placeZeros).time = s.time ∧ (s.placeZeros).pinLow = s.pinLow ∧
    (s.placeZeros).intake = s.intake ∧ (s.placeZeros).tables = s.tables ∧ (s.placeZeros).contacts = s.contacts ∧
    (s.placeZeros).heats = s.heats ∧ (s.placeZeros).orderClamps = s.orderClamps ∧
    (s.placeZeros).holding = s.holding ∧ (s.placeZeros).circuits = s.circuits ∧ (s.placeZeros).taps = s.taps ∧
    (s.placeZeros).watch = s.watch ∧ (s.placeZeros).mgmt = s.mgmt := by
  unfold State.placeZeros
  refine ⟨?_, ?_, ?_, ?_, ?_, ?_, ?_, ?_, ?_, ?_, ?_, ?_, ?_⟩
  · simp [foldl_keeps (fun s : State => s.pending), apply_ite (fun s : State => s.pending)]
  · simp [foldl_keeps (fun s : State => s.time), apply_ite (fun s : State => s.time)]
  · simp [foldl_keeps (fun s : State => s.pinLow), apply_ite (fun s : State => s.pinLow)]
  · simp [foldl_keeps (fun s : State => s.intake), apply_ite (fun s : State => s.intake)]
  · simp [foldl_keeps (fun s : State => s.tables), apply_ite (fun s : State => s.tables)]
  · simp [foldl_keeps (fun s : State => s.contacts), apply_ite (fun s : State => s.contacts)]
  · simp [foldl_keeps (fun s : State => s.heats), apply_ite (fun s : State => s.heats)]
  · simp [foldl_keeps (fun s : State => s.orderClamps), apply_ite (fun s : State => s.orderClamps)]
  · simp [foldl_keeps (fun s : State => s.holding), apply_ite (fun s : State => s.holding)]
  · simp [foldl_keeps (fun s : State => s.circuits), apply_ite (fun s : State => s.circuits)]
  · simp [foldl_keeps (fun s : State => s.taps), apply_ite (fun s : State => s.taps)]
  · simp [foldl_keeps (fun s : State => s.watch), apply_ite (fun s : State => s.watch)]
  · simp [foldl_keeps (fun s : State => s.mgmt), apply_ite (fun s : State => s.mgmt)]

@[simp] theorem State.remeasureDipAge_frame (f : Furnace) :
    (s.remeasureDipAge f).pending = s.pending ∧ (s.remeasureDipAge f).time = s.time ∧
    (s.remeasureDipAge f).pinLow = s.pinLow ∧ (s.remeasureDipAge f).loop = s.loop ∧
    (s.remeasureDipAge f).intake = s.intake ∧ (s.remeasureDipAge f).tables = s.tables ∧
    (s.remeasureDipAge f).contacts = s.contacts ∧ (s.remeasureDipAge f).heats = s.heats ∧
    (s.remeasureDipAge f).power = s.power ∧ (s.remeasureDipAge f).orderClamps = s.orderClamps ∧
    (s.remeasureDipAge f).holding = s.holding ∧ (s.remeasureDipAge f).circuits = s.circuits ∧
    (s.remeasureDipAge f).taps.ready = s.taps.ready ∧ (s.remeasureDipAge f).taps.queue = s.taps.queue ∧
    (s.remeasureDipAge f).taps.station = s.taps.station ∧ (s.remeasureDipAge f).taps.pour = s.taps.pour ∧
    (s.remeasureDipAge f).taps.tiltStart = s.taps.tiltStart ∧
    (s.remeasureDipAge f).taps.pourTimer = s.taps.pourTimer ∧
    (s.remeasureDipAge f).taps.returnTimer = s.taps.returnTimer ∧ (s.remeasureDipAge f).taps.held = s.taps.held ∧
    (s.remeasureDipAge f).taps.tilt = s.taps.tilt ∧ (s.remeasureDipAge f).taps.ladle = s.taps.ladle ∧
    (s.remeasureDipAge f).taps.malformed = s.taps.malformed ∧ (s.remeasureDipAge f).watch = s.watch ∧
    (s.remeasureDipAge f).mgmt = s.mgmt := by
  unfold State.remeasureDipAge; try dsimp only
  (repeat' split) <;> simp

@[simp] theorem State.evaluateReady_frame :
    (s.evaluateReady).pending = s.pending ∧ (s.evaluateReady).time = s.time ∧ (s.evaluateReady).pinLow = s.pinLow ∧
    (s.evaluateReady).loop = s.loop ∧ (s.evaluateReady).intake = s.intake ∧ (s.evaluateReady).tables = s.tables ∧
    (s.evaluateReady).contacts = s.contacts ∧ (s.evaluateReady).heats = s.heats ∧
    (s.evaluateReady).power = s.power ∧ (s.evaluateReady).orderClamps = s.orderClamps ∧
    (s.evaluateReady).holding = s.holding ∧ (s.evaluateReady).circuits = s.circuits ∧
    (s.evaluateReady).taps.queue = s.taps.queue ∧ (s.evaluateReady).taps.station = s.taps.station ∧
    (s.evaluateReady).taps.pour = s.taps.pour ∧ (s.evaluateReady).taps.tiltStart = s.taps.tiltStart ∧
    (s.evaluateReady).taps.pourTimer = s.taps.pourTimer ∧ (s.evaluateReady).taps.returnTimer = s.taps.returnTimer ∧
    (s.evaluateReady).taps.held = s.taps.held ∧ (s.evaluateReady).taps.tilt = s.taps.tilt ∧
    (s.evaluateReady).taps.ladle = s.taps.ladle ∧ (s.evaluateReady).taps.dipAge = s.taps.dipAge ∧
    (s.evaluateReady).taps.malformed = s.taps.malformed ∧ (s.evaluateReady).watch = s.watch ∧
    (s.evaluateReady).mgmt = s.mgmt := by
  unfold State.evaluateReady; try dsimp only
  (repeat' split) <;> simp

@[simp] theorem State.withdraw_frame (r : Pour) :
    (s.withdraw r).pending = s.pending ∧ (s.withdraw r).time = s.time ∧ (s.withdraw r).pinLow = s.pinLow ∧
    (s.withdraw r).intake = s.intake ∧ (s.withdraw r).tables = s.tables ∧ (s.withdraw r).contacts = s.contacts ∧
    (s.withdraw r).heats = s.heats ∧ (s.withdraw r).power = s.power ∧ (s.withdraw r).orderClamps = s.orderClamps ∧
    (s.withdraw r).holding = s.holding ∧ (s.withdraw r).circuits = s.circuits ∧ (s.withdraw r).taps = s.taps ∧
    (s.withdraw r).watch = s.watch ∧ (s.withdraw r).mgmt = s.mgmt := by
  unfold State.withdraw; try dsimp only
  (repeat' split) <;> simp

@[simp] theorem State.freeStation_frame :
    (s.freeStation).pending = s.pending ∧ (s.freeStation).time = s.time ∧ (s.freeStation).pinLow = s.pinLow ∧
    (s.freeStation).loop = s.loop ∧ (s.freeStation).intake = s.intake ∧ (s.freeStation).tables = s.tables ∧
    (s.freeStation).contacts = s.contacts ∧ (s.freeStation).heats = s.heats ∧ (s.freeStation).power = s.power ∧
    (s.freeStation).orderClamps = s.orderClamps ∧ (s.freeStation).holding = s.holding ∧
    (s.freeStation).circuits = s.circuits ∧ (s.freeStation).taps.ready = s.taps.ready ∧
    (s.freeStation).taps.queue = s.taps.queue ∧ (s.freeStation).taps.tiltStart = s.taps.tiltStart ∧
    (s.freeStation).taps.pourTimer = s.taps.pourTimer ∧ (s.freeStation).taps.returnTimer = s.taps.returnTimer ∧
    (s.freeStation).taps.held = s.taps.held ∧ (s.freeStation).taps.tilt = s.taps.tilt ∧
    (s.freeStation).taps.ladle = s.taps.ladle ∧ (s.freeStation).taps.dipAge = s.taps.dipAge ∧
    (s.freeStation).taps.malformed = s.taps.malformed ∧ (s.freeStation).watch = s.watch ∧
    (s.freeStation).mgmt = s.mgmt := by
  unfold State.freeStation; try dsimp only
  (repeat' split) <;> simp

@[simp] theorem State.accountPour_frame (r : Pour) :
    (s.accountPour r).pending = s.pending ∧ (s.accountPour r).time = s.time ∧
    (s.accountPour r).pinLow = s.pinLow ∧ (s.accountPour r).loop = s.loop ∧
    (s.accountPour r).intake = s.intake ∧
    (s.accountPour r).tables = s.tables ∧ (s.accountPour r).contacts = s.contacts ∧
    (s.accountPour r).power = s.power ∧ (s.accountPour r).orderClamps = s.orderClamps ∧
    (s.accountPour r).holding = s.holding ∧ (s.accountPour r).circuits = s.circuits ∧
    (s.accountPour r).taps.ready = s.taps.ready ∧ (s.accountPour r).taps.queue = s.taps.queue ∧
    (s.accountPour r).taps.tiltStart = s.taps.tiltStart ∧ (s.accountPour r).taps.pourTimer = s.taps.pourTimer ∧
    (s.accountPour r).taps.held = s.taps.held ∧ (s.accountPour r).taps.tilt = s.taps.tilt ∧
    (s.accountPour r).taps.ladle = s.taps.ladle ∧ (s.accountPour r).taps.malformed = s.taps.malformed ∧
    (s.accountPour r).taps.station = .idle ∧ (s.accountPour r).taps.pour = none ∧
    (s.accountPour r).taps.returnTimer = .idle ∧ (s.accountPour r).watch = s.watch ∧ (s.accountPour r).mgmt = s.mgmt := by
  unfold State.accountPour State.freeStation; try dsimp only
  (repeat' split) <;> simp

@[simp] theorem State.completePour_frame (r : Pour) :
    (s.completePour r).pending = s.pending ∧ (s.completePour r).time = s.time ∧
    (s.completePour r).pinLow = s.pinLow ∧ (s.completePour r).intake = s.intake ∧
    (s.completePour r).tables = s.tables ∧ (s.completePour r).contacts = s.contacts ∧
    (s.completePour r).power = s.power ∧ (s.completePour r).orderClamps = s.orderClamps ∧
    (s.completePour r).holding = s.holding ∧ (s.completePour r).circuits = s.circuits ∧
    (s.completePour r).taps.ready = s.taps.ready ∧ (s.completePour r).taps.queue = s.taps.queue ∧
    (s.completePour r).taps.tiltStart = s.taps.tiltStart ∧ (s.completePour r).taps.pourTimer = s.taps.pourTimer ∧
    (s.completePour r).taps.held = s.taps.held ∧ (s.completePour r).taps.tilt = s.taps.tilt ∧
    (s.completePour r).taps.ladle = s.taps.ladle ∧ (s.completePour r).taps.malformed = s.taps.malformed ∧
    (s.completePour r).watch = s.watch ∧ (s.completePour r).mgmt = s.mgmt := by
  unfold State.completePour; try dsimp only
  (repeat' split) <;> simp

@[simp] theorem State.completionTest_frame :
    (s.completionTest).pending = s.pending ∧ (s.completionTest).time = s.time ∧
    (s.completionTest).pinLow = s.pinLow ∧ (s.completionTest).intake = s.intake ∧
    (s.completionTest).tables = s.tables ∧ (s.completionTest).contacts = s.contacts ∧
    (s.completionTest).power = s.power ∧ (s.completionTest).orderClamps = s.orderClamps ∧
    (s.completionTest).holding = s.holding ∧ (s.completionTest).circuits = s.circuits ∧
    (s.completionTest).taps.ready = s.taps.ready ∧ (s.completionTest).taps.queue = s.taps.queue ∧
    (s.completionTest).taps.tiltStart = s.taps.tiltStart ∧ (s.completionTest).taps.pourTimer = s.taps.pourTimer ∧
    (s.completionTest).taps.held = s.taps.held ∧ (s.completionTest).taps.tilt = s.taps.tilt ∧
    (s.completionTest).taps.ladle = s.taps.ladle ∧ (s.completionTest).taps.malformed = s.taps.malformed ∧
    (s.completionTest).watch = s.watch ∧ (s.completionTest).mgmt = s.mgmt := by
  unfold State.completionTest; try dsimp only
  (repeat' split) <;> simp

@[simp] theorem State.startReturn_frame (r : Pour) :
    (s.startReturn r).pending = s.pending ∧ (s.startReturn r).time = s.time ∧ (s.startReturn r).pinLow = s.pinLow ∧
    (s.startReturn r).intake = s.intake ∧ (s.startReturn r).tables = s.tables ∧
    (s.startReturn r).contacts = s.contacts ∧ (s.startReturn r).heats = s.heats ∧
    (s.startReturn r).power = s.power ∧ (s.startReturn r).orderClamps = s.orderClamps ∧
    (s.startReturn r).holding = s.holding ∧ (s.startReturn r).circuits = s.circuits ∧
    (s.startReturn r).taps.ready = s.taps.ready ∧ (s.startReturn r).taps.queue = s.taps.queue ∧
    (s.startReturn r).taps.pour = s.taps.pour ∧ (s.startReturn r).taps.tiltStart = s.taps.tiltStart ∧
    (s.startReturn r).taps.held = s.taps.held ∧ (s.startReturn r).taps.tilt = s.taps.tilt ∧
    (s.startReturn r).taps.ladle = s.taps.ladle ∧ (s.startReturn r).taps.dipAge = s.taps.dipAge ∧
    (s.startReturn r).taps.malformed = s.taps.malformed ∧ (s.startReturn r).watch = s.watch ∧
    (s.startReturn r).mgmt = s.mgmt := by
  unfold State.startReturn; try dsimp only
  (repeat' split) <;> simp

@[simp] theorem State.endPour_frame (r : Pour) :
    (s.endPour r).pending = s.pending ∧ (s.endPour r).time = s.time ∧ (s.endPour r).pinLow = s.pinLow ∧
    (s.endPour r).intake = s.intake ∧ (s.endPour r).tables = s.tables ∧ (s.endPour r).contacts = s.contacts ∧
    (s.endPour r).power = s.power ∧ (s.endPour r).orderClamps = s.orderClamps ∧ (s.endPour r).holding = s.holding ∧
    (s.endPour r).circuits = s.circuits ∧ (s.endPour r).taps.ready = s.taps.ready ∧
    (s.endPour r).taps.queue = s.taps.queue ∧ (s.endPour r).taps.tiltStart = s.taps.tiltStart ∧
    (s.endPour r).taps.held = s.taps.held ∧ (s.endPour r).taps.tilt = s.taps.tilt ∧
    (s.endPour r).taps.ladle = s.taps.ladle ∧ (s.endPour r).taps.malformed = s.taps.malformed ∧
    (s.endPour r).watch = s.watch ∧ (s.endPour r).mgmt = s.mgmt := by
  unfold State.endPour; try dsimp only
  (repeat' split) <;> simp

@[simp] theorem State.interruptPour_frame (r : Pour) (b : Bool) :
    (s.interruptPour r b).pending = s.pending ∧ (s.interruptPour r b).time = s.time ∧
    (s.interruptPour r b).pinLow = s.pinLow ∧ (s.interruptPour r b).intake = s.intake ∧
    (s.interruptPour r b).tables = s.tables ∧ (s.interruptPour r b).contacts = s.contacts ∧
    (s.interruptPour r b).power = s.power ∧ (s.interruptPour r b).orderClamps = s.orderClamps ∧
    (s.interruptPour r b).holding = s.holding ∧ (s.interruptPour r b).circuits = s.circuits ∧
    (s.interruptPour r b).taps.ready = s.taps.ready ∧ (s.interruptPour r b).taps.queue = s.taps.queue ∧
    (s.interruptPour r b).taps.tiltStart = s.taps.tiltStart ∧ (s.interruptPour r b).taps.held = s.taps.held ∧
    (s.interruptPour r b).taps.tilt = s.taps.tilt ∧ (s.interruptPour r b).taps.ladle = s.taps.ladle ∧
    (s.interruptPour r b).taps.malformed = s.taps.malformed ∧ (s.interruptPour r b).watch = s.watch ∧
    (s.interruptPour r b).mgmt.selection = s.mgmt.selection ∧ (s.interruptPour r b).mgmt.latch = s.mgmt.latch ∧
    (s.interruptPour r b).mgmt.validator = s.mgmt.validator ∧ (s.interruptPour r b).mgmt.params = s.mgmt.params ∧
    (s.interruptPour r b).mgmt.locked = s.mgmt.locked ∧ (s.interruptPour r b).mgmt.frame = s.mgmt.frame := by
  unfold State.interruptPour; try dsimp only
  (repeat' split) <;> simp

@[simp] theorem State.releaseFurnace_frame (r : Pour) :
    (s.releaseFurnace r).pending = s.pending ∧ (s.releaseFurnace r).time = s.time ∧
    (s.releaseFurnace r).pinLow = s.pinLow ∧ (s.releaseFurnace r).intake = s.intake ∧
    (s.releaseFurnace r).tables = s.tables ∧ (s.releaseFurnace r).contacts = s.contacts ∧
    (s.releaseFurnace r).power = s.power ∧ (s.releaseFurnace r).orderClamps = s.orderClamps ∧
    (s.releaseFurnace r).holding = s.holding ∧ (s.releaseFurnace r).circuits = s.circuits ∧
    (s.releaseFurnace r).taps.ready = s.taps.ready ∧ (s.releaseFurnace r).taps.queue = s.taps.queue ∧
    (s.releaseFurnace r).taps.station = s.taps.station ∧ (s.releaseFurnace r).taps.pour = s.taps.pour ∧
    (s.releaseFurnace r).taps.pourTimer = s.taps.pourTimer ∧
    (s.releaseFurnace r).taps.returnTimer = s.taps.returnTimer ∧ (s.releaseFurnace r).taps.held = s.taps.held ∧
    (s.releaseFurnace r).taps.tilt = s.taps.tilt ∧ (s.releaseFurnace r).taps.ladle = s.taps.ladle ∧
    (s.releaseFurnace r).taps.dipAge = s.taps.dipAge ∧ (s.releaseFurnace r).taps.malformed = s.taps.malformed ∧
    (s.releaseFurnace r).watch = s.watch ∧ (s.releaseFurnace r).mgmt = s.mgmt := by
  unfold State.releaseFurnace; try dsimp only
  (repeat' split) <;> simp

@[simp] theorem State.abandon_frame (r : Pour) (b : Bool) :
    (s.abandon r b).pending = s.pending ∧ (s.abandon r b).time = s.time ∧ (s.abandon r b).pinLow = s.pinLow ∧
    (s.abandon r b).intake = s.intake ∧ (s.abandon r b).tables = s.tables ∧ (s.abandon r b).contacts = s.contacts ∧
    (s.abandon r b).power = s.power ∧ (s.abandon r b).orderClamps = s.orderClamps ∧
    (s.abandon r b).holding = s.holding ∧ (s.abandon r b).circuits = s.circuits ∧
    (s.abandon r b).taps.ready = s.taps.ready ∧ (s.abandon r b).taps.pourTimer = s.taps.pourTimer ∧
    (s.abandon r b).taps.returnTimer = s.taps.returnTimer ∧ (s.abandon r b).taps.held = s.taps.held ∧
    (s.abandon r b).taps.tilt = s.taps.tilt ∧ (s.abandon r b).taps.ladle = s.taps.ladle ∧
    (s.abandon r b).taps.dipAge = s.taps.dipAge ∧ (s.abandon r b).taps.malformed = s.taps.malformed ∧
    (s.abandon r b).watch = s.watch ∧ (s.abandon r b).mgmt.selection = s.mgmt.selection ∧
    (s.abandon r b).mgmt.latch = s.mgmt.latch ∧ (s.abandon r b).mgmt.validator = s.mgmt.validator ∧
    (s.abandon r b).mgmt.params = s.mgmt.params ∧ (s.abandon r b).mgmt.locked = s.mgmt.locked ∧
    (s.abandon r b).mgmt.frame = s.mgmt.frame := by
  unfold State.abandon; try dsimp only
  (repeat' split) <;> simp

@[simp] theorem State.abandonOn_frame (p : Furnace → Bool) :
    (s.abandonOn p).pending = s.pending ∧ (s.abandonOn p).time = s.time ∧ (s.abandonOn p).pinLow = s.pinLow ∧
    (s.abandonOn p).intake = s.intake ∧ (s.abandonOn p).tables = s.tables ∧ (s.abandonOn p).contacts = s.contacts ∧
    (s.abandonOn p).power = s.power ∧ (s.abandonOn p).orderClamps = s.orderClamps ∧
    (s.abandonOn p).holding = s.holding ∧ (s.abandonOn p).circuits = s.circuits ∧
    (s.abandonOn p).taps.ready = s.taps.ready ∧ (s.abandonOn p).taps.pourTimer = s.taps.pourTimer ∧
    (s.abandonOn p).taps.returnTimer = s.taps.returnTimer ∧ (s.abandonOn p).taps.held = s.taps.held ∧
    (s.abandonOn p).taps.tilt = s.taps.tilt ∧ (s.abandonOn p).taps.ladle = s.taps.ladle ∧
    (s.abandonOn p).taps.dipAge = s.taps.dipAge ∧ (s.abandonOn p).taps.malformed = s.taps.malformed ∧
    (s.abandonOn p).watch = s.watch ∧ (s.abandonOn p).mgmt.selection = s.mgmt.selection ∧
    (s.abandonOn p).mgmt.latch = s.mgmt.latch ∧ (s.abandonOn p).mgmt.validator = s.mgmt.validator ∧
    (s.abandonOn p).mgmt.params = s.mgmt.params ∧ (s.abandonOn p).mgmt.locked = s.mgmt.locked ∧
    (s.abandonOn p).mgmt.frame = s.mgmt.frame := by
  unfold State.abandonOn; try dsimp only
  (repeat' split) <;> simp

@[simp] theorem State.tapOnTrip_frame (c : CircuitNo) :
    (s.tapOnTrip c).pending = s.pending ∧ (s.tapOnTrip c).time = s.time ∧ (s.tapOnTrip c).pinLow = s.pinLow ∧
    (s.tapOnTrip c).intake = s.intake ∧ (s.tapOnTrip c).tables = s.tables ∧ (s.tapOnTrip c).contacts = s.contacts ∧
    (s.tapOnTrip c).power = s.power ∧ (s.tapOnTrip c).orderClamps = s.orderClamps ∧
    (s.tapOnTrip c).holding = s.holding ∧ (s.tapOnTrip c).circuits = s.circuits ∧
    (s.tapOnTrip c).taps.ready = s.taps.ready ∧ (s.tapOnTrip c).taps.pourTimer = s.taps.pourTimer ∧
    (s.tapOnTrip c).taps.returnTimer = s.taps.returnTimer ∧ (s.tapOnTrip c).taps.held = s.taps.held ∧
    (s.tapOnTrip c).taps.tilt = s.taps.tilt ∧ (s.tapOnTrip c).taps.ladle = s.taps.ladle ∧
    (s.tapOnTrip c).taps.dipAge = s.taps.dipAge ∧ (s.tapOnTrip c).taps.malformed = s.taps.malformed ∧
    (s.tapOnTrip c).watch = s.watch ∧ (s.tapOnTrip c).mgmt.selection = s.mgmt.selection ∧
    (s.tapOnTrip c).mgmt.latch = s.mgmt.latch ∧ (s.tapOnTrip c).mgmt.validator = s.mgmt.validator ∧
    (s.tapOnTrip c).mgmt.params = s.mgmt.params ∧ (s.tapOnTrip c).mgmt.locked = s.mgmt.locked ∧
    (s.tapOnTrip c).mgmt.frame = s.mgmt.frame := by
  unfold State.tapOnTrip; try dsimp only
  (repeat' split) <;> simp

@[simp] theorem State.tapOnFollow_frame (f : Furnace) :
    (s.tapOnFollow f).pending = s.pending ∧ (s.tapOnFollow f).time = s.time ∧ (s.tapOnFollow f).pinLow = s.pinLow ∧
    (s.tapOnFollow f).intake = s.intake ∧ (s.tapOnFollow f).tables = s.tables ∧
    (s.tapOnFollow f).contacts = s.contacts ∧ (s.tapOnFollow f).power = s.power ∧
    (s.tapOnFollow f).orderClamps = s.orderClamps ∧ (s.tapOnFollow f).holding = s.holding ∧
    (s.tapOnFollow f).circuits = s.circuits ∧ (s.tapOnFollow f).taps.ready = s.taps.ready ∧
    (s.tapOnFollow f).taps.pourTimer = s.taps.pourTimer ∧ (s.tapOnFollow f).taps.returnTimer = s.taps.returnTimer ∧
    (s.tapOnFollow f).taps.held = s.taps.held ∧ (s.tapOnFollow f).taps.tilt = s.taps.tilt ∧
    (s.tapOnFollow f).taps.ladle = s.taps.ladle ∧ (s.tapOnFollow f).taps.dipAge = s.taps.dipAge ∧
    (s.tapOnFollow f).taps.malformed = s.taps.malformed ∧ (s.tapOnFollow f).watch = s.watch ∧
    (s.tapOnFollow f).mgmt.selection = s.mgmt.selection ∧ (s.tapOnFollow f).mgmt.latch = s.mgmt.latch ∧
    (s.tapOnFollow f).mgmt.validator = s.mgmt.validator ∧ (s.tapOnFollow f).mgmt.params = s.mgmt.params ∧
    (s.tapOnFollow f).mgmt.locked = s.mgmt.locked ∧ (s.tapOnFollow f).mgmt.frame = s.mgmt.frame := by
  unfold State.tapOnFollow; try dsimp only
  (repeat' split) <;> simp

@[simp] theorem State.tapOnProfile_frame :
    (s.tapOnProfile).pending = s.pending ∧ (s.tapOnProfile).time = s.time ∧ (s.tapOnProfile).pinLow = s.pinLow ∧
    (s.tapOnProfile).intake = s.intake ∧ (s.tapOnProfile).tables = s.tables ∧
    (s.tapOnProfile).contacts = s.contacts ∧ (s.tapOnProfile).power = s.power ∧
    (s.tapOnProfile).orderClamps = s.orderClamps ∧ (s.tapOnProfile).holding = s.holding ∧
    (s.tapOnProfile).circuits = s.circuits ∧ (s.tapOnProfile).taps.ready = s.taps.ready ∧
    (s.tapOnProfile).taps.pourTimer = s.taps.pourTimer ∧ (s.tapOnProfile).taps.returnTimer = s.taps.returnTimer ∧
    (s.tapOnProfile).taps.held = s.taps.held ∧ (s.tapOnProfile).taps.tilt = s.taps.tilt ∧
    (s.tapOnProfile).taps.ladle = s.taps.ladle ∧ (s.tapOnProfile).taps.dipAge = s.taps.dipAge ∧
    (s.tapOnProfile).taps.malformed = s.taps.malformed ∧ (s.tapOnProfile).watch = s.watch ∧
    (s.tapOnProfile).mgmt.selection = s.mgmt.selection ∧ (s.tapOnProfile).mgmt.latch = s.mgmt.latch ∧
    (s.tapOnProfile).mgmt.validator = s.mgmt.validator ∧ (s.tapOnProfile).mgmt.params = s.mgmt.params ∧
    (s.tapOnProfile).mgmt.locked = s.mgmt.locked ∧ (s.tapOnProfile).mgmt.frame = s.mgmt.frame := by
  unfold State.tapOnProfile; try dsimp only
  (repeat' split) <;> simp

@[simp] theorem State.tapOnExpired_frame :
    (s.tapOnExpired).pending = s.pending ∧ (s.tapOnExpired).time = s.time ∧ (s.tapOnExpired).pinLow = s.pinLow ∧
    (s.tapOnExpired).intake = s.intake ∧ (s.tapOnExpired).tables = s.tables ∧
    (s.tapOnExpired).contacts = s.contacts ∧ (s.tapOnExpired).power = s.power ∧
    (s.tapOnExpired).orderClamps = s.orderClamps ∧ (s.tapOnExpired).holding = s.holding ∧
    (s.tapOnExpired).circuits = s.circuits ∧ (s.tapOnExpired).taps.ready = s.taps.ready ∧
    (s.tapOnExpired).taps.pourTimer = s.taps.pourTimer ∧ (s.tapOnExpired).taps.returnTimer = s.taps.returnTimer ∧
    (s.tapOnExpired).taps.held = s.taps.held ∧ (s.tapOnExpired).taps.tilt = s.taps.tilt ∧
    (s.tapOnExpired).taps.ladle = s.taps.ladle ∧ (s.tapOnExpired).taps.dipAge = s.taps.dipAge ∧
    (s.tapOnExpired).taps.malformed = s.taps.malformed ∧ (s.tapOnExpired).watch = s.watch ∧
    (s.tapOnExpired).mgmt.selection = s.mgmt.selection ∧ (s.tapOnExpired).mgmt.latch = s.mgmt.latch ∧
    (s.tapOnExpired).mgmt.validator = s.mgmt.validator ∧ (s.tapOnExpired).mgmt.params = s.mgmt.params ∧
    (s.tapOnExpired).mgmt.locked = s.mgmt.locked ∧ (s.tapOnExpired).mgmt.frame = s.mgmt.frame := by
  unfold State.tapOnExpired; try dsimp only
  (repeat' split) <;> simp

@[simp] theorem State.tapOnAllStop_frame :
    (s.tapOnAllStop).pending = s.pending ∧ (s.tapOnAllStop).time = s.time ∧ (s.tapOnAllStop).pinLow = s.pinLow ∧
    (s.tapOnAllStop).intake = s.intake ∧ (s.tapOnAllStop).tables = s.tables ∧
    (s.tapOnAllStop).contacts = s.contacts ∧ (s.tapOnAllStop).power = s.power ∧
    (s.tapOnAllStop).orderClamps = s.orderClamps ∧ (s.tapOnAllStop).holding = s.holding ∧
    (s.tapOnAllStop).circuits = s.circuits ∧ (s.tapOnAllStop).taps.ready = s.taps.ready ∧
    (s.tapOnAllStop).taps.held = s.taps.held ∧ (s.tapOnAllStop).taps.tilt = s.taps.tilt ∧
    (s.tapOnAllStop).taps.ladle = s.taps.ladle ∧ (s.tapOnAllStop).taps.malformed = s.taps.malformed ∧
    (s.tapOnAllStop).watch = s.watch ∧ (s.tapOnAllStop).mgmt.selection = s.mgmt.selection ∧
    (s.tapOnAllStop).mgmt.latch = s.mgmt.latch ∧ (s.tapOnAllStop).mgmt.validator = s.mgmt.validator ∧
    (s.tapOnAllStop).mgmt.params = s.mgmt.params ∧ (s.tapOnAllStop).mgmt.locked = s.mgmt.locked ∧
    (s.tapOnAllStop).mgmt.frame = s.mgmt.frame := by
  unfold State.tapOnAllStop; try dsimp only
  (repeat' split) <;> simp

@[simp] theorem State.permitTest_frame :
    (s.permitTest).pending = s.pending ∧ (s.permitTest).time = s.time ∧ (s.permitTest).pinLow = s.pinLow ∧
    (s.permitTest).intake = s.intake ∧ (s.permitTest).tables = s.tables ∧ (s.permitTest).contacts = s.contacts ∧
    (s.permitTest).heats = s.heats ∧ (s.permitTest).power = s.power ∧ (s.permitTest).orderClamps = s.orderClamps ∧
    (s.permitTest).holding = s.holding ∧ (s.permitTest).circuits = s.circuits ∧
    (s.permitTest).taps.ready = s.taps.ready ∧ (s.permitTest).taps.queue = s.taps.queue ∧
    (s.permitTest).taps.pourTimer = s.taps.pourTimer ∧ (s.permitTest).taps.returnTimer = s.taps.returnTimer ∧
    (s.permitTest).taps.held = s.taps.held ∧ (s.permitTest).taps.tilt = s.taps.tilt ∧
    (s.permitTest).taps.ladle = s.taps.ladle ∧ (s.permitTest).taps.dipAge = s.taps.dipAge ∧
    (s.permitTest).taps.malformed = s.taps.malformed ∧ (s.permitTest).watch = s.watch ∧
    (s.permitTest).mgmt = s.mgmt := by
  unfold State.permitTest; try dsimp only
  (repeat' split) <;> simp

@[simp] theorem State.ladleValue_frame (v : Nat) :
    (s.ladleValue v).pending = s.pending ∧ (s.ladleValue v).time = s.time ∧ (s.ladleValue v).pinLow = s.pinLow ∧
    (s.ladleValue v).intake = s.intake ∧ (s.ladleValue v).tables = s.tables ∧
    (s.ladleValue v).contacts = s.contacts ∧ (s.ladleValue v).power = s.power ∧
    (s.ladleValue v).orderClamps = s.orderClamps ∧ (s.ladleValue v).holding = s.holding ∧
    (s.ladleValue v).circuits = s.circuits ∧ (s.ladleValue v).taps.ready = s.taps.ready ∧
    (s.ladleValue v).taps.queue = s.taps.queue ∧ (s.ladleValue v).taps.tiltStart = s.taps.tiltStart ∧
    (s.ladleValue v).taps.held = s.taps.held ∧ (s.ladleValue v).taps.tilt = s.taps.tilt ∧
    (s.ladleValue v).taps.malformed = s.taps.malformed ∧ (s.ladleValue v).watch = s.watch ∧
    (s.ladleValue v).mgmt = s.mgmt := by
  unfold State.ladleValue; try dsimp only
  (repeat' split) <;> simp

@[simp] theorem State.startPour_frame (r : Pour) :
    (s.startPour r).pending = s.pending ∧ (s.startPour r).time = s.time ∧ (s.startPour r).pinLow = s.pinLow ∧
    (s.startPour r).intake = s.intake ∧ (s.startPour r).tables = s.tables ∧ (s.startPour r).contacts = s.contacts ∧
    (s.startPour r).power = s.power ∧ (s.startPour r).orderClamps = s.orderClamps ∧
    (s.startPour r).holding = s.holding ∧ (s.startPour r).circuits = s.circuits ∧
    (s.startPour r).taps.ready = s.taps.ready ∧ (s.startPour r).taps.queue = s.taps.queue ∧
    (s.startPour r).taps.held = s.taps.held ∧ (s.startPour r).taps.tilt = s.taps.tilt ∧
    (s.startPour r).taps.ladle = s.taps.ladle ∧ (s.startPour r).taps.malformed = s.taps.malformed ∧
    (s.startPour r).watch = s.watch ∧ (s.startPour r).mgmt.selection = s.mgmt.selection ∧
    (s.startPour r).mgmt.latch = s.mgmt.latch ∧ (s.startPour r).mgmt.validator = s.mgmt.validator ∧
    (s.startPour r).mgmt.params = s.mgmt.params ∧ (s.startPour r).mgmt.locked = s.mgmt.locked ∧
    (s.startPour r).mgmt.frame = s.mgmt.frame := by
  unfold State.startPour; try dsimp only
  (repeat' split) <;> simp

@[simp] theorem State.tiltValue_frame (f : Furnace) (v : Nat) :
    (s.tiltValue f v).pending = s.pending ∧ (s.tiltValue f v).time = s.time ∧ (s.tiltValue f v).pinLow = s.pinLow ∧
    (s.tiltValue f v).intake = s.intake ∧ (s.tiltValue f v).tables = s.tables ∧
    (s.tiltValue f v).contacts = s.contacts ∧ (s.tiltValue f v).power = s.power ∧
    (s.tiltValue f v).orderClamps = s.orderClamps ∧ (s.tiltValue f v).holding = s.holding ∧
    (s.tiltValue f v).circuits = s.circuits ∧ (s.tiltValue f v).taps.ready = s.taps.ready ∧
    (s.tiltValue f v).taps.queue = s.taps.queue ∧ (s.tiltValue f v).taps.held = s.taps.held ∧
    (s.tiltValue f v).taps.ladle = s.taps.ladle ∧ (s.tiltValue f v).taps.malformed = s.taps.malformed ∧
    (s.tiltValue f v).watch = s.watch ∧ (s.tiltValue f v).mgmt.selection = s.mgmt.selection ∧
    (s.tiltValue f v).mgmt.latch = s.mgmt.latch ∧ (s.tiltValue f v).mgmt.validator = s.mgmt.validator ∧
    (s.tiltValue f v).mgmt.params = s.mgmt.params ∧ (s.tiltValue f v).mgmt.locked = s.mgmt.locked ∧
    (s.tiltValue f v).mgmt.frame = s.mgmt.frame := by
  unfold State.tiltValue; try dsimp only
  (repeat' split) <;> simp

@[simp] theorem State.tiltHomeNotice_frame (f : Furnace) :
    (s.tiltHomeNotice f).pending = s.pending ∧ (s.tiltHomeNotice f).time = s.time ∧
    (s.tiltHomeNotice f).pinLow = s.pinLow ∧ (s.tiltHomeNotice f).intake = s.intake ∧
    (s.tiltHomeNotice f).tables = s.tables ∧ (s.tiltHomeNotice f).contacts = s.contacts ∧
    (s.tiltHomeNotice f).power = s.power ∧ (s.tiltHomeNotice f).orderClamps = s.orderClamps ∧
    (s.tiltHomeNotice f).holding = s.holding ∧ (s.tiltHomeNotice f).circuits = s.circuits ∧
    (s.tiltHomeNotice f).taps.ready = s.taps.ready ∧ (s.tiltHomeNotice f).taps.queue = s.taps.queue ∧
    (s.tiltHomeNotice f).taps.tiltStart = s.taps.tiltStart ∧
    (s.tiltHomeNotice f).taps.pourTimer = s.taps.pourTimer ∧ (s.tiltHomeNotice f).taps.held = s.taps.held ∧
    (s.tiltHomeNotice f).taps.tilt = s.taps.tilt ∧ (s.tiltHomeNotice f).taps.ladle = s.taps.ladle ∧
    (s.tiltHomeNotice f).taps.malformed = s.taps.malformed ∧ (s.tiltHomeNotice f).watch = s.watch ∧
    (s.tiltHomeNotice f).mgmt = s.mgmt := by
  unfold State.tiltHomeNotice; try dsimp only
  (repeat' split) <;> simp

@[simp] theorem State.ladleStale_frame :
    (s.ladleStale).pending = s.pending ∧ (s.ladleStale).time = s.time ∧ (s.ladleStale).pinLow = s.pinLow ∧
    (s.ladleStale).intake = s.intake ∧ (s.ladleStale).tables = s.tables ∧ (s.ladleStale).contacts = s.contacts ∧
    (s.ladleStale).power = s.power ∧ (s.ladleStale).orderClamps = s.orderClamps ∧
    (s.ladleStale).holding = s.holding ∧ (s.ladleStale).circuits = s.circuits ∧
    (s.ladleStale).taps.ready = s.taps.ready ∧ (s.ladleStale).taps.queue = s.taps.queue ∧
    (s.ladleStale).taps.tiltStart = s.taps.tiltStart ∧ (s.ladleStale).taps.held = s.taps.held ∧
    (s.ladleStale).taps.tilt = s.taps.tilt ∧ (s.ladleStale).taps.ladle = s.taps.ladle ∧
    (s.ladleStale).taps.malformed = s.taps.malformed ∧ (s.ladleStale).watch = s.watch ∧
    (s.ladleStale).mgmt.selection = s.mgmt.selection ∧ (s.ladleStale).mgmt.latch = s.mgmt.latch ∧
    (s.ladleStale).mgmt.validator = s.mgmt.validator ∧ (s.ladleStale).mgmt.params = s.mgmt.params ∧
    (s.ladleStale).mgmt.locked = s.mgmt.locked ∧ (s.ladleStale).mgmt.frame = s.mgmt.frame := by
  unfold State.ladleStale; try dsimp only
  (repeat' split) <;> simp

@[simp] theorem State.tiltStale_frame (f : Furnace) :
    (s.tiltStale f).pending = s.pending ∧ (s.tiltStale f).time = s.time ∧ (s.tiltStale f).pinLow = s.pinLow ∧
    (s.tiltStale f).intake = s.intake ∧ (s.tiltStale f).tables = s.tables ∧ (s.tiltStale f).contacts = s.contacts ∧
    (s.tiltStale f).power = s.power ∧ (s.tiltStale f).orderClamps = s.orderClamps ∧
    (s.tiltStale f).holding = s.holding ∧ (s.tiltStale f).circuits = s.circuits ∧
    (s.tiltStale f).taps.ready = s.taps.ready ∧ (s.tiltStale f).taps.held = s.taps.held ∧
    (s.tiltStale f).taps.tilt = s.taps.tilt ∧ (s.tiltStale f).taps.ladle = s.taps.ladle ∧
    (s.tiltStale f).taps.malformed = s.taps.malformed ∧ (s.tiltStale f).watch = s.watch ∧
    (s.tiltStale f).mgmt.selection = s.mgmt.selection ∧ (s.tiltStale f).mgmt.latch = s.mgmt.latch ∧
    (s.tiltStale f).mgmt.validator = s.mgmt.validator ∧ (s.tiltStale f).mgmt.params = s.mgmt.params ∧
    (s.tiltStale f).mgmt.locked = s.mgmt.locked ∧ (s.tiltStale f).mgmt.frame = s.mgmt.frame := by
  unfold State.tiltStale; try dsimp only
  (repeat' split) <;> simp

@[simp] theorem State.tiltStartExpire_frame :
    (s.tiltStartExpire).pending = s.pending ∧ (s.tiltStartExpire).time = s.time ∧
    (s.tiltStartExpire).pinLow = s.pinLow ∧ (s.tiltStartExpire).intake = s.intake ∧
    (s.tiltStartExpire).tables = s.tables ∧ (s.tiltStartExpire).contacts = s.contacts ∧
    (s.tiltStartExpire).power = s.power ∧ (s.tiltStartExpire).orderClamps = s.orderClamps ∧
    (s.tiltStartExpire).holding = s.holding ∧ (s.tiltStartExpire).circuits = s.circuits ∧
    (s.tiltStartExpire).taps.ready = s.taps.ready ∧ (s.tiltStartExpire).taps.pourTimer = s.taps.pourTimer ∧
    (s.tiltStartExpire).taps.returnTimer = s.taps.returnTimer ∧ (s.tiltStartExpire).taps.held = s.taps.held ∧
    (s.tiltStartExpire).taps.tilt = s.taps.tilt ∧ (s.tiltStartExpire).taps.ladle = s.taps.ladle ∧
    (s.tiltStartExpire).taps.dipAge = s.taps.dipAge ∧ (s.tiltStartExpire).taps.malformed = s.taps.malformed ∧
    (s.tiltStartExpire).watch = s.watch ∧ (s.tiltStartExpire).mgmt.selection = s.mgmt.selection ∧
    (s.tiltStartExpire).mgmt.latch = s.mgmt.latch ∧ (s.tiltStartExpire).mgmt.validator = s.mgmt.validator ∧
    (s.tiltStartExpire).mgmt.params = s.mgmt.params ∧ (s.tiltStartExpire).mgmt.locked = s.mgmt.locked ∧
    (s.tiltStartExpire).mgmt.frame = s.mgmt.frame := by
  unfold State.tiltStartExpire; try dsimp only
  (repeat' split) <;> simp

@[simp] theorem State.pourExpire_frame :
    (s.pourExpire).pending = s.pending ∧ (s.pourExpire).time = s.time ∧ (s.pourExpire).pinLow = s.pinLow ∧
    (s.pourExpire).intake = s.intake ∧ (s.pourExpire).tables = s.tables ∧ (s.pourExpire).contacts = s.contacts ∧
    (s.pourExpire).power = s.power ∧ (s.pourExpire).orderClamps = s.orderClamps ∧
    (s.pourExpire).holding = s.holding ∧ (s.pourExpire).circuits = s.circuits ∧
    (s.pourExpire).taps.ready = s.taps.ready ∧ (s.pourExpire).taps.queue = s.taps.queue ∧
    (s.pourExpire).taps.tiltStart = s.taps.tiltStart ∧ (s.pourExpire).taps.held = s.taps.held ∧
    (s.pourExpire).taps.tilt = s.taps.tilt ∧ (s.pourExpire).taps.ladle = s.taps.ladle ∧
    (s.pourExpire).taps.malformed = s.taps.malformed ∧ (s.pourExpire).watch = s.watch ∧
    (s.pourExpire).mgmt.selection = s.mgmt.selection ∧ (s.pourExpire).mgmt.latch = s.mgmt.latch ∧
    (s.pourExpire).mgmt.validator = s.mgmt.validator ∧ (s.pourExpire).mgmt.params = s.mgmt.params ∧
    (s.pourExpire).mgmt.locked = s.mgmt.locked ∧ (s.pourExpire).mgmt.frame = s.mgmt.frame := by
  unfold State.pourExpire; try dsimp only
  (repeat' split) <;> simp

@[simp] theorem State.queueDemand_frame (d : Demand) (n : Nat) :
    (s.queueDemand d n).pending = s.pending ∧ (s.queueDemand d n).time = s.time ∧
    (s.queueDemand d n).pinLow = s.pinLow ∧ (s.queueDemand d n).intake = s.intake ∧
    (s.queueDemand d n).tables = s.tables ∧ (s.queueDemand d n).contacts = s.contacts ∧
    (s.queueDemand d n).heats = s.heats ∧ (s.queueDemand d n).power = s.power ∧
    (s.queueDemand d n).orderClamps = s.orderClamps ∧ (s.queueDemand d n).holding = s.holding ∧
    (s.queueDemand d n).circuits = s.circuits ∧ (s.queueDemand d n).taps.ready = s.taps.ready ∧
    (s.queueDemand d n).taps.station = s.taps.station ∧ (s.queueDemand d n).taps.pour = s.taps.pour ∧
    (s.queueDemand d n).taps.tiltStart = s.taps.tiltStart ∧ (s.queueDemand d n).taps.pourTimer = s.taps.pourTimer ∧
    (s.queueDemand d n).taps.returnTimer = s.taps.returnTimer ∧ (s.queueDemand d n).taps.held = s.taps.held ∧
    (s.queueDemand d n).taps.tilt = s.taps.tilt ∧ (s.queueDemand d n).taps.ladle = s.taps.ladle ∧
    (s.queueDemand d n).taps.dipAge = s.taps.dipAge ∧ (s.queueDemand d n).taps.malformed = s.taps.malformed ∧
    (s.queueDemand d n).watch = s.watch ∧ (s.queueDemand d n).mgmt = s.mgmt := by
  unfold State.queueDemand; try dsimp only
  (repeat' split) <;> simp

@[simp] theorem State.demand_frame (d : Demand) :
    (s.demand d).pending = s.pending ∧ (s.demand d).time = s.time ∧ (s.demand d).pinLow = s.pinLow ∧
    (s.demand d).intake = s.intake ∧ (s.demand d).tables = s.tables ∧ (s.demand d).contacts = s.contacts ∧
    (s.demand d).heats = s.heats ∧ (s.demand d).power = s.power ∧ (s.demand d).orderClamps = s.orderClamps ∧
    (s.demand d).holding = s.holding ∧ (s.demand d).circuits = s.circuits ∧
    (s.demand d).taps.ready = s.taps.ready ∧ (s.demand d).taps.station = s.taps.station ∧
    (s.demand d).taps.pour = s.taps.pour ∧ (s.demand d).taps.tiltStart = s.taps.tiltStart ∧
    (s.demand d).taps.pourTimer = s.taps.pourTimer ∧ (s.demand d).taps.returnTimer = s.taps.returnTimer ∧
    (s.demand d).taps.held = s.taps.held ∧ (s.demand d).taps.tilt = s.taps.tilt ∧
    (s.demand d).taps.ladle = s.taps.ladle ∧ (s.demand d).taps.dipAge = s.taps.dipAge ∧
    (s.demand d).taps.malformed = s.taps.malformed ∧ (s.demand d).watch = s.watch ∧ (s.demand d).mgmt = s.mgmt := by
  unfold State.demand; try dsimp only
  (repeat' split) <;> simp

@[simp] theorem State.cancelHeld_frame (r : Pour) :
    (s.cancelHeld r).pending = s.pending ∧ (s.cancelHeld r).time = s.time ∧ (s.cancelHeld r).pinLow = s.pinLow ∧
    (s.cancelHeld r).intake = s.intake ∧ (s.cancelHeld r).tables = s.tables ∧
    (s.cancelHeld r).contacts = s.contacts ∧ (s.cancelHeld r).power = s.power ∧
    (s.cancelHeld r).orderClamps = s.orderClamps ∧ (s.cancelHeld r).holding = s.holding ∧
    (s.cancelHeld r).circuits = s.circuits ∧ (s.cancelHeld r).taps.ready = s.taps.ready ∧
    (s.cancelHeld r).taps.queue = s.taps.queue ∧ (s.cancelHeld r).taps.held = s.taps.held ∧
    (s.cancelHeld r).taps.tilt = s.taps.tilt ∧ (s.cancelHeld r).taps.ladle = s.taps.ladle ∧
    (s.cancelHeld r).taps.malformed = s.taps.malformed ∧ (s.cancelHeld r).watch = s.watch ∧
    (s.cancelHeld r).mgmt = s.mgmt := by
  unfold State.cancelHeld; try dsimp only
  (repeat' split) <;> simp

@[simp] theorem State.cancel_frame (i : Byte) :
    (s.cancel i).pending = s.pending ∧ (s.cancel i).time = s.time ∧ (s.cancel i).pinLow = s.pinLow ∧
    (s.cancel i).intake = s.intake ∧ (s.cancel i).tables = s.tables ∧ (s.cancel i).contacts = s.contacts ∧
    (s.cancel i).power = s.power ∧ (s.cancel i).orderClamps = s.orderClamps ∧ (s.cancel i).holding = s.holding ∧
    (s.cancel i).circuits = s.circuits ∧ (s.cancel i).taps.ready = s.taps.ready ∧
    (s.cancel i).taps.held = s.taps.held ∧ (s.cancel i).taps.tilt = s.taps.tilt ∧
    (s.cancel i).taps.ladle = s.taps.ladle ∧ (s.cancel i).taps.malformed = s.taps.malformed ∧
    (s.cancel i).watch = s.watch ∧ (s.cancel i).mgmt = s.mgmt := by
  unfold State.cancel; try dsimp only
  (repeat' split) <;> simp

@[simp] theorem State.malformed_frame :
    (s.malformed).pending = s.pending ∧ (s.malformed).time = s.time ∧ (s.malformed).pinLow = s.pinLow ∧
    (s.malformed).loop = s.loop ∧ (s.malformed).intake = s.intake ∧ (s.malformed).tables = s.tables ∧
    (s.malformed).contacts = s.contacts ∧ (s.malformed).heats = s.heats ∧ (s.malformed).power = s.power ∧
    (s.malformed).orderClamps = s.orderClamps ∧ (s.malformed).holding = s.holding ∧
    (s.malformed).circuits = s.circuits ∧ (s.malformed).taps.ready = s.taps.ready ∧
    (s.malformed).taps.queue = s.taps.queue ∧ (s.malformed).taps.station = s.taps.station ∧
    (s.malformed).taps.pour = s.taps.pour ∧ (s.malformed).taps.tiltStart = s.taps.tiltStart ∧
    (s.malformed).taps.pourTimer = s.taps.pourTimer ∧ (s.malformed).taps.returnTimer = s.taps.returnTimer ∧
    (s.malformed).taps.held = s.taps.held ∧ (s.malformed).taps.tilt = s.taps.tilt ∧
    (s.malformed).taps.ladle = s.taps.ladle ∧ (s.malformed).taps.dipAge = s.taps.dipAge ∧
    (s.malformed).watch = s.watch ∧ (s.malformed).mgmt = s.mgmt := by
  unfold State.malformed; try dsimp only
  (repeat' split) <;> simp

@[simp] theorem State.assign_frame (d : Demand) (f : Furnace) :
    (s.assign d f).pending = s.pending ∧ (s.assign d f).time = s.time ∧ (s.assign d f).pinLow = s.pinLow ∧
    (s.assign d f).loop = s.loop ∧ (s.assign d f).intake = s.intake ∧ (s.assign d f).tables = s.tables ∧
    (s.assign d f).contacts = s.contacts ∧ (s.assign d f).power = s.power ∧
    (s.assign d f).orderClamps = s.orderClamps ∧ (s.assign d f).holding = s.holding ∧
    (s.assign d f).circuits = s.circuits ∧ (s.assign d f).taps.tiltStart = s.taps.tiltStart ∧
    (s.assign d f).taps.pourTimer = s.taps.pourTimer ∧ (s.assign d f).taps.returnTimer = s.taps.returnTimer ∧
    (s.assign d f).taps.held = s.taps.held ∧ (s.assign d f).taps.tilt = s.taps.tilt ∧
    (s.assign d f).taps.ladle = s.taps.ladle ∧ (s.assign d f).taps.dipAge = s.taps.dipAge ∧
    (s.assign d f).taps.malformed = s.taps.malformed ∧ (s.assign d f).watch = s.watch ∧
    (s.assign d f).mgmt = s.mgmt := by
  unfold State.assign; try dsimp only
  (repeat' split) <;> simp

@[simp] theorem State.waterTest_frame (c : CircuitNo) :
    (s.waterTest c).pending = s.pending ∧ (s.waterTest c).time = s.time ∧ (s.waterTest c).pinLow = s.pinLow ∧
    (s.waterTest c).loop = s.loop ∧ (s.waterTest c).intake = s.intake ∧ (s.waterTest c).tables = s.tables ∧
    (s.waterTest c).contacts = s.contacts ∧ (s.waterTest c).heats = s.heats ∧ (s.waterTest c).power = s.power ∧
    (s.waterTest c).orderClamps = s.orderClamps ∧ (s.waterTest c).holding = s.holding ∧
    (s.waterTest c).taps = s.taps ∧ (s.waterTest c).watch = s.watch ∧ (s.waterTest c).mgmt = s.mgmt := by
  unfold State.waterTest; try dsimp only
  (repeat' split) <;> simp

@[simp] theorem State.waterTests_frame :
    (s.waterTests).pending = s.pending ∧ (s.waterTests).time = s.time ∧ (s.waterTests).pinLow = s.pinLow ∧
    (s.waterTests).loop = s.loop ∧ (s.waterTests).intake = s.intake ∧ (s.waterTests).tables = s.tables ∧
    (s.waterTests).contacts = s.contacts ∧ (s.waterTests).heats = s.heats ∧ (s.waterTests).power = s.power ∧
    (s.waterTests).orderClamps = s.orderClamps ∧ (s.waterTests).holding = s.holding ∧
    (s.waterTests).taps = s.taps ∧ (s.waterTests).watch = s.watch ∧ (s.waterTests).mgmt = s.mgmt := by
  unfold State.waterTests
  refine ⟨?_, ?_, ?_, ?_, ?_, ?_, ?_, ?_, ?_, ?_, ?_, ?_, ?_, ?_⟩
  · simp [foldl_keeps (fun s : State => s.pending), apply_ite (fun s : State => s.pending)]
  · simp [foldl_keeps (fun s : State => s.time), apply_ite (fun s : State => s.time)]
  · simp [foldl_keeps (fun s : State => s.pinLow), apply_ite (fun s : State => s.pinLow)]
  · simp [foldl_keeps (fun s : State => s.loop), apply_ite (fun s : State => s.loop)]
  · simp [foldl_keeps (fun s : State => s.intake), apply_ite (fun s : State => s.intake)]
  · simp [foldl_keeps (fun s : State => s.tables), apply_ite (fun s : State => s.tables)]
  · simp [foldl_keeps (fun s : State => s.contacts), apply_ite (fun s : State => s.contacts)]
  · simp [foldl_keeps (fun s : State => s.heats), apply_ite (fun s : State => s.heats)]
  · simp [foldl_keeps (fun s : State => s.power), apply_ite (fun s : State => s.power)]
  · simp [foldl_keeps (fun s : State => s.orderClamps), apply_ite (fun s : State => s.orderClamps)]
  · simp [foldl_keeps (fun s : State => s.holding), apply_ite (fun s : State => s.holding)]
  · simp [foldl_keeps (fun s : State => s.taps), apply_ite (fun s : State => s.taps)]
  · simp [foldl_keeps (fun s : State => s.watch), apply_ite (fun s : State => s.watch)]
  · simp [foldl_keeps (fun s : State => s.mgmt), apply_ite (fun s : State => s.mgmt)]

@[simp] theorem State.waterChanged_frame (s0 : State) :
    (s0.waterChanged s).pending = s.pending ∧ (s0.waterChanged s).time = s.time ∧
    (s0.waterChanged s).pinLow = s.pinLow ∧ (s0.waterChanged s).loop = s.loop ∧
    (s0.waterChanged s).intake = s.intake ∧ (s0.waterChanged s).tables = s.tables ∧
    (s0.waterChanged s).contacts = s.contacts ∧ (s0.waterChanged s).heats = s.heats ∧
    (s0.waterChanged s).power = s.power ∧ (s0.waterChanged s).orderClamps = s.orderClamps ∧
    (s0.waterChanged s).holding = s.holding ∧ (s0.waterChanged s).taps = s.taps ∧
    (s0.waterChanged s).watch = s.watch ∧ (s0.waterChanged s).mgmt = s.mgmt := by
  unfold State.waterChanged
  refine ⟨?_, ?_, ?_, ?_, ?_, ?_, ?_, ?_, ?_, ?_, ?_, ?_, ?_, ?_⟩
  · simp [foldl_keeps (fun s : State => s.pending), apply_ite (fun s : State => s.pending)]
  · simp [foldl_keeps (fun s : State => s.time), apply_ite (fun s : State => s.time)]
  · simp [foldl_keeps (fun s : State => s.pinLow), apply_ite (fun s : State => s.pinLow)]
  · simp [foldl_keeps (fun s : State => s.loop), apply_ite (fun s : State => s.loop)]
  · simp [foldl_keeps (fun s : State => s.intake), apply_ite (fun s : State => s.intake)]
  · simp [foldl_keeps (fun s : State => s.tables), apply_ite (fun s : State => s.tables)]
  · simp [foldl_keeps (fun s : State => s.contacts), apply_ite (fun s : State => s.contacts)]
  · simp [foldl_keeps (fun s : State => s.heats), apply_ite (fun s : State => s.heats)]
  · simp [foldl_keeps (fun s : State => s.power), apply_ite (fun s : State => s.power)]
  · simp [foldl_keeps (fun s : State => s.orderClamps), apply_ite (fun s : State => s.orderClamps)]
  · simp [foldl_keeps (fun s : State => s.holding), apply_ite (fun s : State => s.holding)]
  · simp [foldl_keeps (fun s : State => s.taps), apply_ite (fun s : State => s.taps)]
  · simp [foldl_keeps (fun s : State => s.watch), apply_ite (fun s : State => s.watch)]
  · simp [foldl_keeps (fun s : State => s.mgmt), apply_ite (fun s : State => s.mgmt)]

@[simp] theorem State.enterTrip_frame (c : CircuitNo) (x : TripCause) :
    (s.enterTrip c x).pending = s.pending ∧ (s.enterTrip c x).time = s.time ∧ (s.enterTrip c x).pinLow = s.pinLow ∧
    (s.enterTrip c x).intake = s.intake ∧ (s.enterTrip c x).tables = s.tables ∧
    (s.enterTrip c x).contacts = s.contacts ∧ (s.enterTrip c x).power = s.power ∧
    (s.enterTrip c x).orderClamps = s.orderClamps ∧ (s.enterTrip c x).holding = s.holding ∧
    (s.enterTrip c x).taps.ready = s.taps.ready ∧ (s.enterTrip c x).taps.pourTimer = s.taps.pourTimer ∧
    (s.enterTrip c x).taps.returnTimer = s.taps.returnTimer ∧ (s.enterTrip c x).taps.held = s.taps.held ∧
    (s.enterTrip c x).taps.tilt = s.taps.tilt ∧ (s.enterTrip c x).taps.ladle = s.taps.ladle ∧
    (s.enterTrip c x).taps.dipAge = s.taps.dipAge ∧ (s.enterTrip c x).taps.malformed = s.taps.malformed ∧
    (s.enterTrip c x).watch = s.watch ∧ (s.enterTrip c x).mgmt.selection = s.mgmt.selection ∧
    (s.enterTrip c x).mgmt.latch = s.mgmt.latch ∧ (s.enterTrip c x).mgmt.validator = s.mgmt.validator ∧
    (s.enterTrip c x).mgmt.params = s.mgmt.params ∧ (s.enterTrip c x).mgmt.locked = s.mgmt.locked ∧
    (s.enterTrip c x).mgmt.frame = s.mgmt.frame := by
  unfold State.enterTrip; try dsimp only
  (repeat' split) <;> simp

@[simp] theorem State.settleCircuit_frame (c : CircuitNo) :
    (s.settleCircuit c).pending = s.pending ∧ (s.settleCircuit c).time = s.time ∧
    (s.settleCircuit c).pinLow = s.pinLow ∧ (s.settleCircuit c).intake = s.intake ∧
    (s.settleCircuit c).tables = s.tables ∧ (s.settleCircuit c).contacts = s.contacts ∧
    (s.settleCircuit c).power = s.power ∧ (s.settleCircuit c).orderClamps = s.orderClamps ∧
    (s.settleCircuit c).holding = s.holding ∧ (s.settleCircuit c).taps.ready = s.taps.ready ∧
    (s.settleCircuit c).taps.pourTimer = s.taps.pourTimer ∧
    (s.settleCircuit c).taps.returnTimer = s.taps.returnTimer ∧ (s.settleCircuit c).taps.held = s.taps.held ∧
    (s.settleCircuit c).taps.tilt = s.taps.tilt ∧ (s.settleCircuit c).taps.ladle = s.taps.ladle ∧
    (s.settleCircuit c).taps.dipAge = s.taps.dipAge ∧ (s.settleCircuit c).taps.malformed = s.taps.malformed ∧
    (s.settleCircuit c).watch = s.watch ∧ (s.settleCircuit c).mgmt.selection = s.mgmt.selection ∧
    (s.settleCircuit c).mgmt.latch = s.mgmt.latch ∧ (s.settleCircuit c).mgmt.validator = s.mgmt.validator ∧
    (s.settleCircuit c).mgmt.params = s.mgmt.params ∧ (s.settleCircuit c).mgmt.locked = s.mgmt.locked ∧
    (s.settleCircuit c).mgmt.frame = s.mgmt.frame := by
  unfold State.settleCircuit; try dsimp only
  (repeat' split) <;> simp

@[simp] theorem State.circuitTest_frame (c : CircuitNo) :
    (s.circuitTest c).pending = s.pending ∧ (s.circuitTest c).time = s.time ∧ (s.circuitTest c).pinLow = s.pinLow ∧
    (s.circuitTest c).intake = s.intake ∧ (s.circuitTest c).tables = s.tables ∧
    (s.circuitTest c).contacts = s.contacts ∧ (s.circuitTest c).power = s.power ∧
    (s.circuitTest c).orderClamps = s.orderClamps ∧ (s.circuitTest c).holding = s.holding ∧
    (s.circuitTest c).taps.ready = s.taps.ready ∧ (s.circuitTest c).taps.pourTimer = s.taps.pourTimer ∧
    (s.circuitTest c).taps.returnTimer = s.taps.returnTimer ∧ (s.circuitTest c).taps.held = s.taps.held ∧
    (s.circuitTest c).taps.tilt = s.taps.tilt ∧ (s.circuitTest c).taps.ladle = s.taps.ladle ∧
    (s.circuitTest c).taps.dipAge = s.taps.dipAge ∧ (s.circuitTest c).taps.malformed = s.taps.malformed ∧
    (s.circuitTest c).watch = s.watch ∧ (s.circuitTest c).mgmt.selection = s.mgmt.selection ∧
    (s.circuitTest c).mgmt.latch = s.mgmt.latch ∧ (s.circuitTest c).mgmt.validator = s.mgmt.validator ∧
    (s.circuitTest c).mgmt.params = s.mgmt.params ∧ (s.circuitTest c).mgmt.locked = s.mgmt.locked ∧
    (s.circuitTest c).mgmt.frame = s.mgmt.frame := by
  unfold State.circuitTest; try dsimp only
  (repeat' split) <;> simp

@[simp] theorem State.startingTest_frame (c : CircuitNo) :
    (s.startingTest c).pending = s.pending ∧ (s.startingTest c).time = s.time ∧
    (s.startingTest c).pinLow = s.pinLow ∧ (s.startingTest c).intake = s.intake ∧
    (s.startingTest c).tables = s.tables ∧ (s.startingTest c).contacts = s.contacts ∧
    (s.startingTest c).power = s.power ∧ (s.startingTest c).orderClamps = s.orderClamps ∧
    (s.startingTest c).holding = s.holding ∧ (s.startingTest c).taps.ready = s.taps.ready ∧
    (s.startingTest c).taps.pourTimer = s.taps.pourTimer ∧
    (s.startingTest c).taps.returnTimer = s.taps.returnTimer ∧ (s.startingTest c).taps.held = s.taps.held ∧
    (s.startingTest c).taps.tilt = s.taps.tilt ∧ (s.startingTest c).taps.ladle = s.taps.ladle ∧
    (s.startingTest c).taps.dipAge = s.taps.dipAge ∧ (s.startingTest c).taps.malformed = s.taps.malformed ∧
    (s.startingTest c).watch = s.watch ∧ (s.startingTest c).mgmt.selection = s.mgmt.selection ∧
    (s.startingTest c).mgmt.latch = s.mgmt.latch ∧ (s.startingTest c).mgmt.validator = s.mgmt.validator ∧
    (s.startingTest c).mgmt.params = s.mgmt.params ∧ (s.startingTest c).mgmt.locked = s.mgmt.locked ∧
    (s.startingTest c).mgmt.frame = s.mgmt.frame := by
  unfold State.startingTest; try dsimp only
  (repeat' split) <;> simp

@[simp] theorem State.startExpire_frame (c : CircuitNo) :
    (s.startExpire c).pending = s.pending ∧ (s.startExpire c).time = s.time ∧ (s.startExpire c).pinLow = s.pinLow ∧
    (s.startExpire c).intake = s.intake ∧ (s.startExpire c).tables = s.tables ∧
    (s.startExpire c).contacts = s.contacts ∧ (s.startExpire c).power = s.power ∧
    (s.startExpire c).orderClamps = s.orderClamps ∧ (s.startExpire c).holding = s.holding ∧
    (s.startExpire c).taps.ready = s.taps.ready ∧ (s.startExpire c).taps.pourTimer = s.taps.pourTimer ∧
    (s.startExpire c).taps.returnTimer = s.taps.returnTimer ∧ (s.startExpire c).taps.held = s.taps.held ∧
    (s.startExpire c).taps.tilt = s.taps.tilt ∧ (s.startExpire c).taps.ladle = s.taps.ladle ∧
    (s.startExpire c).taps.dipAge = s.taps.dipAge ∧ (s.startExpire c).taps.malformed = s.taps.malformed ∧
    (s.startExpire c).watch = s.watch ∧ (s.startExpire c).mgmt.selection = s.mgmt.selection ∧
    (s.startExpire c).mgmt.latch = s.mgmt.latch ∧ (s.startExpire c).mgmt.validator = s.mgmt.validator ∧
    (s.startExpire c).mgmt.params = s.mgmt.params ∧ (s.startExpire c).mgmt.locked = s.mgmt.locked ∧
    (s.startExpire c).mgmt.frame = s.mgmt.frame := by
  unfold State.startExpire; try dsimp only
  (repeat' split) <;> simp

@[simp] theorem State.enableCircuit_frame (c : CircuitNo) :
    (s.enableCircuit c).pending = s.pending ∧ (s.enableCircuit c).time = s.time ∧
    (s.enableCircuit c).pinLow = s.pinLow ∧ (s.enableCircuit c).intake = s.intake ∧
    (s.enableCircuit c).tables = s.tables ∧ (s.enableCircuit c).contacts = s.contacts ∧
    (s.enableCircuit c).power = s.power ∧ (s.enableCircuit c).orderClamps = s.orderClamps ∧
    (s.enableCircuit c).holding = s.holding ∧ (s.enableCircuit c).taps.ready = s.taps.ready ∧
    (s.enableCircuit c).taps.pourTimer = s.taps.pourTimer ∧
    (s.enableCircuit c).taps.returnTimer = s.taps.returnTimer ∧ (s.enableCircuit c).taps.held = s.taps.held ∧
    (s.enableCircuit c).taps.tilt = s.taps.tilt ∧ (s.enableCircuit c).taps.ladle = s.taps.ladle ∧
    (s.enableCircuit c).taps.dipAge = s.taps.dipAge ∧ (s.enableCircuit c).taps.malformed = s.taps.malformed ∧
    (s.enableCircuit c).watch = s.watch ∧ (s.enableCircuit c).mgmt.selection = s.mgmt.selection ∧
    (s.enableCircuit c).mgmt.latch = s.mgmt.latch ∧ (s.enableCircuit c).mgmt.validator = s.mgmt.validator ∧
    (s.enableCircuit c).mgmt.params = s.mgmt.params ∧ (s.enableCircuit c).mgmt.locked = s.mgmt.locked ∧
    (s.enableCircuit c).mgmt.frame = s.mgmt.frame := by
  unfold State.enableCircuit; try dsimp only
  (repeat' split) <;> simp

@[simp] theorem State.restartCircuit_frame (c : CircuitNo) :
    (s.restartCircuit c).pending = s.pending ∧ (s.restartCircuit c).time = s.time ∧
    (s.restartCircuit c).pinLow = s.pinLow ∧ (s.restartCircuit c).loop = s.loop ∧
    (s.restartCircuit c).intake = s.intake ∧ (s.restartCircuit c).tables = s.tables ∧
    (s.restartCircuit c).contacts = s.contacts ∧ (s.restartCircuit c).heats = s.heats ∧
    (s.restartCircuit c).power = s.power ∧ (s.restartCircuit c).orderClamps = s.orderClamps ∧
    (s.restartCircuit c).holding = s.holding ∧ (s.restartCircuit c).taps = s.taps ∧
    (s.restartCircuit c).watch = s.watch ∧ (s.restartCircuit c).mgmt = s.mgmt := by
  unfold State.restartCircuit; try dsimp only
  (repeat' split) <;> simp

@[simp] theorem State.evaluate_frame (c : CircuitNo) (q : QuantityNo) (v : Int) :
    (s.evaluate c q v).pending = s.pending ∧ (s.evaluate c q v).time = s.time ∧
    (s.evaluate c q v).pinLow = s.pinLow ∧ (s.evaluate c q v).intake = s.intake ∧
    (s.evaluate c q v).tables = s.tables ∧ (s.evaluate c q v).contacts = s.contacts ∧
    (s.evaluate c q v).power = s.power ∧ (s.evaluate c q v).orderClamps = s.orderClamps ∧
    (s.evaluate c q v).holding = s.holding ∧ (s.evaluate c q v).taps.ready = s.taps.ready ∧
    (s.evaluate c q v).taps.pourTimer = s.taps.pourTimer ∧
    (s.evaluate c q v).taps.returnTimer = s.taps.returnTimer ∧ (s.evaluate c q v).taps.held = s.taps.held ∧
    (s.evaluate c q v).taps.tilt = s.taps.tilt ∧ (s.evaluate c q v).taps.ladle = s.taps.ladle ∧
    (s.evaluate c q v).taps.dipAge = s.taps.dipAge ∧ (s.evaluate c q v).taps.malformed = s.taps.malformed ∧
    (s.evaluate c q v).watch = s.watch ∧ (s.evaluate c q v).mgmt.selection = s.mgmt.selection ∧
    (s.evaluate c q v).mgmt.latch = s.mgmt.latch ∧ (s.evaluate c q v).mgmt.validator = s.mgmt.validator ∧
    (s.evaluate c q v).mgmt.params = s.mgmt.params ∧ (s.evaluate c q v).mgmt.locked = s.mgmt.locked ∧
    (s.evaluate c q v).mgmt.frame = s.mgmt.frame := by
  unfold State.evaluate; try dsimp only
  (repeat' split) <;> simp

@[simp] theorem State.coolingValue_frame (k : CoolingKind) (c : CircuitNo) (v : Int) :
    (s.coolingValue k c v).pending = s.pending ∧ (s.coolingValue k c v).time = s.time ∧
    (s.coolingValue k c v).pinLow = s.pinLow ∧ (s.coolingValue k c v).intake = s.intake ∧
    (s.coolingValue k c v).tables = s.tables ∧ (s.coolingValue k c v).contacts = s.contacts ∧
    (s.coolingValue k c v).power = s.power ∧ (s.coolingValue k c v).orderClamps = s.orderClamps ∧
    (s.coolingValue k c v).holding = s.holding ∧ (s.coolingValue k c v).taps.ready = s.taps.ready ∧
    (s.coolingValue k c v).taps.pourTimer = s.taps.pourTimer ∧
    (s.coolingValue k c v).taps.returnTimer = s.taps.returnTimer ∧ (s.coolingValue k c v).taps.held = s.taps.held ∧
    (s.coolingValue k c v).taps.tilt = s.taps.tilt ∧ (s.coolingValue k c v).taps.ladle = s.taps.ladle ∧
    (s.coolingValue k c v).taps.dipAge = s.taps.dipAge ∧ (s.coolingValue k c v).taps.malformed = s.taps.malformed ∧
    (s.coolingValue k c v).watch = s.watch ∧ (s.coolingValue k c v).mgmt.selection = s.mgmt.selection ∧
    (s.coolingValue k c v).mgmt.latch = s.mgmt.latch ∧ (s.coolingValue k c v).mgmt.validator = s.mgmt.validator ∧
    (s.coolingValue k c v).mgmt.params = s.mgmt.params ∧ (s.coolingValue k c v).mgmt.locked = s.mgmt.locked ∧
    (s.coolingValue k c v).mgmt.frame = s.mgmt.frame := by
  unfold State.coolingValue; try dsimp only
  (repeat' split) <;> simp

@[simp] theorem State.dropQuantity_frame (c : CircuitNo) (q : QuantityNo) (b : Bool) :
    (s.dropQuantity c q b).pending = s.pending ∧ (s.dropQuantity c q b).time = s.time ∧
    (s.dropQuantity c q b).pinLow = s.pinLow ∧ (s.dropQuantity c q b).intake = s.intake ∧
    (s.dropQuantity c q b).tables = s.tables ∧ (s.dropQuantity c q b).contacts = s.contacts ∧
    (s.dropQuantity c q b).power = s.power ∧ (s.dropQuantity c q b).orderClamps = s.orderClamps ∧
    (s.dropQuantity c q b).holding = s.holding ∧ (s.dropQuantity c q b).taps.ready = s.taps.ready ∧
    (s.dropQuantity c q b).taps.pourTimer = s.taps.pourTimer ∧
    (s.dropQuantity c q b).taps.returnTimer = s.taps.returnTimer ∧ (s.dropQuantity c q b).taps.held = s.taps.held ∧
    (s.dropQuantity c q b).taps.tilt = s.taps.tilt ∧ (s.dropQuantity c q b).taps.ladle = s.taps.ladle ∧
    (s.dropQuantity c q b).taps.dipAge = s.taps.dipAge ∧ (s.dropQuantity c q b).taps.malformed = s.taps.malformed ∧
    (s.dropQuantity c q b).watch = s.watch ∧ (s.dropQuantity c q b).mgmt.selection = s.mgmt.selection ∧
    (s.dropQuantity c q b).mgmt.latch = s.mgmt.latch ∧ (s.dropQuantity c q b).mgmt.validator = s.mgmt.validator ∧
    (s.dropQuantity c q b).mgmt.params = s.mgmt.params ∧ (s.dropQuantity c q b).mgmt.locked = s.mgmt.locked ∧
    (s.dropQuantity c q b).mgmt.frame = s.mgmt.frame := by
  unfold State.dropQuantity; try dsimp only
  (repeat' split) <;> simp

@[simp] theorem State.recheckPoints_frame (c : CircuitNo) :
    (s.recheckPoints c).pending = s.pending ∧ (s.recheckPoints c).time = s.time ∧
    (s.recheckPoints c).pinLow = s.pinLow ∧ (s.recheckPoints c).intake = s.intake ∧
    (s.recheckPoints c).tables = s.tables ∧ (s.recheckPoints c).contacts = s.contacts ∧
    (s.recheckPoints c).power = s.power ∧ (s.recheckPoints c).orderClamps = s.orderClamps ∧
    (s.recheckPoints c).holding = s.holding ∧ (s.recheckPoints c).taps.ready = s.taps.ready ∧
    (s.recheckPoints c).taps.pourTimer = s.taps.pourTimer ∧
    (s.recheckPoints c).taps.returnTimer = s.taps.returnTimer ∧ (s.recheckPoints c).taps.held = s.taps.held ∧
    (s.recheckPoints c).taps.tilt = s.taps.tilt ∧ (s.recheckPoints c).taps.ladle = s.taps.ladle ∧
    (s.recheckPoints c).taps.dipAge = s.taps.dipAge ∧ (s.recheckPoints c).taps.malformed = s.taps.malformed ∧
    (s.recheckPoints c).watch = s.watch ∧ (s.recheckPoints c).mgmt.selection = s.mgmt.selection ∧
    (s.recheckPoints c).mgmt.latch = s.mgmt.latch ∧ (s.recheckPoints c).mgmt.validator = s.mgmt.validator ∧
    (s.recheckPoints c).mgmt.params = s.mgmt.params ∧ (s.recheckPoints c).mgmt.locked = s.mgmt.locked ∧
    (s.recheckPoints c).mgmt.frame = s.mgmt.frame := by
  unfold State.recheckPoints; try dsimp only
  (repeat' split) <;> simp

@[simp] theorem State.recommitCircuit_frame (m : Image) (c : CircuitNo) :
    (s.recommitCircuit m c).pending = s.pending ∧ (s.recommitCircuit m c).time = s.time ∧
    (s.recommitCircuit m c).pinLow = s.pinLow ∧ (s.recommitCircuit m c).intake = s.intake ∧
    (s.recommitCircuit m c).tables = s.tables ∧ (s.recommitCircuit m c).contacts = s.contacts ∧
    (s.recommitCircuit m c).power = s.power ∧ (s.recommitCircuit m c).orderClamps = s.orderClamps ∧
    (s.recommitCircuit m c).holding = s.holding ∧ (s.recommitCircuit m c).taps.ready = s.taps.ready ∧
    (s.recommitCircuit m c).taps.pourTimer = s.taps.pourTimer ∧
    (s.recommitCircuit m c).taps.returnTimer = s.taps.returnTimer ∧
    (s.recommitCircuit m c).taps.held = s.taps.held ∧ (s.recommitCircuit m c).taps.tilt = s.taps.tilt ∧
    (s.recommitCircuit m c).taps.ladle = s.taps.ladle ∧ (s.recommitCircuit m c).taps.dipAge = s.taps.dipAge ∧
    (s.recommitCircuit m c).taps.malformed = s.taps.malformed ∧ (s.recommitCircuit m c).watch = s.watch ∧
    (s.recommitCircuit m c).mgmt.selection = s.mgmt.selection ∧ (s.recommitCircuit m c).mgmt.latch = s.mgmt.latch ∧
    (s.recommitCircuit m c).mgmt.validator = s.mgmt.validator ∧
    (s.recommitCircuit m c).mgmt.params = s.mgmt.params ∧ (s.recommitCircuit m c).mgmt.locked = s.mgmt.locked ∧
    (s.recommitCircuit m c).mgmt.frame = s.mgmt.frame := by
  unfold State.recommitCircuit; try dsimp only
  (repeat' split) <;> simp

@[simp] theorem State.applySafeModes_frame :
    (s.applySafeModes).pending = s.pending ∧ (s.applySafeModes).time = s.time ∧
    (s.applySafeModes).pinLow = s.pinLow ∧ (s.applySafeModes).loop = s.loop ∧
    (s.applySafeModes).intake = s.intake ∧ (s.applySafeModes).tables = s.tables ∧
    (s.applySafeModes).contacts.raw = s.contacts.raw ∧ (s.applySafeModes).contacts.filtered = s.contacts.filtered ∧
    (s.applySafeModes).contacts.persistence = s.contacts.persistence ∧
    (s.applySafeModes).contacts.ind = s.contacts.ind ∧
    (s.applySafeModes).contacts.changePending = s.contacts.changePending ∧
    (s.applySafeModes).contacts.overrun = s.contacts.overrun ∧
    (s.applySafeModes).contacts.snapshot = s.contacts.snapshot ∧
    (s.applySafeModes).contacts.driven = s.contacts.driven ∧
    (s.applySafeModes).contacts.commanded = s.contacts.commanded ∧ (s.applySafeModes).heats = s.heats ∧
    (s.applySafeModes).power = s.power ∧ (s.applySafeModes).orderClamps = s.orderClamps ∧
    (s.applySafeModes).holding = s.holding ∧ (s.applySafeModes).circuits = s.circuits ∧
    (s.applySafeModes).taps = s.taps ∧ (s.applySafeModes).watch = s.watch ∧ (s.applySafeModes).mgmt = s.mgmt := by
  unfold State.applySafeModes; try dsimp only
  (repeat' split) <;> simp

@[simp] theorem State.enterExpired_frame :
    (s.enterExpired).pending = s.pending ∧ (s.enterExpired).time = s.time ∧ (s.enterExpired).pinLow = s.pinLow ∧
    (s.enterExpired).intake = s.intake ∧ (s.enterExpired).tables = s.tables ∧
    (s.enterExpired).contacts.raw = s.contacts.raw ∧ (s.enterExpired).contacts.filtered = s.contacts.filtered ∧
    (s.enterExpired).contacts.persistence = s.contacts.persistence ∧
    (s.enterExpired).contacts.ind = s.contacts.ind ∧
    (s.enterExpired).contacts.changePending = s.contacts.changePending ∧
    (s.enterExpired).contacts.overrun = s.contacts.overrun ∧
    (s.enterExpired).contacts.snapshot = s.contacts.snapshot ∧
    (s.enterExpired).contacts.driven = s.contacts.driven ∧
    (s.enterExpired).contacts.commanded = s.contacts.commanded ∧ (s.enterExpired).power = s.power ∧
    (s.enterExpired).orderClamps = s.orderClamps ∧ (s.enterExpired).holding = s.holding ∧
    (s.enterExpired).circuits = s.circuits ∧ (s.enterExpired).taps.ready = s.taps.ready ∧
    (s.enterExpired).taps.pourTimer = s.taps.pourTimer ∧ (s.enterExpired).taps.returnTimer = s.taps.returnTimer ∧
    (s.enterExpired).taps.held = s.taps.held ∧ (s.enterExpired).taps.tilt = s.taps.tilt ∧
    (s.enterExpired).taps.ladle = s.taps.ladle ∧ (s.enterExpired).taps.dipAge = s.taps.dipAge ∧
    (s.enterExpired).taps.malformed = s.taps.malformed ∧ (s.enterExpired).mgmt.selection = s.mgmt.selection ∧
    (s.enterExpired).mgmt.latch = s.mgmt.latch ∧ (s.enterExpired).mgmt.validator = s.mgmt.validator ∧
    (s.enterExpired).mgmt.params = s.mgmt.params ∧ (s.enterExpired).mgmt.locked = s.mgmt.locked ∧
    (s.enterExpired).mgmt.frame = s.mgmt.frame := by
  unfold State.enterExpired; try dsimp only
  (repeat' split) <;> simp

@[simp] theorem State.enterExpectA_frame :
    (s.enterExpectA).pending = s.pending ∧ (s.enterExpectA).time = s.time ∧ (s.enterExpectA).pinLow = s.pinLow ∧
    (s.enterExpectA).loop = s.loop ∧ (s.enterExpectA).intake = s.intake ∧ (s.enterExpectA).tables = s.tables ∧
    (s.enterExpectA).contacts = s.contacts ∧ (s.enterExpectA).heats = s.heats ∧ (s.enterExpectA).power = s.power ∧
    (s.enterExpectA).orderClamps = s.orderClamps ∧ (s.enterExpectA).holding = s.holding ∧
    (s.enterExpectA).circuits = s.circuits ∧ (s.enterExpectA).taps = s.taps ∧ (s.enterExpectA).mgmt = s.mgmt := by
  unfold State.enterExpectA; try dsimp only
  (repeat' split) <;> simp

@[simp] theorem State.zeroOrders_frame :
    (s.zeroOrders).pending = s.pending ∧ (s.zeroOrders).time = s.time ∧ (s.zeroOrders).pinLow = s.pinLow ∧
    (s.zeroOrders).loop = s.loop ∧ (s.zeroOrders).intake = s.intake ∧ (s.zeroOrders).tables = s.tables ∧
    (s.zeroOrders).contacts = s.contacts ∧ (s.zeroOrders).heats = s.heats ∧
    (s.zeroOrders).orderClamps = s.orderClamps ∧ (s.zeroOrders).holding = s.holding ∧
    (s.zeroOrders).circuits = s.circuits ∧ (s.zeroOrders).taps = s.taps ∧ (s.zeroOrders).watch = s.watch ∧
    (s.zeroOrders).mgmt = s.mgmt := by
  unfold State.zeroOrders; try dsimp only
  (repeat' split) <;> simp

@[simp] theorem State.enterAllStop_frame (c : StopCause) (n : Byte) :
    (s.enterAllStop c n).pending = s.pending ∧ (s.enterAllStop c n).time = s.time ∧
    (s.enterAllStop c n).pinLow = s.pinLow ∧ (s.enterAllStop c n).intake = s.intake ∧
    (s.enterAllStop c n).tables = s.tables ∧ (s.enterAllStop c n).contacts = s.contacts ∧
    (s.enterAllStop c n).orderClamps = s.orderClamps ∧ (s.enterAllStop c n).holding = s.holding ∧
    (s.enterAllStop c n).circuits = s.circuits ∧ (s.enterAllStop c n).taps.ready = s.taps.ready ∧
    (s.enterAllStop c n).taps.held = s.taps.held ∧ (s.enterAllStop c n).taps.tilt = s.taps.tilt ∧
    (s.enterAllStop c n).taps.ladle = s.taps.ladle ∧ (s.enterAllStop c n).taps.malformed = s.taps.malformed ∧
    (s.enterAllStop c n).mgmt.selection = s.mgmt.selection ∧ (s.enterAllStop c n).mgmt.latch = s.mgmt.latch ∧
    (s.enterAllStop c n).mgmt.validator = s.mgmt.validator ∧ (s.enterAllStop c n).mgmt.params = s.mgmt.params ∧
    (s.enterAllStop c n).mgmt.locked = s.mgmt.locked ∧ (s.enterAllStop c n).mgmt.frame = s.mgmt.frame := by
  unfold State.enterAllStop; try dsimp only
  (repeat' split) <;> simp

@[simp] theorem State.edge_frame (i : InputNo) (b : Bool) :
    (s.edge i b).pending = s.pending ∧ (s.edge i b).time = s.time ∧ (s.edge i b).pinLow = s.pinLow ∧
    (s.edge i b).intake = s.intake ∧ (s.edge i b).tables = s.tables ∧ (s.edge i b).contacts.raw = s.contacts.raw ∧
    (s.edge i b).contacts.filtered = s.contacts.filtered ∧
    (s.edge i b).contacts.persistence = s.contacts.persistence ∧ (s.edge i b).contacts.ind = s.contacts.ind ∧
    (s.edge i b).contacts.driven = s.contacts.driven ∧ (s.edge i b).contacts.commanded = s.contacts.commanded ∧
    (s.edge i b).contacts.frozen = s.contacts.frozen ∧ (s.edge i b).heats = s.heats ∧
    (s.edge i b).power = s.power ∧ (s.edge i b).orderClamps = s.orderClamps ∧ (s.edge i b).holding = s.holding ∧
    (s.edge i b).circuits = s.circuits ∧ (s.edge i b).taps = s.taps ∧ (s.edge i b).watch = s.watch ∧
    (s.edge i b).mgmt.selection = s.mgmt.selection ∧ (s.edge i b).mgmt.latch = s.mgmt.latch ∧
    (s.edge i b).mgmt.validator = s.mgmt.validator ∧ (s.edge i b).mgmt.params = s.mgmt.params ∧
    (s.edge i b).mgmt.locked = s.mgmt.locked ∧ (s.edge i b).mgmt.frame = s.mgmt.frame := by
  unfold State.edge; try dsimp only
  (repeat' split) <;> simp

@[simp] theorem State.estopNotice_frame :
    (s.estopNotice).pending = s.pending ∧ (s.estopNotice).time = s.time ∧ (s.estopNotice).pinLow = s.pinLow ∧
    (s.estopNotice).intake = s.intake ∧ (s.estopNotice).tables = s.tables ∧ (s.estopNotice).contacts = s.contacts ∧
    (s.estopNotice).orderClamps = s.orderClamps ∧ (s.estopNotice).holding = s.holding ∧
    (s.estopNotice).circuits = s.circuits ∧ (s.estopNotice).taps.ready = s.taps.ready ∧
    (s.estopNotice).taps.held = s.taps.held ∧ (s.estopNotice).taps.tilt = s.taps.tilt ∧
    (s.estopNotice).taps.ladle = s.taps.ladle ∧ (s.estopNotice).taps.malformed = s.taps.malformed ∧
    (s.estopNotice).mgmt.selection = s.mgmt.selection ∧ (s.estopNotice).mgmt.latch = s.mgmt.latch ∧
    (s.estopNotice).mgmt.validator = s.mgmt.validator ∧ (s.estopNotice).mgmt.params = s.mgmt.params ∧
    (s.estopNotice).mgmt.locked = s.mgmt.locked ∧ (s.estopNotice).mgmt.frame = s.mgmt.frame := by
  unfold State.estopNotice; try dsimp only
  (repeat' split) <;> simp

@[simp] theorem State.causeNotice_frame (c : CircuitNo) :
    (s.causeNotice c).pending = s.pending ∧ (s.causeNotice c).time = s.time ∧ (s.causeNotice c).pinLow = s.pinLow ∧
    (s.causeNotice c).intake = s.intake ∧ (s.causeNotice c).tables = s.tables ∧
    (s.causeNotice c).contacts = s.contacts ∧ (s.causeNotice c).power = s.power ∧
    (s.causeNotice c).orderClamps = s.orderClamps ∧ (s.causeNotice c).holding = s.holding ∧
    (s.causeNotice c).taps.ready = s.taps.ready ∧ (s.causeNotice c).taps.pourTimer = s.taps.pourTimer ∧
    (s.causeNotice c).taps.returnTimer = s.taps.returnTimer ∧ (s.causeNotice c).taps.held = s.taps.held ∧
    (s.causeNotice c).taps.tilt = s.taps.tilt ∧ (s.causeNotice c).taps.ladle = s.taps.ladle ∧
    (s.causeNotice c).taps.dipAge = s.taps.dipAge ∧ (s.causeNotice c).taps.malformed = s.taps.malformed ∧
    (s.causeNotice c).watch = s.watch ∧ (s.causeNotice c).mgmt.selection = s.mgmt.selection ∧
    (s.causeNotice c).mgmt.latch = s.mgmt.latch ∧ (s.causeNotice c).mgmt.validator = s.mgmt.validator ∧
    (s.causeNotice c).mgmt.params = s.mgmt.params ∧ (s.causeNotice c).mgmt.locked = s.mgmt.locked ∧
    (s.causeNotice c).mgmt.frame = s.mgmt.frame := by
  unfold State.causeNotice; try dsimp only
  (repeat' split) <;> simp

@[simp] theorem State.sendNotices_frame (o : Indications) :
    (s.sendNotices o).pending = s.pending ∧ (s.sendNotices o).time = s.time ∧ (s.sendNotices o).pinLow = s.pinLow ∧
    (s.sendNotices o).intake = s.intake ∧ (s.sendNotices o).tables = s.tables ∧
    (s.sendNotices o).contacts = s.contacts ∧ (s.sendNotices o).orderClamps = s.orderClamps ∧
    (s.sendNotices o).holding = s.holding ∧ (s.sendNotices o).taps.ready = s.taps.ready ∧
    (s.sendNotices o).taps.held = s.taps.held ∧ (s.sendNotices o).taps.tilt = s.taps.tilt ∧
    (s.sendNotices o).taps.ladle = s.taps.ladle ∧ (s.sendNotices o).taps.malformed = s.taps.malformed ∧
    (s.sendNotices o).mgmt.selection = s.mgmt.selection ∧ (s.sendNotices o).mgmt.latch = s.mgmt.latch ∧
    (s.sendNotices o).mgmt.validator = s.mgmt.validator ∧ (s.sendNotices o).mgmt.params = s.mgmt.params ∧
    (s.sendNotices o).mgmt.locked = s.mgmt.locked ∧ (s.sendNotices o).mgmt.frame = s.mgmt.frame := by
  unfold State.sendNotices
  refine ⟨?_, ?_, ?_, ?_, ?_, ?_, ?_, ?_, ?_, ?_, ?_, ?_, ?_, ?_, ?_, ?_, ?_, ?_, ?_⟩
  · simp [foldl_keeps (fun s : State => s.pending), apply_ite (fun s : State => s.pending)]
  · simp [foldl_keeps (fun s : State => s.time), apply_ite (fun s : State => s.time)]
  · simp [foldl_keeps (fun s : State => s.pinLow), apply_ite (fun s : State => s.pinLow)]
  · simp [foldl_keeps (fun s : State => s.intake), apply_ite (fun s : State => s.intake)]
  · simp [foldl_keeps (fun s : State => s.tables), apply_ite (fun s : State => s.tables)]
  · simp [foldl_keeps (fun s : State => s.contacts), apply_ite (fun s : State => s.contacts)]
  · simp [foldl_keeps (fun s : State => s.orderClamps), apply_ite (fun s : State => s.orderClamps)]
  · simp [foldl_keeps (fun s : State => s.holding), apply_ite (fun s : State => s.holding)]
  · simp [foldl_keeps (fun s : State => s.taps.ready), apply_ite (fun s : State => s.taps.ready)]
  · simp [foldl_keeps (fun s : State => s.taps.held), apply_ite (fun s : State => s.taps.held)]
  · simp [foldl_keeps (fun s : State => s.taps.tilt), apply_ite (fun s : State => s.taps.tilt)]
  · simp [foldl_keeps (fun s : State => s.taps.ladle), apply_ite (fun s : State => s.taps.ladle)]
  · simp [foldl_keeps (fun s : State => s.taps.malformed), apply_ite (fun s : State => s.taps.malformed)]
  · simp [foldl_keeps (fun s : State => s.mgmt.selection), apply_ite (fun s : State => s.mgmt.selection)]
  · simp [foldl_keeps (fun s : State => s.mgmt.latch), apply_ite (fun s : State => s.mgmt.latch)]
  · simp [foldl_keeps (fun s : State => s.mgmt.validator), apply_ite (fun s : State => s.mgmt.validator)]
  · simp [foldl_keeps (fun s : State => s.mgmt.params), apply_ite (fun s : State => s.mgmt.params)]
  · simp [foldl_keeps (fun s : State => s.mgmt.locked), apply_ite (fun s : State => s.mgmt.locked)]
  · simp [foldl_keeps (fun s : State => s.mgmt.frame), apply_ite (fun s : State => s.mgmt.frame)]

@[simp] theorem State.refreshIndications_frame :
    (s.refreshIndications).pending = s.pending ∧ (s.refreshIndications).time = s.time ∧
    (s.refreshIndications).pinLow = s.pinLow ∧ (s.refreshIndications).intake = s.intake ∧
    (s.refreshIndications).tables = s.tables ∧ (s.refreshIndications).contacts.raw = s.contacts.raw ∧
    (s.refreshIndications).contacts.filtered = s.contacts.filtered ∧
    (s.refreshIndications).contacts.persistence = s.contacts.persistence ∧
    (s.refreshIndications).contacts.changePending = s.contacts.changePending ∧
    (s.refreshIndications).contacts.overrun = s.contacts.overrun ∧
    (s.refreshIndications).contacts.snapshot = s.contacts.snapshot ∧
    (s.refreshIndications).contacts.driven = s.contacts.driven ∧
    (s.refreshIndications).contacts.commanded = s.contacts.commanded ∧
    (s.refreshIndications).contacts.frozen = s.contacts.frozen ∧
    (s.refreshIndications).orderClamps = s.orderClamps ∧ (s.refreshIndications).holding = s.holding ∧
    (s.refreshIndications).taps.ready = s.taps.ready ∧ (s.refreshIndications).taps.held = s.taps.held ∧
    (s.refreshIndications).taps.tilt = s.taps.tilt ∧ (s.refreshIndications).taps.ladle = s.taps.ladle ∧
    (s.refreshIndications).taps.malformed = s.taps.malformed ∧
    (s.refreshIndications).mgmt.selection = s.mgmt.selection ∧ (s.refreshIndications).mgmt.latch = s.mgmt.latch ∧
    (s.refreshIndications).mgmt.validator = s.mgmt.validator ∧ (s.refreshIndications).mgmt.params = s.mgmt.params ∧
    (s.refreshIndications).mgmt.locked = s.mgmt.locked ∧ (s.refreshIndications).mgmt.frame = s.mgmt.frame := by
  unfold State.refreshIndications; try dsimp only
  (repeat' split) <;> simp

@[simp] theorem State.takeRaw_frame (i : InputNo) :
    (s.takeRaw i).pending = s.pending ∧ (s.takeRaw i).time = s.time ∧ (s.takeRaw i).pinLow = s.pinLow ∧
    (s.takeRaw i).loop = s.loop ∧ (s.takeRaw i).intake = s.intake ∧ (s.takeRaw i).tables = s.tables ∧
    (s.takeRaw i).contacts.raw = s.contacts.raw ∧ (s.takeRaw i).contacts.ind = s.contacts.ind ∧
    (s.takeRaw i).contacts.changePending = s.contacts.changePending ∧
    (s.takeRaw i).contacts.overrun = s.contacts.overrun ∧ (s.takeRaw i).contacts.snapshot = s.contacts.snapshot ∧
    (s.takeRaw i).contacts.driven = s.contacts.driven ∧ (s.takeRaw i).contacts.commanded = s.contacts.commanded ∧
    (s.takeRaw i).contacts.frozen = s.contacts.frozen ∧ (s.takeRaw i).heats = s.heats ∧
    (s.takeRaw i).power = s.power ∧ (s.takeRaw i).orderClamps = s.orderClamps ∧ (s.takeRaw i).holding = s.holding ∧
    (s.takeRaw i).circuits = s.circuits ∧ (s.takeRaw i).taps = s.taps ∧ (s.takeRaw i).watch = s.watch ∧
    (s.takeRaw i).mgmt = s.mgmt := by
  unfold State.takeRaw; try dsimp only
  (repeat' split) <;> simp

@[simp] theorem State.filteredChange_frame (i : InputNo) :
    (s.filteredChange i).pending = s.pending ∧ (s.filteredChange i).time = s.time ∧
    (s.filteredChange i).pinLow = s.pinLow ∧ (s.filteredChange i).intake = s.intake ∧
    (s.filteredChange i).tables = s.tables ∧ (s.filteredChange i).contacts.raw = s.contacts.raw ∧
    (s.filteredChange i).contacts.driven = s.contacts.driven ∧
    (s.filteredChange i).contacts.commanded = s.contacts.commanded ∧
    (s.filteredChange i).contacts.frozen = s.contacts.frozen ∧ (s.filteredChange i).orderClamps = s.orderClamps ∧
    (s.filteredChange i).holding = s.holding ∧ (s.filteredChange i).taps.ready = s.taps.ready ∧
    (s.filteredChange i).taps.held = s.taps.held ∧ (s.filteredChange i).taps.tilt = s.taps.tilt ∧
    (s.filteredChange i).taps.ladle = s.taps.ladle ∧ (s.filteredChange i).taps.malformed = s.taps.malformed ∧
    (s.filteredChange i).mgmt.selection = s.mgmt.selection ∧ (s.filteredChange i).mgmt.latch = s.mgmt.latch ∧
    (s.filteredChange i).mgmt.validator = s.mgmt.validator ∧ (s.filteredChange i).mgmt.params = s.mgmt.params ∧
    (s.filteredChange i).mgmt.locked = s.mgmt.locked ∧ (s.filteredChange i).mgmt.frame = s.mgmt.frame := by
  unfold State.filteredChange; try dsimp only
  (repeat' split) <;> simp

@[simp] theorem State.rawChange_frame (i : InputNo) (b : Bool) :
    (s.rawChange i b).pending = s.pending ∧ (s.rawChange i b).time = s.time ∧ (s.rawChange i b).pinLow = s.pinLow ∧
    (s.rawChange i b).intake = s.intake ∧ (s.rawChange i b).tables = s.tables ∧
    (s.rawChange i b).contacts.driven = s.contacts.driven ∧
    (s.rawChange i b).contacts.commanded = s.contacts.commanded ∧
    (s.rawChange i b).contacts.frozen = s.contacts.frozen ∧ (s.rawChange i b).orderClamps = s.orderClamps ∧
    (s.rawChange i b).holding = s.holding ∧ (s.rawChange i b).taps.ready = s.taps.ready ∧
    (s.rawChange i b).taps.held = s.taps.held ∧ (s.rawChange i b).taps.tilt = s.taps.tilt ∧
    (s.rawChange i b).taps.ladle = s.taps.ladle ∧ (s.rawChange i b).taps.malformed = s.taps.malformed ∧
    (s.rawChange i b).mgmt.selection = s.mgmt.selection ∧ (s.rawChange i b).mgmt.latch = s.mgmt.latch ∧
    (s.rawChange i b).mgmt.validator = s.mgmt.validator ∧ (s.rawChange i b).mgmt.params = s.mgmt.params ∧
    (s.rawChange i b).mgmt.locked = s.mgmt.locked ∧ (s.rawChange i b).mgmt.frame = s.mgmt.frame := by
  unfold State.rawChange; try dsimp only
  (repeat' split) <;> simp

@[simp] theorem State.recommitInput_frame (i : InputNo) :
    (s.recommitInput i).pending = s.pending ∧ (s.recommitInput i).time = s.time ∧
    (s.recommitInput i).pinLow = s.pinLow ∧ (s.recommitInput i).intake = s.intake ∧
    (s.recommitInput i).tables = s.tables ∧ (s.recommitInput i).contacts.raw = s.contacts.raw ∧
    (s.recommitInput i).contacts.ind = s.contacts.ind ∧ (s.recommitInput i).contacts.driven = s.contacts.driven ∧
    (s.recommitInput i).contacts.commanded = s.contacts.commanded ∧
    (s.recommitInput i).contacts.frozen = s.contacts.frozen ∧ (s.recommitInput i).heats = s.heats ∧
    (s.recommitInput i).power = s.power ∧ (s.recommitInput i).orderClamps = s.orderClamps ∧
    (s.recommitInput i).holding = s.holding ∧ (s.recommitInput i).circuits = s.circuits ∧
    (s.recommitInput i).taps = s.taps ∧ (s.recommitInput i).watch = s.watch ∧
    (s.recommitInput i).mgmt.selection = s.mgmt.selection ∧ (s.recommitInput i).mgmt.latch = s.mgmt.latch ∧
    (s.recommitInput i).mgmt.validator = s.mgmt.validator ∧ (s.recommitInput i).mgmt.params = s.mgmt.params ∧
    (s.recommitInput i).mgmt.locked = s.mgmt.locked ∧ (s.recommitInput i).mgmt.frame = s.mgmt.frame := by
  unfold State.recommitInput; try dsimp only
  (repeat' split) <;> simp

@[simp] theorem State.recommitOutputs_frame (m : Image) :
    (s.recommitOutputs m).pending = s.pending ∧ (s.recommitOutputs m).time = s.time ∧
    (s.recommitOutputs m).pinLow = s.pinLow ∧ (s.recommitOutputs m).loop = s.loop ∧
    (s.recommitOutputs m).intake = s.intake ∧ (s.recommitOutputs m).tables = s.tables ∧
    (s.recommitOutputs m).contacts.raw = s.contacts.raw ∧
    (s.recommitOutputs m).contacts.filtered = s.contacts.filtered ∧
    (s.recommitOutputs m).contacts.persistence = s.contacts.persistence ∧
    (s.recommitOutputs m).contacts.ind = s.contacts.ind ∧
    (s.recommitOutputs m).contacts.changePending = s.contacts.changePending ∧
    (s.recommitOutputs m).contacts.overrun = s.contacts.overrun ∧
    (s.recommitOutputs m).contacts.snapshot = s.contacts.snapshot ∧
    (s.recommitOutputs m).contacts.driven = s.contacts.driven ∧ (s.recommitOutputs m).heats = s.heats ∧
    (s.recommitOutputs m).power = s.power ∧ (s.recommitOutputs m).orderClamps = s.orderClamps ∧
    (s.recommitOutputs m).holding = s.holding ∧ (s.recommitOutputs m).circuits = s.circuits ∧
    (s.recommitOutputs m).taps = s.taps ∧ (s.recommitOutputs m).watch = s.watch ∧
    (s.recommitOutputs m).mgmt = s.mgmt := by
  unfold State.recommitOutputs; try dsimp only
  (repeat' split) <;> simp

@[simp] theorem State.recommitContacts_frame (m : Image) :
    (s.recommitContacts m).pending = s.pending ∧ (s.recommitContacts m).time = s.time ∧
    (s.recommitContacts m).pinLow = s.pinLow ∧ (s.recommitContacts m).intake = s.intake ∧
    (s.recommitContacts m).tables = s.tables ∧ (s.recommitContacts m).contacts.raw = s.contacts.raw ∧
    (s.recommitContacts m).contacts.driven = s.contacts.driven ∧
    (s.recommitContacts m).orderClamps = s.orderClamps ∧ (s.recommitContacts m).holding = s.holding ∧
    (s.recommitContacts m).taps.ready = s.taps.ready ∧ (s.recommitContacts m).taps.held = s.taps.held ∧
    (s.recommitContacts m).taps.tilt = s.taps.tilt ∧ (s.recommitContacts m).taps.ladle = s.taps.ladle ∧
    (s.recommitContacts m).taps.malformed = s.taps.malformed ∧
    (s.recommitContacts m).mgmt.selection = s.mgmt.selection ∧ (s.recommitContacts m).mgmt.latch = s.mgmt.latch ∧
    (s.recommitContacts m).mgmt.validator = s.mgmt.validator ∧ (s.recommitContacts m).mgmt.params = s.mgmt.params ∧
    (s.recommitContacts m).mgmt.locked = s.mgmt.locked ∧ (s.recommitContacts m).mgmt.frame = s.mgmt.frame := by
  unfold State.recommitContacts
  refine ⟨?_, ?_, ?_, ?_, ?_, ?_, ?_, ?_, ?_, ?_, ?_, ?_, ?_, ?_, ?_, ?_, ?_, ?_, ?_, ?_⟩
  · simp [foldl_keeps (fun s : State => s.pending), apply_ite (fun s : State => s.pending)]
  · simp [foldl_keeps (fun s : State => s.time), apply_ite (fun s : State => s.time)]
  · simp [foldl_keeps (fun s : State => s.pinLow), apply_ite (fun s : State => s.pinLow)]
  · simp [foldl_keeps (fun s : State => s.intake), apply_ite (fun s : State => s.intake)]
  · simp [foldl_keeps (fun s : State => s.tables), apply_ite (fun s : State => s.tables)]
  · simp [foldl_keeps (fun s : State => s.contacts.raw), apply_ite (fun s : State => s.contacts.raw)]
  · simp [foldl_keeps (fun s : State => s.contacts.driven), apply_ite (fun s : State => s.contacts.driven)]
  · simp [foldl_keeps (fun s : State => s.orderClamps), apply_ite (fun s : State => s.orderClamps)]
  · simp [foldl_keeps (fun s : State => s.holding), apply_ite (fun s : State => s.holding)]
  · simp [foldl_keeps (fun s : State => s.taps.ready), apply_ite (fun s : State => s.taps.ready)]
  · simp [foldl_keeps (fun s : State => s.taps.held), apply_ite (fun s : State => s.taps.held)]
  · simp [foldl_keeps (fun s : State => s.taps.tilt), apply_ite (fun s : State => s.taps.tilt)]
  · simp [foldl_keeps (fun s : State => s.taps.ladle), apply_ite (fun s : State => s.taps.ladle)]
  · simp [foldl_keeps (fun s : State => s.taps.malformed), apply_ite (fun s : State => s.taps.malformed)]
  · simp [foldl_keeps (fun s : State => s.mgmt.selection), apply_ite (fun s : State => s.mgmt.selection)]
  · simp [foldl_keeps (fun s : State => s.mgmt.latch), apply_ite (fun s : State => s.mgmt.latch)]
  · simp [foldl_keeps (fun s : State => s.mgmt.validator), apply_ite (fun s : State => s.mgmt.validator)]
  · simp [foldl_keeps (fun s : State => s.mgmt.params), apply_ite (fun s : State => s.mgmt.params)]
  · simp [foldl_keeps (fun s : State => s.mgmt.locked), apply_ite (fun s : State => s.mgmt.locked)]
  · simp [foldl_keeps (fun s : State => s.mgmt.frame), apply_ite (fun s : State => s.mgmt.frame)]

@[simp] theorem State.announce_frame (x : Option (Demand × Furnace)) :
    (s.announce x).pending = s.pending ∧ (s.announce x).time = s.time ∧ (s.announce x).pinLow = s.pinLow ∧
    (s.announce x).intake = s.intake ∧ (s.announce x).tables = s.tables ∧ (s.announce x).contacts = s.contacts ∧
    (s.announce x).heats = s.heats ∧ (s.announce x).power = s.power ∧ (s.announce x).orderClamps = s.orderClamps ∧
    (s.announce x).holding = s.holding ∧ (s.announce x).circuits = s.circuits ∧ (s.announce x).taps = s.taps ∧
    (s.announce x).watch = s.watch ∧ (s.announce x).mgmt = s.mgmt := by
  unfold State.announce; try dsimp only
  (repeat' split) <;> simp

@[simp] theorem State.attempt_frame (s0 : State) (x : Causes) :
    (s0.attempt s x).1.pending = s.pending ∧ (s0.attempt s x).1.time = s.time ∧
    (s0.attempt s x).1.pinLow = s.pinLow ∧ (s0.attempt s x).1.loop = s.loop ∧
    (s0.attempt s x).1.intake = s.intake ∧ (s0.attempt s x).1.tables = s.tables ∧
    (s0.attempt s x).1.contacts = s.contacts ∧ (s0.attempt s x).1.power = s.power ∧
    (s0.attempt s x).1.orderClamps = s.orderClamps ∧ (s0.attempt s x).1.circuits = s.circuits ∧
    (s0.attempt s x).1.taps.tiltStart = s.taps.tiltStart ∧ (s0.attempt s x).1.taps.pourTimer = s.taps.pourTimer ∧
    (s0.attempt s x).1.taps.returnTimer = s.taps.returnTimer ∧ (s0.attempt s x).1.taps.held = s.taps.held ∧
    (s0.attempt s x).1.taps.tilt = s.taps.tilt ∧ (s0.attempt s x).1.taps.ladle = s.taps.ladle ∧
    (s0.attempt s x).1.taps.dipAge = s.taps.dipAge ∧ (s0.attempt s x).1.taps.malformed = s.taps.malformed ∧
    (s0.attempt s x).1.watch = s.watch ∧ (s0.attempt s x).1.mgmt = s.mgmt := by
  unfold State.attempt; try dsimp only
  (repeat' split) <;> simp

@[simp] theorem State.settle_frame (s0 : State) (x : Causes) :
    (s0.settle s x).pending = s.pending ∧ (s0.settle s x).time = s.time ∧ (s0.settle s x).pinLow = s.pinLow ∧
    (s0.settle s x).intake = s.intake ∧ (s0.settle s x).tables = s.tables ∧
    (s0.settle s x).contacts.raw = s.contacts.raw ∧ (s0.settle s x).contacts.filtered = s.contacts.filtered ∧
    (s0.settle s x).contacts.persistence = s.contacts.persistence ∧ (s0.settle s x).contacts.ind = s.contacts.ind ∧
    (s0.settle s x).contacts.changePending = s.contacts.changePending ∧
    (s0.settle s x).contacts.overrun = s.contacts.overrun ∧
    (s0.settle s x).contacts.snapshot = s.contacts.snapshot ∧
    (s0.settle s x).contacts.commanded = s.contacts.commanded ∧
    (s0.settle s x).contacts.frozen = s.contacts.frozen ∧ (s0.settle s x).orderClamps = s.orderClamps ∧
    (s0.settle s x).taps.pourTimer = s.taps.pourTimer ∧ (s0.settle s x).taps.returnTimer = s.taps.returnTimer ∧
    (s0.settle s x).taps.held = s.taps.held ∧ (s0.settle s x).taps.tilt = s.taps.tilt ∧
    (s0.settle s x).taps.ladle = s.taps.ladle ∧ (s0.settle s x).taps.dipAge = s.taps.dipAge ∧
    (s0.settle s x).taps.malformed = s.taps.malformed ∧ (s0.settle s x).watch = s.watch ∧
    (s0.settle s x).mgmt = s.mgmt := by
  unfold State.settle; try dsimp only
  (repeat' split) <;> simp

@[simp] theorem State.staleNotice_frame (k : StaleKey) :
    (s.staleNotice k).pending = s.pending ∧ (s.staleNotice k).time = s.time ∧ (s.staleNotice k).pinLow = s.pinLow ∧
    (s.staleNotice k).intake = s.intake ∧ (s.staleNotice k).tables = s.tables ∧
    (s.staleNotice k).contacts = s.contacts ∧ (s.staleNotice k).orderClamps = s.orderClamps ∧
    (s.staleNotice k).holding = s.holding ∧ (s.staleNotice k).taps.ready = s.taps.ready ∧
    (s.staleNotice k).taps.held = s.taps.held ∧ (s.staleNotice k).taps.tilt = s.taps.tilt ∧
    (s.staleNotice k).taps.ladle = s.taps.ladle ∧ (s.staleNotice k).taps.malformed = s.taps.malformed ∧
    (s.staleNotice k).watch = s.watch ∧ (s.staleNotice k).mgmt.selection = s.mgmt.selection ∧
    (s.staleNotice k).mgmt.latch = s.mgmt.latch ∧ (s.staleNotice k).mgmt.validator = s.mgmt.validator ∧
    (s.staleNotice k).mgmt.params = s.mgmt.params ∧ (s.staleNotice k).mgmt.locked = s.mgmt.locked ∧
    (s.staleNotice k).mgmt.frame = s.mgmt.frame := by
  unfold State.staleNotice; try dsimp only
  (repeat' split) <;> simp

@[simp] theorem State.freshToOwner_frame (k : StaleKey) :
    (s.freshToOwner k).pending = s.pending ∧ (s.freshToOwner k).time = s.time ∧
    (s.freshToOwner k).pinLow = s.pinLow ∧ (s.freshToOwner k).intake = s.intake ∧
    (s.freshToOwner k).tables = s.tables ∧ (s.freshToOwner k).contacts = s.contacts ∧
    (s.freshToOwner k).power = s.power ∧ (s.freshToOwner k).orderClamps = s.orderClamps ∧
    (s.freshToOwner k).holding = s.holding ∧ (s.freshToOwner k).taps.ready = s.taps.ready ∧
    (s.freshToOwner k).taps.pourTimer = s.taps.pourTimer ∧
    (s.freshToOwner k).taps.returnTimer = s.taps.returnTimer ∧ (s.freshToOwner k).taps.held = s.taps.held ∧
    (s.freshToOwner k).taps.tilt = s.taps.tilt ∧ (s.freshToOwner k).taps.ladle = s.taps.ladle ∧
    (s.freshToOwner k).taps.dipAge = s.taps.dipAge ∧ (s.freshToOwner k).taps.malformed = s.taps.malformed ∧
    (s.freshToOwner k).watch = s.watch ∧ (s.freshToOwner k).mgmt.selection = s.mgmt.selection ∧
    (s.freshToOwner k).mgmt.latch = s.mgmt.latch ∧ (s.freshToOwner k).mgmt.validator = s.mgmt.validator ∧
    (s.freshToOwner k).mgmt.params = s.mgmt.params ∧ (s.freshToOwner k).mgmt.locked = s.mgmt.locked ∧
    (s.freshToOwner k).mgmt.frame = s.mgmt.frame := by
  unfold State.freshToOwner; try dsimp only
  (repeat' split) <;> simp

@[simp] theorem State.turnStale_frame (k : StaleKey) (b : Bool) :
    (s.turnStale k b).pending = s.pending ∧ (s.turnStale k b).time = s.time ∧ (s.turnStale k b).pinLow = s.pinLow ∧
    (s.turnStale k b).intake.live = s.intake.live ∧ (s.turnStale k b).intake.counters = s.intake.counters ∧
    (s.turnStale k b).tables = s.tables ∧ (s.turnStale k b).contacts = s.contacts ∧
    (s.turnStale k b).orderClamps = s.orderClamps ∧ (s.turnStale k b).holding = s.holding ∧
    (s.turnStale k b).taps.ready = s.taps.ready ∧ (s.turnStale k b).taps.held = s.taps.held ∧
    (s.turnStale k b).taps.tilt = s.taps.tilt ∧ (s.turnStale k b).taps.ladle = s.taps.ladle ∧
    (s.turnStale k b).taps.malformed = s.taps.malformed ∧ (s.turnStale k b).watch = s.watch ∧
    (s.turnStale k b).mgmt.selection = s.mgmt.selection ∧ (s.turnStale k b).mgmt.latch = s.mgmt.latch ∧
    (s.turnStale k b).mgmt.validator = s.mgmt.validator ∧ (s.turnStale k b).mgmt.params = s.mgmt.params ∧
    (s.turnStale k b).mgmt.locked = s.mgmt.locked ∧ (s.turnStale k b).mgmt.frame = s.mgmt.frame := by
  unfold State.turnStale; try dsimp only
  (repeat' split) <;> simp

@[simp] theorem State.turnPointStale_frame (i : PointNo) (b : Bool) :
    (s.turnPointStale i b).pending = s.pending ∧ (s.turnPointStale i b).time = s.time ∧
    (s.turnPointStale i b).pinLow = s.pinLow ∧ (s.turnPointStale i b).intake.live = s.intake.live ∧
    (s.turnPointStale i b).intake.counters = s.intake.counters ∧ (s.turnPointStale i b).tables = s.tables ∧
    (s.turnPointStale i b).contacts = s.contacts ∧ (s.turnPointStale i b).orderClamps = s.orderClamps ∧
    (s.turnPointStale i b).holding = s.holding ∧ (s.turnPointStale i b).taps.ready = s.taps.ready ∧
    (s.turnPointStale i b).taps.held = s.taps.held ∧ (s.turnPointStale i b).taps.tilt = s.taps.tilt ∧
    (s.turnPointStale i b).taps.ladle = s.taps.ladle ∧ (s.turnPointStale i b).taps.malformed = s.taps.malformed ∧
    (s.turnPointStale i b).watch = s.watch ∧ (s.turnPointStale i b).mgmt.selection = s.mgmt.selection ∧
    (s.turnPointStale i b).mgmt.latch = s.mgmt.latch ∧ (s.turnPointStale i b).mgmt.validator = s.mgmt.validator ∧
    (s.turnPointStale i b).mgmt.params = s.mgmt.params ∧ (s.turnPointStale i b).mgmt.locked = s.mgmt.locked ∧
    (s.turnPointStale i b).mgmt.frame = s.mgmt.frame := by
  unfold State.turnPointStale; try dsimp only
  (repeat' split) <;> simp

@[simp] theorem State.flagStale_frame (i : PointNo) :
    (s.flagStale i).pending = s.pending ∧ (s.flagStale i).time = s.time ∧ (s.flagStale i).pinLow = s.pinLow ∧
    (s.flagStale i).intake.stale = s.intake.stale ∧ (s.flagStale i).intake.counters = s.intake.counters ∧
    (s.flagStale i).tables = s.tables ∧ (s.flagStale i).contacts = s.contacts ∧ (s.flagStale i).heats = s.heats ∧
    (s.flagStale i).power = s.power ∧ (s.flagStale i).orderClamps = s.orderClamps ∧
    (s.flagStale i).holding = s.holding ∧ (s.flagStale i).circuits = s.circuits ∧ (s.flagStale i).taps = s.taps ∧
    (s.flagStale i).watch = s.watch ∧ (s.flagStale i).mgmt.selection = s.mgmt.selection ∧
    (s.flagStale i).mgmt.latch = s.mgmt.latch ∧ (s.flagStale i).mgmt.validator = s.mgmt.validator ∧
    (s.flagStale i).mgmt.params = s.mgmt.params ∧ (s.flagStale i).mgmt.locked = s.mgmt.locked ∧
    (s.flagStale i).mgmt.frame = s.mgmt.frame := by
  unfold State.flagStale; try dsimp only
  (repeat' split) <;> simp

@[simp] theorem State.staleExpire_frame (i : PointNo) :
    (s.staleExpire i).pending = s.pending ∧ (s.staleExpire i).time = s.time ∧ (s.staleExpire i).pinLow = s.pinLow ∧
    (s.staleExpire i).intake.counters = s.intake.counters ∧ (s.staleExpire i).tables = s.tables ∧
    (s.staleExpire i).contacts = s.contacts ∧ (s.staleExpire i).orderClamps = s.orderClamps ∧
    (s.staleExpire i).holding = s.holding ∧ (s.staleExpire i).taps.ready = s.taps.ready ∧
    (s.staleExpire i).taps.held = s.taps.held ∧ (s.staleExpire i).taps.tilt = s.taps.tilt ∧
    (s.staleExpire i).taps.ladle = s.taps.ladle ∧ (s.staleExpire i).taps.malformed = s.taps.malformed ∧
    (s.staleExpire i).watch = s.watch ∧ (s.staleExpire i).mgmt.selection = s.mgmt.selection ∧
    (s.staleExpire i).mgmt.latch = s.mgmt.latch ∧ (s.staleExpire i).mgmt.validator = s.mgmt.validator ∧
    (s.staleExpire i).mgmt.params = s.mgmt.params ∧ (s.staleExpire i).mgmt.locked = s.mgmt.locked ∧
    (s.staleExpire i).mgmt.frame = s.mgmt.frame := by
  unfold State.staleExpire; try dsimp only
  (repeat' split) <;> simp

@[simp] theorem State.deliver_frame (e : PointEntry) (v : Int) (n : Nat) :
    (s.deliver e v n).pending = s.pending ∧ (s.deliver e v n).time = s.time ∧ (s.deliver e v n).pinLow = s.pinLow ∧
    (s.deliver e v n).intake = s.intake ∧ (s.deliver e v n).tables = s.tables ∧
    (s.deliver e v n).contacts = s.contacts ∧ (s.deliver e v n).holding = s.holding ∧
    (s.deliver e v n).taps.ready = s.taps.ready ∧ (s.deliver e v n).taps.held = s.taps.held ∧
    (s.deliver e v n).taps.malformed = s.taps.malformed ∧ (s.deliver e v n).watch = s.watch ∧
    (s.deliver e v n).mgmt.selection = s.mgmt.selection ∧ (s.deliver e v n).mgmt.latch = s.mgmt.latch ∧
    (s.deliver e v n).mgmt.validator = s.mgmt.validator ∧ (s.deliver e v n).mgmt.params = s.mgmt.params ∧
    (s.deliver e v n).mgmt.locked = s.mgmt.locked ∧ (s.deliver e v n).mgmt.frame = s.mgmt.frame := by
  unfold State.deliver; try dsimp only
  (repeat' split) <;> simp

@[simp] theorem State.skipItem_frame (i : PointNo) (l : PointLive) (q : Byte) :
    (s.skipItem i l q).pending = s.pending ∧ (s.skipItem i l q).time = s.time ∧
    (s.skipItem i l q).pinLow = s.pinLow ∧ (s.skipItem i l q).loop = s.loop ∧
    (s.skipItem i l q).intake.stale = s.intake.stale ∧ (s.skipItem i l q).intake.counters = s.intake.counters ∧
    (s.skipItem i l q).tables = s.tables ∧ (s.skipItem i l q).contacts = s.contacts ∧
    (s.skipItem i l q).power = s.power ∧ (s.skipItem i l q).orderClamps = s.orderClamps ∧
    (s.skipItem i l q).holding = s.holding ∧ (s.skipItem i l q).circuits = s.circuits ∧
    (s.skipItem i l q).taps = s.taps ∧ (s.skipItem i l q).watch = s.watch ∧ (s.skipItem i l q).mgmt = s.mgmt := by
  unfold State.skipItem; try dsimp only
  (repeat' split) <;> simp

@[simp] theorem State.acceptItem_frame (i : PointNo) (l : PointLive) (q : Byte) (it : SampleItem) :
    (s.acceptItem i l q it).pending = s.pending ∧ (s.acceptItem i l q it).time = s.time ∧
    (s.acceptItem i l q it).pinLow = s.pinLow ∧ (s.acceptItem i l q it).tables = s.tables ∧
    (s.acceptItem i l q it).contacts = s.contacts ∧ (s.acceptItem i l q it).holding = s.holding ∧
    (s.acceptItem i l q it).taps.ready = s.taps.ready ∧ (s.acceptItem i l q it).taps.held = s.taps.held ∧
    (s.acceptItem i l q it).taps.malformed = s.taps.malformed ∧ (s.acceptItem i l q it).watch = s.watch ∧
    (s.acceptItem i l q it).mgmt.selection = s.mgmt.selection ∧ (s.acceptItem i l q it).mgmt.latch = s.mgmt.latch ∧
    (s.acceptItem i l q it).mgmt.validator = s.mgmt.validator ∧
    (s.acceptItem i l q it).mgmt.params = s.mgmt.params ∧ (s.acceptItem i l q it).mgmt.locked = s.mgmt.locked ∧
    (s.acceptItem i l q it).mgmt.frame = s.mgmt.frame := by
  unfold State.acceptItem; try dsimp only
  (repeat' split) <;> simp

@[simp] theorem State.matchedItem_frame (i : PointNo) (q : Byte) (it : SampleItem) :
    (s.matchedItem i q it).pending = s.pending ∧ (s.matchedItem i q it).time = s.time ∧
    (s.matchedItem i q it).pinLow = s.pinLow ∧ (s.matchedItem i q it).tables = s.tables ∧
    (s.matchedItem i q it).contacts.raw = s.contacts.raw ∧
    (s.matchedItem i q it).contacts.filtered = s.contacts.filtered ∧
    (s.matchedItem i q it).contacts.persistence = s.contacts.persistence ∧
    (s.matchedItem i q it).contacts.ind = s.contacts.ind ∧
    (s.matchedItem i q it).contacts.changePending = s.contacts.changePending ∧
    (s.matchedItem i q it).contacts.overrun = s.contacts.overrun ∧
    (s.matchedItem i q it).contacts.snapshot = s.contacts.snapshot ∧
    (s.matchedItem i q it).contacts.commanded = s.contacts.commanded ∧
    (s.matchedItem i q it).contacts.frozen = s.contacts.frozen ∧ (s.matchedItem i q it).taps.held = s.taps.held ∧
    (s.matchedItem i q it).taps.malformed = s.taps.malformed ∧ (s.matchedItem i q it).watch = s.watch ∧
    (s.matchedItem i q it).mgmt.selection = s.mgmt.selection ∧ (s.matchedItem i q it).mgmt.latch = s.mgmt.latch ∧
    (s.matchedItem i q it).mgmt.validator = s.mgmt.validator ∧ (s.matchedItem i q it).mgmt.params = s.mgmt.params ∧
    (s.matchedItem i q it).mgmt.locked = s.mgmt.locked ∧ (s.matchedItem i q it).mgmt.frame = s.mgmt.frame := by
  unfold State.matchedItem; try dsimp only
  (repeat' split) <;> simp

@[simp] theorem State.item_frame (st q : Byte) (o : Bool) (it : SampleItem) :
    (s.item st q o it).pending = s.pending ∧ (s.item st q o it).time = s.time ∧
    (s.item st q o it).pinLow = s.pinLow ∧ (s.item st q o it).tables = s.tables ∧
    (s.item st q o it).contacts.raw = s.contacts.raw ∧ (s.item st q o it).contacts.filtered = s.contacts.filtered ∧
    (s.item st q o it).contacts.persistence = s.contacts.persistence ∧
    (s.item st q o it).contacts.ind = s.contacts.ind ∧
    (s.item st q o it).contacts.changePending = s.contacts.changePending ∧
    (s.item st q o it).contacts.overrun = s.contacts.overrun ∧
    (s.item st q o it).contacts.snapshot = s.contacts.snapshot ∧
    (s.item st q o it).contacts.commanded = s.contacts.commanded ∧
    (s.item st q o it).contacts.frozen = s.contacts.frozen ∧ (s.item st q o it).taps.held = s.taps.held ∧
    (s.item st q o it).taps.malformed = s.taps.malformed ∧ (s.item st q o it).watch = s.watch ∧
    (s.item st q o it).mgmt.selection = s.mgmt.selection ∧ (s.item st q o it).mgmt.latch = s.mgmt.latch ∧
    (s.item st q o it).mgmt.validator = s.mgmt.validator ∧ (s.item st q o it).mgmt.params = s.mgmt.params ∧
    (s.item st q o it).mgmt.locked = s.mgmt.locked ∧ (s.item st q o it).mgmt.frame = s.mgmt.frame := by
  unfold State.item; try dsimp only
  (repeat' split) <;> simp

@[simp] theorem State.items_frame (st q : Byte) (o : Bool) (b : List Byte) :
    (s.items st q o b).pending = s.pending ∧ (s.items st q o b).time = s.time ∧
    (s.items st q o b).pinLow = s.pinLow ∧ (s.items st q o b).tables = s.tables ∧
    (s.items st q o b).contacts.raw = s.contacts.raw ∧ (s.items st q o b).contacts.filtered = s.contacts.filtered ∧
    (s.items st q o b).contacts.persistence = s.contacts.persistence ∧
    (s.items st q o b).contacts.ind = s.contacts.ind ∧
    (s.items st q o b).contacts.changePending = s.contacts.changePending ∧
    (s.items st q o b).contacts.overrun = s.contacts.overrun ∧
    (s.items st q o b).contacts.snapshot = s.contacts.snapshot ∧
    (s.items st q o b).contacts.commanded = s.contacts.commanded ∧
    (s.items st q o b).contacts.frozen = s.contacts.frozen ∧ (s.items st q o b).taps.held = s.taps.held ∧
    (s.items st q o b).taps.malformed = s.taps.malformed ∧ (s.items st q o b).watch = s.watch ∧
    (s.items st q o b).mgmt.selection = s.mgmt.selection ∧ (s.items st q o b).mgmt.latch = s.mgmt.latch ∧
    (s.items st q o b).mgmt.validator = s.mgmt.validator ∧ (s.items st q o b).mgmt.params = s.mgmt.params ∧
    (s.items st q o b).mgmt.locked = s.mgmt.locked ∧ (s.items st q o b).mgmt.frame = s.mgmt.frame := by
  unfold State.items
  refine ⟨?_, ?_, ?_, ?_, ?_, ?_, ?_, ?_, ?_, ?_, ?_, ?_, ?_, ?_, ?_, ?_, ?_, ?_, ?_, ?_, ?_, ?_⟩
  · simp [foldl_keeps (fun s : State => s.pending), apply_ite (fun s : State => s.pending)]
  · simp [foldl_keeps (fun s : State => s.time), apply_ite (fun s : State => s.time)]
  · simp [foldl_keeps (fun s : State => s.pinLow), apply_ite (fun s : State => s.pinLow)]
  · simp [foldl_keeps (fun s : State => s.tables), apply_ite (fun s : State => s.tables)]
  · simp [foldl_keeps (fun s : State => s.contacts.raw), apply_ite (fun s : State => s.contacts.raw)]
  · simp [foldl_keeps (fun s : State => s.contacts.filtered), apply_ite (fun s : State => s.contacts.filtered)]
  · simp [foldl_keeps (fun s : State => s.contacts.persistence), apply_ite (fun s : State => s.contacts.persistence)]
  · simp [foldl_keeps (fun s : State => s.contacts.ind), apply_ite (fun s : State => s.contacts.ind)]
  · simp [foldl_keeps (fun s : State => s.contacts.changePending), apply_ite (fun s : State => s.contacts.changePending)]
  · simp [foldl_keeps (fun s : State => s.contacts.overrun), apply_ite (fun s : State => s.contacts.overrun)]
  · simp [foldl_keeps (fun s : State => s.contacts.snapshot), apply_ite (fun s : State => s.contacts.snapshot)]
  · simp [foldl_keeps (fun s : State => s.contacts.commanded), apply_ite (fun s : State => s.contacts.commanded)]
  · simp [foldl_keeps (fun s : State => s.contacts.frozen), apply_ite (fun s : State => s.contacts.frozen)]
  · simp [foldl_keeps (fun s : State => s.taps.held), apply_ite (fun s : State => s.taps.held)]
  · simp [foldl_keeps (fun s : State => s.taps.malformed), apply_ite (fun s : State => s.taps.malformed)]
  · simp [foldl_keeps (fun s : State => s.watch), apply_ite (fun s : State => s.watch)]
  · simp [foldl_keeps (fun s : State => s.mgmt.selection), apply_ite (fun s : State => s.mgmt.selection)]
  · simp [foldl_keeps (fun s : State => s.mgmt.latch), apply_ite (fun s : State => s.mgmt.latch)]
  · simp [foldl_keeps (fun s : State => s.mgmt.validator), apply_ite (fun s : State => s.mgmt.validator)]
  · simp [foldl_keeps (fun s : State => s.mgmt.params), apply_ite (fun s : State => s.mgmt.params)]
  · simp [foldl_keeps (fun s : State => s.mgmt.locked), apply_ite (fun s : State => s.mgmt.locked)]
  · simp [foldl_keeps (fun s : State => s.mgmt.frame), apply_ite (fun s : State => s.mgmt.frame)]

@[simp] theorem State.recommitNotice_frame (x y : StaleInd) (k : StaleKey) :
    (s.recommitNotice x y k).pending = s.pending ∧ (s.recommitNotice x y k).time = s.time ∧
    (s.recommitNotice x y k).pinLow = s.pinLow ∧ (s.recommitNotice x y k).intake = s.intake ∧
    (s.recommitNotice x y k).tables = s.tables ∧ (s.recommitNotice x y k).contacts = s.contacts ∧
    (s.recommitNotice x y k).orderClamps = s.orderClamps ∧ (s.recommitNotice x y k).holding = s.holding ∧
    (s.recommitNotice x y k).taps.ready = s.taps.ready ∧ (s.recommitNotice x y k).taps.held = s.taps.held ∧
    (s.recommitNotice x y k).taps.tilt = s.taps.tilt ∧ (s.recommitNotice x y k).taps.ladle = s.taps.ladle ∧
    (s.recommitNotice x y k).taps.malformed = s.taps.malformed ∧ (s.recommitNotice x y k).watch = s.watch ∧
    (s.recommitNotice x y k).mgmt.selection = s.mgmt.selection ∧
    (s.recommitNotice x y k).mgmt.latch = s.mgmt.latch ∧
    (s.recommitNotice x y k).mgmt.validator = s.mgmt.validator ∧
    (s.recommitNotice x y k).mgmt.params = s.mgmt.params ∧ (s.recommitNotice x y k).mgmt.locked = s.mgmt.locked ∧
    (s.recommitNotice x y k).mgmt.frame = s.mgmt.frame := by
  unfold State.recommitNotice; try dsimp only
  (repeat' split) <;> simp

@[simp] theorem State.recommitPoints_frame (m : Image) :
    (s.recommitPoints m).pending = s.pending ∧ (s.recommitPoints m).time = s.time ∧
    (s.recommitPoints m).pinLow = s.pinLow ∧ (s.recommitPoints m).intake.counters = s.intake.counters ∧
    (s.recommitPoints m).tables = s.tables ∧ (s.recommitPoints m).contacts = s.contacts ∧
    (s.recommitPoints m).orderClamps = s.orderClamps ∧ (s.recommitPoints m).holding = s.holding ∧
    (s.recommitPoints m).taps.ready = s.taps.ready ∧ (s.recommitPoints m).taps.held = s.taps.held ∧
    (s.recommitPoints m).taps.tilt = s.taps.tilt ∧ (s.recommitPoints m).taps.ladle = s.taps.ladle ∧
    (s.recommitPoints m).taps.malformed = s.taps.malformed ∧ (s.recommitPoints m).watch = s.watch ∧
    (s.recommitPoints m).mgmt.selection = s.mgmt.selection ∧ (s.recommitPoints m).mgmt.latch = s.mgmt.latch ∧
    (s.recommitPoints m).mgmt.validator = s.mgmt.validator ∧ (s.recommitPoints m).mgmt.params = s.mgmt.params ∧
    (s.recommitPoints m).mgmt.locked = s.mgmt.locked ∧ (s.recommitPoints m).mgmt.frame = s.mgmt.frame := by
  unfold State.recommitPoints
  refine ⟨?_, ?_, ?_, ?_, ?_, ?_, ?_, ?_, ?_, ?_, ?_, ?_, ?_, ?_, ?_, ?_, ?_, ?_, ?_, ?_⟩
  · simp [foldl_keeps (fun s : State => s.pending), apply_ite (fun s : State => s.pending)]
  · simp [foldl_keeps (fun s : State => s.time), apply_ite (fun s : State => s.time)]
  · simp [foldl_keeps (fun s : State => s.pinLow), apply_ite (fun s : State => s.pinLow)]
  · simp [foldl_keeps (fun s : State => s.intake.counters), apply_ite (fun s : State => s.intake.counters)]
  · simp [foldl_keeps (fun s : State => s.tables), apply_ite (fun s : State => s.tables)]
  · simp [foldl_keeps (fun s : State => s.contacts), apply_ite (fun s : State => s.contacts)]
  · simp [foldl_keeps (fun s : State => s.orderClamps), apply_ite (fun s : State => s.orderClamps)]
  · simp [foldl_keeps (fun s : State => s.holding), apply_ite (fun s : State => s.holding)]
  · simp [foldl_keeps (fun s : State => s.taps.ready), apply_ite (fun s : State => s.taps.ready)]
  · simp [foldl_keeps (fun s : State => s.taps.held), apply_ite (fun s : State => s.taps.held)]
  · simp [foldl_keeps (fun s : State => s.taps.tilt), apply_ite (fun s : State => s.taps.tilt)]
  · simp [foldl_keeps (fun s : State => s.taps.ladle), apply_ite (fun s : State => s.taps.ladle)]
  · simp [foldl_keeps (fun s : State => s.taps.malformed), apply_ite (fun s : State => s.taps.malformed)]
  · simp [foldl_keeps (fun s : State => s.watch), apply_ite (fun s : State => s.watch)]
  · simp [foldl_keeps (fun s : State => s.mgmt.selection), apply_ite (fun s : State => s.mgmt.selection)]
  · simp [foldl_keeps (fun s : State => s.mgmt.latch), apply_ite (fun s : State => s.mgmt.latch)]
  · simp [foldl_keeps (fun s : State => s.mgmt.validator), apply_ite (fun s : State => s.mgmt.validator)]
  · simp [foldl_keeps (fun s : State => s.mgmt.params), apply_ite (fun s : State => s.mgmt.params)]
  · simp [foldl_keeps (fun s : State => s.mgmt.locked), apply_ite (fun s : State => s.mgmt.locked)]
  · simp [foldl_keeps (fun s : State => s.mgmt.frame), apply_ite (fun s : State => s.mgmt.frame)]

@[simp] theorem State.followExpire_frame (f : Furnace) :
    (s.followExpire f).pending = s.pending ∧ (s.followExpire f).time = s.time ∧
    (s.followExpire f).pinLow = s.pinLow ∧ (s.followExpire f).intake = s.intake ∧
    (s.followExpire f).tables = s.tables ∧ (s.followExpire f).contacts = s.contacts ∧
    (s.followExpire f).orderClamps = s.orderClamps ∧ (s.followExpire f).holding = s.holding ∧
    (s.followExpire f).circuits = s.circuits ∧ (s.followExpire f).taps.ready = s.taps.ready ∧
    (s.followExpire f).taps.pourTimer = s.taps.pourTimer ∧
    (s.followExpire f).taps.returnTimer = s.taps.returnTimer ∧ (s.followExpire f).taps.held = s.taps.held ∧
    (s.followExpire f).taps.tilt = s.taps.tilt ∧ (s.followExpire f).taps.ladle = s.taps.ladle ∧
    (s.followExpire f).taps.dipAge = s.taps.dipAge ∧ (s.followExpire f).taps.malformed = s.taps.malformed ∧
    (s.followExpire f).watch = s.watch ∧ (s.followExpire f).mgmt.selection = s.mgmt.selection ∧
    (s.followExpire f).mgmt.latch = s.mgmt.latch ∧ (s.followExpire f).mgmt.validator = s.mgmt.validator ∧
    (s.followExpire f).mgmt.params = s.mgmt.params ∧ (s.followExpire f).mgmt.locked = s.mgmt.locked ∧
    (s.followExpire f).mgmt.frame = s.mgmt.frame := by
  unfold State.followExpire; try dsimp only
  (repeat' split) <;> simp

@[simp] theorem State.followAtCommit_frame (f : Furnace) :
    (s.followAtCommit f).pending = s.pending ∧ (s.followAtCommit f).time = s.time ∧
    (s.followAtCommit f).pinLow = s.pinLow ∧ (s.followAtCommit f).intake = s.intake ∧
    (s.followAtCommit f).tables = s.tables ∧ (s.followAtCommit f).contacts.raw = s.contacts.raw ∧
    (s.followAtCommit f).contacts.filtered = s.contacts.filtered ∧
    (s.followAtCommit f).contacts.persistence = s.contacts.persistence ∧
    (s.followAtCommit f).contacts.ind = s.contacts.ind ∧
    (s.followAtCommit f).contacts.changePending = s.contacts.changePending ∧
    (s.followAtCommit f).contacts.overrun = s.contacts.overrun ∧
    (s.followAtCommit f).contacts.snapshot = s.contacts.snapshot ∧
    (s.followAtCommit f).contacts.commanded = s.contacts.commanded ∧
    (s.followAtCommit f).contacts.frozen = s.contacts.frozen ∧ (s.followAtCommit f).orderClamps = s.orderClamps ∧
    (s.followAtCommit f).taps.pourTimer = s.taps.pourTimer ∧
    (s.followAtCommit f).taps.returnTimer = s.taps.returnTimer ∧ (s.followAtCommit f).taps.held = s.taps.held ∧
    (s.followAtCommit f).taps.tilt = s.taps.tilt ∧ (s.followAtCommit f).taps.ladle = s.taps.ladle ∧
    (s.followAtCommit f).taps.dipAge = s.taps.dipAge ∧ (s.followAtCommit f).taps.malformed = s.taps.malformed ∧
    (s.followAtCommit f).watch = s.watch ∧ (s.followAtCommit f).mgmt.selection = s.mgmt.selection ∧
    (s.followAtCommit f).mgmt.latch = s.mgmt.latch ∧ (s.followAtCommit f).mgmt.validator = s.mgmt.validator ∧
    (s.followAtCommit f).mgmt.params = s.mgmt.params ∧ (s.followAtCommit f).mgmt.locked = s.mgmt.locked ∧
    (s.followAtCommit f).mgmt.frame = s.mgmt.frame := by
  unfold State.followAtCommit; try dsimp only
  (repeat' split) <;> simp

@[simp] theorem State.rampAtCommit_frame (f : Furnace) :
    (s.rampAtCommit f).pending = s.pending ∧ (s.rampAtCommit f).time = s.time ∧
    (s.rampAtCommit f).pinLow = s.pinLow ∧ (s.rampAtCommit f).intake = s.intake ∧
    (s.rampAtCommit f).tables = s.tables ∧ (s.rampAtCommit f).contacts.raw = s.contacts.raw ∧
    (s.rampAtCommit f).contacts.filtered = s.contacts.filtered ∧
    (s.rampAtCommit f).contacts.persistence = s.contacts.persistence ∧
    (s.rampAtCommit f).contacts.ind = s.contacts.ind ∧
    (s.rampAtCommit f).contacts.changePending = s.contacts.changePending ∧
    (s.rampAtCommit f).contacts.overrun = s.contacts.overrun ∧
    (s.rampAtCommit f).contacts.snapshot = s.contacts.snapshot ∧
    (s.rampAtCommit f).contacts.commanded = s.contacts.commanded ∧
    (s.rampAtCommit f).contacts.frozen = s.contacts.frozen ∧ (s.rampAtCommit f).orderClamps = s.orderClamps ∧
    (s.rampAtCommit f).taps.pourTimer = s.taps.pourTimer ∧
    (s.rampAtCommit f).taps.returnTimer = s.taps.returnTimer ∧ (s.rampAtCommit f).taps.held = s.taps.held ∧
    (s.rampAtCommit f).taps.tilt = s.taps.tilt ∧ (s.rampAtCommit f).taps.ladle = s.taps.ladle ∧
    (s.rampAtCommit f).taps.dipAge = s.taps.dipAge ∧ (s.rampAtCommit f).taps.malformed = s.taps.malformed ∧
    (s.rampAtCommit f).watch = s.watch ∧ (s.rampAtCommit f).mgmt = s.mgmt := by
  unfold State.rampAtCommit; try dsimp only
  (repeat' split) <;> simp

@[simp] theorem State.reanchorHeat_frame (old : Profile) (f : Furnace) :
    (s.reanchorHeat old f).pending = s.pending ∧ (s.reanchorHeat old f).time = s.time ∧
    (s.reanchorHeat old f).pinLow = s.pinLow ∧ (s.reanchorHeat old f).loop = s.loop ∧
    (s.reanchorHeat old f).intake = s.intake ∧ (s.reanchorHeat old f).tables = s.tables ∧
    (s.reanchorHeat old f).contacts = s.contacts ∧ (s.reanchorHeat old f).power = s.power ∧
    (s.reanchorHeat old f).orderClamps = s.orderClamps ∧ (s.reanchorHeat old f).holding = s.holding ∧
    (s.reanchorHeat old f).circuits = s.circuits ∧ (s.reanchorHeat old f).taps = s.taps ∧
    (s.reanchorHeat old f).watch = s.watch ∧ (s.reanchorHeat old f).mgmt = s.mgmt := by
  unfold State.reanchorHeat; try dsimp only
  (repeat' split) <;> simp

@[simp] theorem State.holdAtCommit_frame (f : Furnace) :
    (s.holdAtCommit f).pending = s.pending ∧ (s.holdAtCommit f).time = s.time ∧
    (s.holdAtCommit f).pinLow = s.pinLow ∧ (s.holdAtCommit f).intake = s.intake ∧
    (s.holdAtCommit f).tables = s.tables ∧ (s.holdAtCommit f).contacts = s.contacts ∧
    (s.holdAtCommit f).power = s.power ∧ (s.holdAtCommit f).orderClamps = s.orderClamps ∧
    (s.holdAtCommit f).holding = s.holding ∧ (s.holdAtCommit f).circuits = s.circuits ∧
    (s.holdAtCommit f).taps = s.taps ∧ (s.holdAtCommit f).watch = s.watch ∧
    (s.holdAtCommit f).mgmt.selection = s.mgmt.selection ∧ (s.holdAtCommit f).mgmt.latch = s.mgmt.latch ∧
    (s.holdAtCommit f).mgmt.validator = s.mgmt.validator ∧ (s.holdAtCommit f).mgmt.params = s.mgmt.params ∧
    (s.holdAtCommit f).mgmt.locked = s.mgmt.locked ∧ (s.holdAtCommit f).mgmt.frame = s.mgmt.frame := by
  unfold State.holdAtCommit; try dsimp only
  (repeat' split) <;> simp

@[simp] theorem State.reduceOrder_frame (f : Furnace) :
    (s.reduceOrder f).pending = s.pending ∧ (s.reduceOrder f).time = s.time ∧ (s.reduceOrder f).pinLow = s.pinLow ∧
    (s.reduceOrder f).loop = s.loop ∧ (s.reduceOrder f).intake = s.intake ∧ (s.reduceOrder f).tables = s.tables ∧
    (s.reduceOrder f).contacts = s.contacts ∧ (s.reduceOrder f).heats = s.heats ∧
    (s.reduceOrder f).orderClamps = s.orderClamps ∧ (s.reduceOrder f).holding = s.holding ∧
    (s.reduceOrder f).circuits = s.circuits ∧ (s.reduceOrder f).taps = s.taps ∧ (s.reduceOrder f).watch = s.watch ∧
    (s.reduceOrder f).mgmt = s.mgmt := by
  unfold State.reduceOrder; try dsimp only
  (repeat' split) <;> simp

@[simp] theorem State.replaceOrder_frame (f : Furnace) :
    (s.replaceOrder f).pending = s.pending ∧ (s.replaceOrder f).time = s.time ∧
    (s.replaceOrder f).pinLow = s.pinLow ∧ (s.replaceOrder f).intake = s.intake ∧
    (s.replaceOrder f).tables = s.tables ∧ (s.replaceOrder f).contacts = s.contacts ∧
    (s.replaceOrder f).heats = s.heats ∧ (s.replaceOrder f).orderClamps = s.orderClamps ∧
    (s.replaceOrder f).holding = s.holding ∧ (s.replaceOrder f).circuits = s.circuits ∧
    (s.replaceOrder f).taps = s.taps ∧ (s.replaceOrder f).watch = s.watch ∧ (s.replaceOrder f).mgmt = s.mgmt := by
  unfold State.replaceOrder; try dsimp only
  (repeat' split) <;> simp

@[simp] theorem State.recommitProfiles_frame (s0 : State) :
    (s0.recommitProfiles s).pending = s.pending ∧ (s0.recommitProfiles s).time = s.time ∧
    (s0.recommitProfiles s).pinLow = s.pinLow ∧ (s0.recommitProfiles s).intake = s.intake ∧
    (s0.recommitProfiles s).tables = s.tables ∧ (s0.recommitProfiles s).contacts.raw = s.contacts.raw ∧
    (s0.recommitProfiles s).contacts.filtered = s.contacts.filtered ∧
    (s0.recommitProfiles s).contacts.persistence = s.contacts.persistence ∧
    (s0.recommitProfiles s).contacts.ind = s.contacts.ind ∧
    (s0.recommitProfiles s).contacts.changePending = s.contacts.changePending ∧
    (s0.recommitProfiles s).contacts.overrun = s.contacts.overrun ∧
    (s0.recommitProfiles s).contacts.snapshot = s.contacts.snapshot ∧
    (s0.recommitProfiles s).contacts.commanded = s.contacts.commanded ∧
    (s0.recommitProfiles s).contacts.frozen = s.contacts.frozen ∧
    (s0.recommitProfiles s).orderClamps = s.orderClamps ∧
    (s0.recommitProfiles s).taps.pourTimer = s.taps.pourTimer ∧
    (s0.recommitProfiles s).taps.returnTimer = s.taps.returnTimer ∧
    (s0.recommitProfiles s).taps.held = s.taps.held ∧ (s0.recommitProfiles s).taps.tilt = s.taps.tilt ∧
    (s0.recommitProfiles s).taps.ladle = s.taps.ladle ∧ (s0.recommitProfiles s).taps.dipAge = s.taps.dipAge ∧
    (s0.recommitProfiles s).taps.malformed = s.taps.malformed ∧ (s0.recommitProfiles s).watch = s.watch ∧
    (s0.recommitProfiles s).mgmt.selection = s.mgmt.selection ∧ (s0.recommitProfiles s).mgmt.latch = s.mgmt.latch ∧
    (s0.recommitProfiles s).mgmt.validator = s.mgmt.validator ∧
    (s0.recommitProfiles s).mgmt.params = s.mgmt.params ∧ (s0.recommitProfiles s).mgmt.locked = s.mgmt.locked ∧
    (s0.recommitProfiles s).mgmt.frame = s.mgmt.frame := by
  unfold State.recommitProfiles
  refine ⟨?_, ?_, ?_, ?_, ?_, ?_, ?_, ?_, ?_, ?_, ?_, ?_, ?_, ?_, ?_, ?_, ?_, ?_, ?_, ?_, ?_, ?_, ?_, ?_, ?_,
    ?_, ?_, ?_, ?_⟩
  · simp [foldl_keeps (fun s : State => s.pending), apply_ite (fun s : State => s.pending)]
  · simp [foldl_keeps (fun s : State => s.time), apply_ite (fun s : State => s.time)]
  · simp [foldl_keeps (fun s : State => s.pinLow), apply_ite (fun s : State => s.pinLow)]
  · simp [foldl_keeps (fun s : State => s.intake), apply_ite (fun s : State => s.intake)]
  · simp [foldl_keeps (fun s : State => s.tables), apply_ite (fun s : State => s.tables)]
  · simp [foldl_keeps (fun s : State => s.contacts.raw), apply_ite (fun s : State => s.contacts.raw)]
  · simp [foldl_keeps (fun s : State => s.contacts.filtered), apply_ite (fun s : State => s.contacts.filtered)]
  · simp [foldl_keeps (fun s : State => s.contacts.persistence), apply_ite (fun s : State => s.contacts.persistence)]
  · simp [foldl_keeps (fun s : State => s.contacts.ind), apply_ite (fun s : State => s.contacts.ind)]
  · simp [foldl_keeps (fun s : State => s.contacts.changePending), apply_ite (fun s : State => s.contacts.changePending)]
  · simp [foldl_keeps (fun s : State => s.contacts.overrun), apply_ite (fun s : State => s.contacts.overrun)]
  · simp [foldl_keeps (fun s : State => s.contacts.snapshot), apply_ite (fun s : State => s.contacts.snapshot)]
  · simp [foldl_keeps (fun s : State => s.contacts.commanded), apply_ite (fun s : State => s.contacts.commanded)]
  · simp [foldl_keeps (fun s : State => s.contacts.frozen), apply_ite (fun s : State => s.contacts.frozen)]
  · simp [foldl_keeps (fun s : State => s.orderClamps), apply_ite (fun s : State => s.orderClamps)]
  · simp [foldl_keeps (fun s : State => s.taps.pourTimer), apply_ite (fun s : State => s.taps.pourTimer)]
  · simp [foldl_keeps (fun s : State => s.taps.returnTimer), apply_ite (fun s : State => s.taps.returnTimer)]
  · simp [foldl_keeps (fun s : State => s.taps.held), apply_ite (fun s : State => s.taps.held)]
  · simp [foldl_keeps (fun s : State => s.taps.tilt), apply_ite (fun s : State => s.taps.tilt)]
  · simp [foldl_keeps (fun s : State => s.taps.ladle), apply_ite (fun s : State => s.taps.ladle)]
  · simp [foldl_keeps (fun s : State => s.taps.dipAge), apply_ite (fun s : State => s.taps.dipAge)]
  · simp [foldl_keeps (fun s : State => s.taps.malformed), apply_ite (fun s : State => s.taps.malformed)]
  · simp [foldl_keeps (fun s : State => s.watch), apply_ite (fun s : State => s.watch)]
  · simp [foldl_keeps (fun s : State => s.mgmt.selection), apply_ite (fun s : State => s.mgmt.selection)]
  · simp [foldl_keeps (fun s : State => s.mgmt.latch), apply_ite (fun s : State => s.mgmt.latch)]
  · simp [foldl_keeps (fun s : State => s.mgmt.validator), apply_ite (fun s : State => s.mgmt.validator)]
  · simp [foldl_keeps (fun s : State => s.mgmt.params), apply_ite (fun s : State => s.mgmt.params)]
  · simp [foldl_keeps (fun s : State => s.mgmt.locked), apply_ite (fun s : State => s.mgmt.locked)]
  · simp [foldl_keeps (fun s : State => s.mgmt.frame), apply_ite (fun s : State => s.mgmt.frame)]

@[simp] theorem State.recommitCooling_frame (m : Image) :
    (s.recommitCooling m).pending = s.pending ∧ (s.recommitCooling m).time = s.time ∧
    (s.recommitCooling m).pinLow = s.pinLow ∧ (s.recommitCooling m).intake = s.intake ∧
    (s.recommitCooling m).tables = s.tables ∧ (s.recommitCooling m).contacts = s.contacts ∧
    (s.recommitCooling m).power = s.power ∧ (s.recommitCooling m).orderClamps = s.orderClamps ∧
    (s.recommitCooling m).holding = s.holding ∧ (s.recommitCooling m).taps.ready = s.taps.ready ∧
    (s.recommitCooling m).taps.pourTimer = s.taps.pourTimer ∧
    (s.recommitCooling m).taps.returnTimer = s.taps.returnTimer ∧ (s.recommitCooling m).taps.held = s.taps.held ∧
    (s.recommitCooling m).taps.tilt = s.taps.tilt ∧ (s.recommitCooling m).taps.ladle = s.taps.ladle ∧
    (s.recommitCooling m).taps.dipAge = s.taps.dipAge ∧ (s.recommitCooling m).taps.malformed = s.taps.malformed ∧
    (s.recommitCooling m).watch = s.watch ∧ (s.recommitCooling m).mgmt.selection = s.mgmt.selection ∧
    (s.recommitCooling m).mgmt.latch = s.mgmt.latch ∧ (s.recommitCooling m).mgmt.validator = s.mgmt.validator ∧
    (s.recommitCooling m).mgmt.params = s.mgmt.params ∧ (s.recommitCooling m).mgmt.locked = s.mgmt.locked ∧
    (s.recommitCooling m).mgmt.frame = s.mgmt.frame := by
  unfold State.recommitCooling
  refine ⟨?_, ?_, ?_, ?_, ?_, ?_, ?_, ?_, ?_, ?_, ?_, ?_, ?_, ?_, ?_, ?_, ?_, ?_, ?_, ?_, ?_, ?_, ?_, ?_⟩
  · simp [foldl_keeps (fun s : State => s.pending), apply_ite (fun s : State => s.pending)]
  · simp [foldl_keeps (fun s : State => s.time), apply_ite (fun s : State => s.time)]
  · simp [foldl_keeps (fun s : State => s.pinLow), apply_ite (fun s : State => s.pinLow)]
  · simp [foldl_keeps (fun s : State => s.intake), apply_ite (fun s : State => s.intake)]
  · simp [foldl_keeps (fun s : State => s.tables), apply_ite (fun s : State => s.tables)]
  · simp [foldl_keeps (fun s : State => s.contacts), apply_ite (fun s : State => s.contacts)]
  · simp [foldl_keeps (fun s : State => s.power), apply_ite (fun s : State => s.power)]
  · simp [foldl_keeps (fun s : State => s.orderClamps), apply_ite (fun s : State => s.orderClamps)]
  · simp [foldl_keeps (fun s : State => s.holding), apply_ite (fun s : State => s.holding)]
  · simp [foldl_keeps (fun s : State => s.taps.ready), apply_ite (fun s : State => s.taps.ready)]
  · simp [foldl_keeps (fun s : State => s.taps.pourTimer), apply_ite (fun s : State => s.taps.pourTimer)]
  · simp [foldl_keeps (fun s : State => s.taps.returnTimer), apply_ite (fun s : State => s.taps.returnTimer)]
  · simp [foldl_keeps (fun s : State => s.taps.held), apply_ite (fun s : State => s.taps.held)]
  · simp [foldl_keeps (fun s : State => s.taps.tilt), apply_ite (fun s : State => s.taps.tilt)]
  · simp [foldl_keeps (fun s : State => s.taps.ladle), apply_ite (fun s : State => s.taps.ladle)]
  · simp [foldl_keeps (fun s : State => s.taps.dipAge), apply_ite (fun s : State => s.taps.dipAge)]
  · simp [foldl_keeps (fun s : State => s.taps.malformed), apply_ite (fun s : State => s.taps.malformed)]
  · simp [foldl_keeps (fun s : State => s.watch), apply_ite (fun s : State => s.watch)]
  · simp [foldl_keeps (fun s : State => s.mgmt.selection), apply_ite (fun s : State => s.mgmt.selection)]
  · simp [foldl_keeps (fun s : State => s.mgmt.latch), apply_ite (fun s : State => s.mgmt.latch)]
  · simp [foldl_keeps (fun s : State => s.mgmt.validator), apply_ite (fun s : State => s.mgmt.validator)]
  · simp [foldl_keeps (fun s : State => s.mgmt.params), apply_ite (fun s : State => s.mgmt.params)]
  · simp [foldl_keeps (fun s : State => s.mgmt.locked), apply_ite (fun s : State => s.mgmt.locked)]
  · simp [foldl_keeps (fun s : State => s.mgmt.frame), apply_ite (fun s : State => s.mgmt.frame)]

@[simp] theorem State.recordVerdict_frame (t : TableNo) (v : Verdict) (x : Option Failure) :
    (s.recordVerdict t v x).pending = s.pending ∧ (s.recordVerdict t v x).time = s.time ∧
    (s.recordVerdict t v x).pinLow = s.pinLow ∧ (s.recordVerdict t v x).loop = s.loop ∧
    (s.recordVerdict t v x).intake = s.intake ∧ (s.recordVerdict t v x).tables = s.tables ∧
    (s.recordVerdict t v x).contacts = s.contacts ∧ (s.recordVerdict t v x).heats = s.heats ∧
    (s.recordVerdict t v x).power = s.power ∧ (s.recordVerdict t v x).orderClamps = s.orderClamps ∧
    (s.recordVerdict t v x).holding = s.holding ∧ (s.recordVerdict t v x).circuits = s.circuits ∧
    (s.recordVerdict t v x).taps = s.taps ∧ (s.recordVerdict t v x).watch = s.watch ∧
    (s.recordVerdict t v x).mgmt.selection = s.mgmt.selection ∧ (s.recordVerdict t v x).mgmt.latch = s.mgmt.latch ∧
    (s.recordVerdict t v x).mgmt.params = s.mgmt.params ∧ (s.recordVerdict t v x).mgmt.locked = s.mgmt.locked ∧
    (s.recordVerdict t v x).mgmt.latched = s.mgmt.latched ∧ (s.recordVerdict t v x).mgmt.frame = s.mgmt.frame := by
  unfold State.recordVerdict; try dsimp only
  (repeat' split) <;> simp

@[simp] theorem State.activate_frame (t : TableNo) :
    (s.activate t).pending = s.pending ∧ (s.activate t).time = s.time ∧ (s.activate t).pinLow = s.pinLow ∧
    (s.activate t).loop = s.loop ∧ (s.activate t).intake = s.intake ∧ (s.activate t).contacts = s.contacts ∧
    (s.activate t).heats = s.heats ∧ (s.activate t).power = s.power ∧ (s.activate t).orderClamps = s.orderClamps ∧
    (s.activate t).holding = s.holding ∧ (s.activate t).circuits = s.circuits ∧ (s.activate t).taps = s.taps ∧
    (s.activate t).watch = s.watch ∧ (s.activate t).mgmt = s.mgmt := by
  unfold State.activate; try dsimp only
  (repeat' split) <;> simp

@[simp] theorem State.commitEffects_frame (s0 : State) (t : TableNo) (m : Image) :
    (s0.commitEffects s t m).pending = s.pending ∧ (s0.commitEffects s t m).time = s.time ∧
    (s0.commitEffects s t m).pinLow = s.pinLow ∧ (s0.commitEffects s t m).intake.counters = s.intake.counters ∧
    (s0.commitEffects s t m).tables = s.tables ∧ (s0.commitEffects s t m).contacts.raw = s.contacts.raw ∧
    (s0.commitEffects s t m).orderClamps = s.orderClamps ∧ (s0.commitEffects s t m).taps.held = s.taps.held ∧
    (s0.commitEffects s t m).taps.tilt = s.taps.tilt ∧ (s0.commitEffects s t m).taps.ladle = s.taps.ladle ∧
    (s0.commitEffects s t m).taps.malformed = s.taps.malformed ∧
    (s0.commitEffects s t m).mgmt.selection = s.mgmt.selection ∧
    (s0.commitEffects s t m).mgmt.latch = s.mgmt.latch ∧
    (s0.commitEffects s t m).mgmt.validator = s.mgmt.validator ∧
    (s0.commitEffects s t m).mgmt.params = s.mgmt.params ∧ (s0.commitEffects s t m).mgmt.locked = s.mgmt.locked ∧
    (s0.commitEffects s t m).mgmt.frame = s.mgmt.frame := by
  unfold State.commitEffects; try dsimp only
  (repeat' split) <;> simp

@[simp] theorem State.completeValidation_frame (t : TableNo) :
    (s.completeValidation t).pending = s.pending ∧ (s.completeValidation t).time = s.time ∧
    (s.completeValidation t).pinLow = s.pinLow ∧ (s.completeValidation t).intake.counters = s.intake.counters ∧
    (s.completeValidation t).contacts.raw = s.contacts.raw ∧ (s.completeValidation t).orderClamps = s.orderClamps ∧
    (s.completeValidation t).taps.held = s.taps.held ∧ (s.completeValidation t).taps.tilt = s.taps.tilt ∧
    (s.completeValidation t).taps.ladle = s.taps.ladle ∧
    (s.completeValidation t).taps.malformed = s.taps.malformed ∧
    (s.completeValidation t).mgmt.selection = s.mgmt.selection ∧
    (s.completeValidation t).mgmt.latch = s.mgmt.latch ∧ (s.completeValidation t).mgmt.params = s.mgmt.params ∧
    (s.completeValidation t).mgmt.locked = s.mgmt.locked ∧ (s.completeValidation t).mgmt.frame = s.mgmt.frame := by
  unfold State.completeValidation; try dsimp only
  (repeat' split) <;> simp

end Sys2Proof.Machine
end

