-- ==== Sys2Proof/Laws/ItemFrames.lean ====
section
/-! SUPPORT. What each management command, the restart and the arrival of a frame can change, as Laws/Frames.lean says
it of the blocks' operations. -/

-- One script proves each of these lemmas, and not every step of it is needed by each.
set_option linter.unusedTactic false
set_option linter.unnecessarySeqFocus false
set_option linter.unreachableTactic false
set_option linter.unusedSimpArgs false

namespace Sys2Proof.Machine

variable (s : State)

@[simp] theorem ItemOut.plain_state (r : Result) : (ItemOut.plain s r).state = s := rfl
@[simp] theorem ItemOut.plain_result (r : Result) : (ItemOut.plain s r).result = r := rfl
@[simp] theorem ItemOut.plain_data (r : Result) : (ItemOut.plain s r).data = [] := rfl
@[simp] theorem ItemOut.ok_state : (ItemOut.ok s).state = s := rfl
@[simp] theorem ItemOut.ok_result : (ItemOut.ok s).result = .ok := rfl
@[simp] theorem ItemOut.ok_data : (ItemOut.ok s).data = [] := rfl

theorem State.answer_state (t : State) (d : List Byte) :
    (s.answer t d).state = if d.length ≤ s.room then t else s := by
  unfold State.answer; split <;> rfl

@[simp] theorem State.answer_self_state (d : List Byte) : (s.answer s d).state = s := by simp [State.answer_state]

@[simp] theorem State.readPart_state (x : List (List Byte)) (p : Byte) : (s.readPart x p).state = s := by
  unfold State.readPart; split <;> simp

@[simp] theorem State.openFrame_frame (k : Nat) :
    (s.openFrame k).pending = s.pending ∧ (s.openFrame k).time = s.time ∧ (s.openFrame k).pinLow = s.pinLow ∧
    (s.openFrame k).loop = s.loop ∧ (s.openFrame k).intake = s.intake ∧ (s.openFrame k).tables = s.tables ∧
    (s.openFrame k).contacts = s.contacts ∧ (s.openFrame k).heats = s.heats ∧ (s.openFrame k).power = s.power ∧
    (s.openFrame k).orderClamps = s.orderClamps ∧ (s.openFrame k).holding = s.holding ∧
    (s.openFrame k).circuits = s.circuits ∧ (s.openFrame k).taps = s.taps ∧ (s.openFrame k).watch = s.watch ∧
    (s.openFrame k).mgmt.selection = s.mgmt.selection ∧ (s.openFrame k).mgmt.latch = s.mgmt.latch ∧
    (s.openFrame k).mgmt.validator = s.mgmt.validator ∧ (s.openFrame k).mgmt.params = s.mgmt.params ∧
    (s.openFrame k).mgmt.locked = s.mgmt.locked ∧ (s.openFrame k).mgmt.latched = s.mgmt.latched := by
  unfold State.openFrame; try dsimp only
  (repeat' split) <;> simp

@[simp] theorem State.silenceExpire_frame :
    (s.silenceExpire).pending = s.pending ∧ (s.silenceExpire).time = s.time ∧ (s.silenceExpire).pinLow = s.pinLow ∧
    (s.silenceExpire).intake = s.intake ∧ (s.silenceExpire).tables = s.tables ∧
    (s.silenceExpire).contacts = s.contacts ∧ (s.silenceExpire).heats = s.heats ∧
    (s.silenceExpire).power = s.power ∧ (s.silenceExpire).orderClamps = s.orderClamps ∧
    (s.silenceExpire).holding = s.holding ∧ (s.silenceExpire).circuits = s.circuits ∧
    (s.silenceExpire).taps = s.taps ∧ (s.silenceExpire).watch = s.watch ∧
    (s.silenceExpire).mgmt.selection = s.mgmt.selection ∧ (s.silenceExpire).mgmt.latch = s.mgmt.latch ∧
    (s.silenceExpire).mgmt.validator = s.mgmt.validator ∧ (s.silenceExpire).mgmt.params = s.mgmt.params ∧
    (s.silenceExpire).mgmt.locked = s.mgmt.locked ∧ (s.silenceExpire).mgmt.frame = s.mgmt.frame := by
  unfold State.silenceExpire; try dsimp only
  (repeat' split) <;> simp

@[simp] theorem State.paramWritten_frame (n : Nat) :
    (s.paramWritten n).pending = s.pending ∧ (s.paramWritten n).time = s.time ∧
    (s.paramWritten n).pinLow = s.pinLow ∧ (s.paramWritten n).intake = s.intake ∧
    (s.paramWritten n).tables = s.tables ∧ (s.paramWritten n).contacts.raw = s.contacts.raw ∧
    (s.paramWritten n).contacts.filtered = s.contacts.filtered ∧
    (s.paramWritten n).contacts.persistence = s.contacts.persistence ∧
    (s.paramWritten n).contacts.ind = s.contacts.ind ∧
    (s.paramWritten n).contacts.changePending = s.contacts.changePending ∧
    (s.paramWritten n).contacts.overrun = s.contacts.overrun ∧
    (s.paramWritten n).contacts.snapshot = s.contacts.snapshot ∧
    (s.paramWritten n).contacts.driven = s.contacts.driven ∧
    (s.paramWritten n).contacts.commanded = s.contacts.commanded ∧ (s.paramWritten n).power = s.power ∧
    (s.paramWritten n).orderClamps = s.orderClamps ∧ (s.paramWritten n).holding = s.holding ∧
    (s.paramWritten n).circuits = s.circuits ∧ (s.paramWritten n).taps.ready = s.taps.ready ∧
    (s.paramWritten n).taps.pourTimer = s.taps.pourTimer ∧
    (s.paramWritten n).taps.returnTimer = s.taps.returnTimer ∧ (s.paramWritten n).taps.held = s.taps.held ∧
    (s.paramWritten n).taps.tilt = s.taps.tilt ∧ (s.paramWritten n).taps.ladle = s.taps.ladle ∧
    (s.paramWritten n).taps.malformed = s.taps.malformed ∧ (s.paramWritten n).mgmt.selection = s.mgmt.selection ∧
    (s.paramWritten n).mgmt.latch = s.mgmt.latch ∧ (s.paramWritten n).mgmt.validator = s.mgmt.validator ∧
    (s.paramWritten n).mgmt.params = s.mgmt.params ∧ (s.paramWritten n).mgmt.locked = s.mgmt.locked ∧
    (s.paramWritten n).mgmt.frame = s.mgmt.frame := by
  unfold State.paramWritten
  refine ⟨?_, ?_, ?_, ?_, ?_, ?_, ?_, ?_, ?_, ?_, ?_, ?_, ?_, ?_, ?_, ?_, ?_, ?_, ?_, ?_, ?_, ?_, ?_, ?_, ?_,
    ?_, ?_, ?_, ?_, ?_, ?_⟩
  · split <;> simp [foldl_keeps (fun s : State => s.pending), apply_ite (fun s : State => s.pending)]
  · split <;> simp [foldl_keeps (fun s : State => s.time), apply_ite (fun s : State => s.time)]
  · split <;> simp [foldl_keeps (fun s : State => s.pinLow), apply_ite (fun s : State => s.pinLow)]
  · split <;> simp [foldl_keeps (fun s : State => s.intake), apply_ite (fun s : State => s.intake)]
  · split <;> simp [foldl_keeps (fun s : State => s.tables), apply_ite (fun s : State => s.tables)]
  · split <;> simp [foldl_keeps (fun s : State => s.contacts.raw), apply_ite (fun s : State => s.contacts.raw)]
  · split <;> simp [foldl_keeps (fun s : State => s.contacts.filtered), apply_ite (fun s : State => s.contacts.filtered)]
  · split <;> simp [foldl_keeps (fun s : State => s.contacts.persistence), apply_ite (fun s : State => s.contacts.persistence)]
  · split <;> simp [foldl_keeps (fun s : State => s.contacts.ind), apply_ite (fun s : State => s.contacts.ind)]
  · split <;> simp [foldl_keeps (fun s : State => s.contacts.changePending), apply_ite (fun s : State => s.contacts.changePending)]
  · split <;> simp [foldl_keeps (fun s : State => s.contacts.overrun), apply_ite (fun s : State => s.contacts.overrun)]
  · split <;> simp [foldl_keeps (fun s : State => s.contacts.snapshot), apply_ite (fun s : State => s.contacts.snapshot)]
  · split <;> simp [foldl_keeps (fun s : State => s.contacts.driven), apply_ite (fun s : State => s.contacts.driven)]
  · split <;> simp [foldl_keeps (fun s : State => s.contacts.commanded), apply_ite (fun s : State => s.contacts.commanded)]
  · split <;> simp [foldl_keeps (fun s : State => s.power), apply_ite (fun s : State => s.power)]
  · split <;> simp [foldl_keeps (fun s : State => s.orderClamps), apply_ite (fun s : State => s.orderClamps)]
  · split <;> simp [foldl_keeps (fun s : State => s.holding), apply_ite (fun s : State => s.holding)]
  · split <;> simp [foldl_keeps (fun s : State => s.circuits), apply_ite (fun s : State => s.circuits)]
  · split <;> simp [foldl_keeps (fun s : State => s.taps.ready), apply_ite (fun s : State => s.taps.ready)]
  · split <;> simp [foldl_keeps (fun s : State => s.taps.pourTimer), apply_ite (fun s : State => s.taps.pourTimer)]
  · split <;> simp [foldl_keeps (fun s : State => s.taps.returnTimer), apply_ite (fun s : State => s.taps.returnTimer)]
  · split <;> simp [foldl_keeps (fun s : State => s.taps.held), apply_ite (fun s : State => s.taps.held)]
  · split <;> simp [foldl_keeps (fun s : State => s.taps.tilt), apply_ite (fun s : State => s.taps.tilt)]
  · split <;> simp [foldl_keeps (fun s : State => s.taps.ladle), apply_ite (fun s : State => s.taps.ladle)]
  · split <;> simp [foldl_keeps (fun s : State => s.taps.malformed), apply_ite (fun s : State => s.taps.malformed)]
  · split <;> simp [foldl_keeps (fun s : State => s.mgmt.selection), apply_ite (fun s : State => s.mgmt.selection)]
  · split <;> simp [foldl_keeps (fun s : State => s.mgmt.latch), apply_ite (fun s : State => s.mgmt.latch)]
  · split <;> simp [foldl_keeps (fun s : State => s.mgmt.validator), apply_ite (fun s : State => s.mgmt.validator)]
  · split <;> simp [foldl_keeps (fun s : State => s.mgmt.params), apply_ite (fun s : State => s.mgmt.params)]
  · split <;> simp [foldl_keeps (fun s : State => s.mgmt.locked), apply_ite (fun s : State => s.mgmt.locked)]
  · split <;> simp [foldl_keeps (fun s : State => s.mgmt.frame), apply_ite (fun s : State => s.mgmt.frame)]

@[simp] theorem State.correctMass_frame (f : Furnace) (m : Nat) :
    (s.correctMass f m).pending = s.pending ∧ (s.correctMass f m).time = s.time ∧
    (s.correctMass f m).pinLow = s.pinLow ∧ (s.correctMass f m).loop = s.loop ∧
    (s.correctMass f m).intake = s.intake ∧ (s.correctMass f m).tables = s.tables ∧
    (s.correctMass f m).contacts = s.contacts ∧ (s.correctMass f m).power = s.power ∧
    (s.correctMass f m).orderClamps = s.orderClamps ∧ (s.correctMass f m).holding = s.holding ∧
    (s.correctMass f m).circuits = s.circuits ∧ (s.correctMass f m).taps = s.taps ∧
    (s.correctMass f m).watch = s.watch ∧ (s.correctMass f m).mgmt = s.mgmt := by
  unfold State.correctMass; try dsimp only
  (repeat' split) <;> simp

@[simp] theorem State.setBands_frame (f : Furnace) (b : Bands) :
    (s.setBands f b).pending = s.pending ∧ (s.setBands f b).time = s.time ∧ (s.setBands f b).pinLow = s.pinLow ∧
    (s.setBands f b).loop = s.loop ∧ (s.setBands f b).intake = s.intake ∧ (s.setBands f b).tables = s.tables ∧
    (s.setBands f b).contacts = s.contacts ∧ (s.setBands f b).power = s.power ∧
    (s.setBands f b).orderClamps = s.orderClamps ∧ (s.setBands f b).circuits = s.circuits ∧
    (s.setBands f b).taps = s.taps ∧ (s.setBands f b).watch = s.watch ∧ (s.setBands f b).mgmt = s.mgmt := by
  unfold State.setBands; try dsimp only
  (repeat' split) <;> simp

@[simp] theorem State.beat_frame :
    (s.beat).pending = s.pending ∧ (s.beat).time = s.time ∧ (s.beat).pinLow = s.pinLow ∧ (s.beat).loop = s.loop ∧
    (s.beat).intake = s.intake ∧ (s.beat).tables = s.tables ∧ (s.beat).contacts = s.contacts ∧
    (s.beat).heats = s.heats ∧ (s.beat).power = s.power ∧ (s.beat).orderClamps = s.orderClamps ∧
    (s.beat).holding = s.holding ∧ (s.beat).circuits = s.circuits ∧ (s.beat).taps = s.taps ∧ (s.beat).mgmt = s.mgmt := by
  unfold State.beat; try dsimp only
  (repeat' split) <;> simp

@[simp] theorem State.itemSelectTable_frame (t c : Byte) (o : BitVec 16) :
    (s.itemSelectTable t c o).state.pending = s.pending ∧ (s.itemSelectTable t c o).state.time = s.time ∧
    (s.itemSelectTable t c o).state.pinLow = s.pinLow ∧ (s.itemSelectTable t c o).state.loop = s.loop ∧
    (s.itemSelectTable t c o).state.intake = s.intake ∧ (s.itemSelectTable t c o).state.tables = s.tables ∧
    (s.itemSelectTable t c o).state.contacts = s.contacts ∧ (s.itemSelectTable t c o).state.heats = s.heats ∧
    (s.itemSelectTable t c o).state.power = s.power ∧ (s.itemSelectTable t c o).state.orderClamps = s.orderClamps ∧
    (s.itemSelectTable t c o).state.holding = s.holding ∧ (s.itemSelectTable t c o).state.circuits = s.circuits ∧
    (s.itemSelectTable t c o).state.taps = s.taps ∧ (s.itemSelectTable t c o).state.watch = s.watch ∧
    (s.itemSelectTable t c o).state.mgmt.latch = s.mgmt.latch ∧
    (s.itemSelectTable t c o).state.mgmt.validator = s.mgmt.validator ∧
    (s.itemSelectTable t c o).state.mgmt.params = s.mgmt.params ∧
    (s.itemSelectTable t c o).state.mgmt.locked = s.mgmt.locked ∧
    (s.itemSelectTable t c o).state.mgmt.latched = s.mgmt.latched ∧
    (s.itemSelectTable t c o).state.mgmt.frame = s.mgmt.frame := by
  unfold State.itemSelectTable; try unfold State.onFurnace
  try dsimp only
  (repeat' split) <;> simp

@[simp] theorem State.itemTableData_frame (b : List Byte) :
    (s.itemTableData b).state.pending = s.pending ∧ (s.itemTableData b).state.time = s.time ∧
    (s.itemTableData b).state.pinLow = s.pinLow ∧ (s.itemTableData b).state.loop = s.loop ∧
    (s.itemTableData b).state.intake = s.intake ∧ (s.itemTableData b).state.contacts = s.contacts ∧
    (s.itemTableData b).state.heats = s.heats ∧ (s.itemTableData b).state.power = s.power ∧
    (s.itemTableData b).state.orderClamps = s.orderClamps ∧ (s.itemTableData b).state.holding = s.holding ∧
    (s.itemTableData b).state.circuits = s.circuits ∧ (s.itemTableData b).state.taps = s.taps ∧
    (s.itemTableData b).state.watch = s.watch ∧ (s.itemTableData b).state.mgmt.latch = s.mgmt.latch ∧
    (s.itemTableData b).state.mgmt.validator = s.mgmt.validator ∧
    (s.itemTableData b).state.mgmt.params = s.mgmt.params ∧ (s.itemTableData b).state.mgmt.locked = s.mgmt.locked ∧
    (s.itemTableData b).state.mgmt.latched = s.mgmt.latched ∧ (s.itemTableData b).state.mgmt.frame = s.mgmt.frame := by
  unfold State.itemTableData; try unfold State.onFurnace
  try dsimp only
  (repeat' split) <;> simp

@[simp] theorem State.itemReadTable_frame (n : Byte) :
    (s.itemReadTable n).state.pending = s.pending ∧ (s.itemReadTable n).state.time = s.time ∧
    (s.itemReadTable n).state.pinLow = s.pinLow ∧ (s.itemReadTable n).state.loop = s.loop ∧
    (s.itemReadTable n).state.intake = s.intake ∧ (s.itemReadTable n).state.tables = s.tables ∧
    (s.itemReadTable n).state.contacts = s.contacts ∧ (s.itemReadTable n).state.heats = s.heats ∧
    (s.itemReadTable n).state.power = s.power ∧ (s.itemReadTable n).state.orderClamps = s.orderClamps ∧
    (s.itemReadTable n).state.holding = s.holding ∧ (s.itemReadTable n).state.circuits = s.circuits ∧
    (s.itemReadTable n).state.taps = s.taps ∧ (s.itemReadTable n).state.watch = s.watch ∧
    (s.itemReadTable n).state.mgmt.validator = s.mgmt.validator ∧
    (s.itemReadTable n).state.mgmt.params = s.mgmt.params ∧ (s.itemReadTable n).state.mgmt.locked = s.mgmt.locked ∧
    (s.itemReadTable n).state.mgmt.latched = s.mgmt.latched ∧ (s.itemReadTable n).state.mgmt.frame = s.mgmt.frame := by
  unfold State.itemReadTable State.answer; try dsimp only
  (repeat' split) <;> simp

@[simp] theorem State.itemCommitTable_frame (t : Byte) :
    (s.itemCommitTable t).state.pending = s.pending ∧ (s.itemCommitTable t).state.time = s.time ∧
    (s.itemCommitTable t).state.pinLow = s.pinLow ∧ (s.itemCommitTable t).state.loop = s.loop ∧
    (s.itemCommitTable t).state.intake = s.intake ∧ (s.itemCommitTable t).state.tables = s.tables ∧
    (s.itemCommitTable t).state.contacts = s.contacts ∧ (s.itemCommitTable t).state.heats = s.heats ∧
    (s.itemCommitTable t).state.power = s.power ∧ (s.itemCommitTable t).state.orderClamps = s.orderClamps ∧
    (s.itemCommitTable t).state.holding = s.holding ∧ (s.itemCommitTable t).state.circuits = s.circuits ∧
    (s.itemCommitTable t).state.taps = s.taps ∧ (s.itemCommitTable t).state.watch = s.watch ∧
    (s.itemCommitTable t).state.mgmt.selection = s.mgmt.selection ∧
    (s.itemCommitTable t).state.mgmt.latch = s.mgmt.latch ∧
    (s.itemCommitTable t).state.mgmt.params = s.mgmt.params ∧
    (s.itemCommitTable t).state.mgmt.locked = s.mgmt.locked ∧
    (s.itemCommitTable t).state.mgmt.latched = s.mgmt.latched ∧
    (s.itemCommitTable t).state.mgmt.frame = s.mgmt.frame := by
  unfold State.itemCommitTable; try unfold State.onFurnace
  try dsimp only
  (repeat' split) <;> simp

@[simp] theorem State.itemReloadStaging_frame :
    (s.itemReloadStaging).state.pending = s.pending ∧ (s.itemReloadStaging).state.time = s.time ∧
    (s.itemReloadStaging).state.pinLow = s.pinLow ∧ (s.itemReloadStaging).state.loop = s.loop ∧
    (s.itemReloadStaging).state.intake = s.intake ∧ (s.itemReloadStaging).state.contacts = s.contacts ∧
    (s.itemReloadStaging).state.heats = s.heats ∧ (s.itemReloadStaging).state.power = s.power ∧
    (s.itemReloadStaging).state.orderClamps = s.orderClamps ∧ (s.itemReloadStaging).state.holding = s.holding ∧
    (s.itemReloadStaging).state.circuits = s.circuits ∧ (s.itemReloadStaging).state.taps = s.taps ∧
    (s.itemReloadStaging).state.watch = s.watch ∧ (s.itemReloadStaging).state.mgmt = s.mgmt := by
  unfold State.itemReloadStaging; try unfold State.onFurnace
  try dsimp only
  (repeat' split) <;> simp

@[simp] theorem State.itemSetParameter_frame (n : Byte) (v : BitVec 32) :
    (s.itemSetParameter n v).state.pending = s.pending ∧ (s.itemSetParameter n v).state.time = s.time ∧
    (s.itemSetParameter n v).state.pinLow = s.pinLow ∧ (s.itemSetParameter n v).state.intake = s.intake ∧
    (s.itemSetParameter n v).state.tables = s.tables ∧
    (s.itemSetParameter n v).state.contacts.raw = s.contacts.raw ∧
    (s.itemSetParameter n v).state.contacts.filtered = s.contacts.filtered ∧
    (s.itemSetParameter n v).state.contacts.persistence = s.contacts.persistence ∧
    (s.itemSetParameter n v).state.contacts.ind = s.contacts.ind ∧
    (s.itemSetParameter n v).state.contacts.changePending = s.contacts.changePending ∧
    (s.itemSetParameter n v).state.contacts.overrun = s.contacts.overrun ∧
    (s.itemSetParameter n v).state.contacts.snapshot = s.contacts.snapshot ∧
    (s.itemSetParameter n v).state.contacts.commanded = s.contacts.commanded ∧
    (s.itemSetParameter n v).state.orderClamps = s.orderClamps ∧
    (s.itemSetParameter n v).state.taps.pourTimer = s.taps.pourTimer ∧
    (s.itemSetParameter n v).state.taps.returnTimer = s.taps.returnTimer ∧
    (s.itemSetParameter n v).state.taps.held = s.taps.held ∧
    (s.itemSetParameter n v).state.taps.tilt = s.taps.tilt ∧
    (s.itemSetParameter n v).state.taps.ladle = s.taps.ladle ∧
    (s.itemSetParameter n v).state.taps.malformed = s.taps.malformed ∧
    (s.itemSetParameter n v).state.mgmt.selection = s.mgmt.selection ∧
    (s.itemSetParameter n v).state.mgmt.latch = s.mgmt.latch ∧
    (s.itemSetParameter n v).state.mgmt.validator = s.mgmt.validator ∧
    (s.itemSetParameter n v).state.mgmt.locked = s.mgmt.locked ∧
    (s.itemSetParameter n v).state.mgmt.frame = s.mgmt.frame := by
  unfold State.itemSetParameter; try unfold State.onFurnace
  try dsimp only
  (repeat' split) <;> simp

@[simp] theorem State.itemReadParameter_frame (n : Byte) :
    (s.itemReadParameter n).state.pending = s.pending ∧ (s.itemReadParameter n).state.time = s.time ∧
    (s.itemReadParameter n).state.pinLow = s.pinLow ∧ (s.itemReadParameter n).state.loop = s.loop ∧
    (s.itemReadParameter n).state.intake = s.intake ∧ (s.itemReadParameter n).state.tables = s.tables ∧
    (s.itemReadParameter n).state.contacts = s.contacts ∧ (s.itemReadParameter n).state.heats = s.heats ∧
    (s.itemReadParameter n).state.power = s.power ∧ (s.itemReadParameter n).state.orderClamps = s.orderClamps ∧
    (s.itemReadParameter n).state.holding = s.holding ∧ (s.itemReadParameter n).state.circuits = s.circuits ∧
    (s.itemReadParameter n).state.taps = s.taps ∧ (s.itemReadParameter n).state.watch = s.watch ∧
    (s.itemReadParameter n).state.mgmt = s.mgmt := by
  unfold State.itemReadParameter; try unfold State.onFurnace
  try dsimp only
  (repeat' split) <;> simp

@[simp] theorem State.itemLock_frame :
    (s.itemLock).state.pending = s.pending ∧ (s.itemLock).state.time = s.time ∧
    (s.itemLock).state.pinLow = s.pinLow ∧ (s.itemLock).state.loop = s.loop ∧
    (s.itemLock).state.intake = s.intake ∧ (s.itemLock).state.tables = s.tables ∧
    (s.itemLock).state.contacts = s.contacts ∧ (s.itemLock).state.heats = s.heats ∧
    (s.itemLock).state.power = s.power ∧ (s.itemLock).state.orderClamps = s.orderClamps ∧
    (s.itemLock).state.holding = s.holding ∧ (s.itemLock).state.circuits = s.circuits ∧
    (s.itemLock).state.taps = s.taps ∧ (s.itemLock).state.watch = s.watch ∧
    (s.itemLock).state.mgmt.selection = s.mgmt.selection ∧ (s.itemLock).state.mgmt.latch = s.mgmt.latch ∧
    (s.itemLock).state.mgmt.validator = s.mgmt.validator ∧ (s.itemLock).state.mgmt.params = s.mgmt.params ∧
    (s.itemLock).state.mgmt.latched = s.mgmt.latched ∧ (s.itemLock).state.mgmt.frame = s.mgmt.frame := by
  unfold State.itemLock; try unfold State.onFurnace
  try dsimp only
  (repeat' split) <;> simp

@[simp] theorem State.itemUnlock_frame :
    (s.itemUnlock).state.pending = s.pending ∧ (s.itemUnlock).state.time = s.time ∧
    (s.itemUnlock).state.pinLow = s.pinLow ∧ (s.itemUnlock).state.loop = s.loop ∧
    (s.itemUnlock).state.intake = s.intake ∧ (s.itemUnlock).state.tables = s.tables ∧
    (s.itemUnlock).state.contacts = s.contacts ∧ (s.itemUnlock).state.heats = s.heats ∧
    (s.itemUnlock).state.power = s.power ∧ (s.itemUnlock).state.orderClamps = s.orderClamps ∧
    (s.itemUnlock).state.holding = s.holding ∧ (s.itemUnlock).state.circuits = s.circuits ∧
    (s.itemUnlock).state.taps = s.taps ∧ (s.itemUnlock).state.watch = s.watch ∧
    (s.itemUnlock).state.mgmt.selection = s.mgmt.selection ∧ (s.itemUnlock).state.mgmt.latch = s.mgmt.latch ∧
    (s.itemUnlock).state.mgmt.validator = s.mgmt.validator ∧ (s.itemUnlock).state.mgmt.params = s.mgmt.params ∧
    (s.itemUnlock).state.mgmt.latched = s.mgmt.latched ∧ (s.itemUnlock).state.mgmt.frame = s.mgmt.frame := by
  unfold State.itemUnlock; try unfold State.onFurnace
  try dsimp only
  (repeat' split) <;> simp

@[simp] theorem State.itemOpenHeat_frame (f : Byte) (i : BitVec 32) :
    (s.itemOpenHeat f i).state.pending = s.pending ∧ (s.itemOpenHeat f i).state.time = s.time ∧
    (s.itemOpenHeat f i).state.pinLow = s.pinLow ∧ (s.itemOpenHeat f i).state.intake = s.intake ∧
    (s.itemOpenHeat f i).state.tables = s.tables ∧ (s.itemOpenHeat f i).state.contacts.raw = s.contacts.raw ∧
    (s.itemOpenHeat f i).state.contacts.filtered = s.contacts.filtered ∧
    (s.itemOpenHeat f i).state.contacts.persistence = s.contacts.persistence ∧
    (s.itemOpenHeat f i).state.contacts.ind = s.contacts.ind ∧
    (s.itemOpenHeat f i).state.contacts.changePending = s.contacts.changePending ∧
    (s.itemOpenHeat f i).state.contacts.overrun = s.contacts.overrun ∧
    (s.itemOpenHeat f i).state.contacts.snapshot = s.contacts.snapshot ∧
    (s.itemOpenHeat f i).state.contacts.commanded = s.contacts.commanded ∧
    (s.itemOpenHeat f i).state.contacts.frozen = s.contacts.frozen ∧
    (s.itemOpenHeat f i).state.orderClamps = s.orderClamps ∧
    (s.itemOpenHeat f i).state.taps.pourTimer = s.taps.pourTimer ∧
    (s.itemOpenHeat f i).state.taps.returnTimer = s.taps.returnTimer ∧
    (s.itemOpenHeat f i).state.taps.held = s.taps.held ∧ (s.itemOpenHeat f i).state.taps.tilt = s.taps.tilt ∧
    (s.itemOpenHeat f i).state.taps.ladle = s.taps.ladle ∧ (s.itemOpenHeat f i).state.taps.dipAge = s.taps.dipAge ∧
    (s.itemOpenHeat f i).state.taps.malformed = s.taps.malformed ∧ (s.itemOpenHeat f i).state.watch = s.watch ∧
    (s.itemOpenHeat f i).state.mgmt = s.mgmt := by
  unfold State.itemOpenHeat; try unfold State.onFurnace
  try dsimp only
  (repeat' split) <;> simp

@[simp] theorem State.itemDrain_frame (f : Byte) :
    (s.itemDrain f).state.pending = s.pending ∧ (s.itemDrain f).state.time = s.time ∧
    (s.itemDrain f).state.pinLow = s.pinLow ∧ (s.itemDrain f).state.intake = s.intake ∧
    (s.itemDrain f).state.tables = s.tables ∧ (s.itemDrain f).state.contacts.raw = s.contacts.raw ∧
    (s.itemDrain f).state.contacts.filtered = s.contacts.filtered ∧
    (s.itemDrain f).state.contacts.persistence = s.contacts.persistence ∧
    (s.itemDrain f).state.contacts.ind = s.contacts.ind ∧
    (s.itemDrain f).state.contacts.changePending = s.contacts.changePending ∧
    (s.itemDrain f).state.contacts.overrun = s.contacts.overrun ∧
    (s.itemDrain f).state.contacts.snapshot = s.contacts.snapshot ∧
    (s.itemDrain f).state.contacts.commanded = s.contacts.commanded ∧
    (s.itemDrain f).state.contacts.frozen = s.contacts.frozen ∧ (s.itemDrain f).state.orderClamps = s.orderClamps ∧
    (s.itemDrain f).state.taps.pourTimer = s.taps.pourTimer ∧
    (s.itemDrain f).state.taps.returnTimer = s.taps.returnTimer ∧ (s.itemDrain f).state.taps.held = s.taps.held ∧
    (s.itemDrain f).state.taps.tilt = s.taps.tilt ∧ (s.itemDrain f).state.taps.ladle = s.taps.ladle ∧
    (s.itemDrain f).state.taps.malformed = s.taps.malformed ∧ (s.itemDrain f).state.watch = s.watch ∧
    (s.itemDrain f).state.mgmt = s.mgmt := by
  unfold State.itemDrain; try unfold State.onFurnace
  try dsimp only
  (repeat' split) <;> simp

@[simp] theorem State.itemSetMass_frame (f : Byte) (m : BitVec 32) :
    (s.itemSetMass f m).state.pending = s.pending ∧ (s.itemSetMass f m).state.time = s.time ∧
    (s.itemSetMass f m).state.pinLow = s.pinLow ∧ (s.itemSetMass f m).state.intake = s.intake ∧
    (s.itemSetMass f m).state.tables = s.tables ∧ (s.itemSetMass f m).state.contacts.raw = s.contacts.raw ∧
    (s.itemSetMass f m).state.contacts.filtered = s.contacts.filtered ∧
    (s.itemSetMass f m).state.contacts.persistence = s.contacts.persistence ∧
    (s.itemSetMass f m).state.contacts.ind = s.contacts.ind ∧
    (s.itemSetMass f m).state.contacts.changePending = s.contacts.changePending ∧
    (s.itemSetMass f m).state.contacts.overrun = s.contacts.overrun ∧
    (s.itemSetMass f m).state.contacts.snapshot = s.contacts.snapshot ∧
    (s.itemSetMass f m).state.contacts.commanded = s.contacts.commanded ∧
    (s.itemSetMass f m).state.contacts.frozen = s.contacts.frozen ∧
    (s.itemSetMass f m).state.orderClamps = s.orderClamps ∧
    (s.itemSetMass f m).state.taps.pourTimer = s.taps.pourTimer ∧
    (s.itemSetMass f m).state.taps.returnTimer = s.taps.returnTimer ∧
    (s.itemSetMass f m).state.taps.held = s.taps.held ∧ (s.itemSetMass f m).state.taps.tilt = s.taps.tilt ∧
    (s.itemSetMass f m).state.taps.ladle = s.taps.ladle ∧ (s.itemSetMass f m).state.taps.dipAge = s.taps.dipAge ∧
    (s.itemSetMass f m).state.taps.malformed = s.taps.malformed ∧ (s.itemSetMass f m).state.watch = s.watch ∧
    (s.itemSetMass f m).state.mgmt = s.mgmt := by
  unfold State.itemSetMass; try unfold State.onFurnace
  try dsimp only
  (repeat' split) <;> simp

@[simp] theorem State.itemSetBand_frame (f : Byte) (a b c d : BitVec 16) :
    (s.itemSetBand f a b c d).state.pending = s.pending ∧ (s.itemSetBand f a b c d).state.time = s.time ∧
    (s.itemSetBand f a b c d).state.pinLow = s.pinLow ∧ (s.itemSetBand f a b c d).state.intake = s.intake ∧
    (s.itemSetBand f a b c d).state.tables = s.tables ∧
    (s.itemSetBand f a b c d).state.contacts.raw = s.contacts.raw ∧
    (s.itemSetBand f a b c d).state.contacts.filtered = s.contacts.filtered ∧
    (s.itemSetBand f a b c d).state.contacts.persistence = s.contacts.persistence ∧
    (s.itemSetBand f a b c d).state.contacts.ind = s.contacts.ind ∧
    (s.itemSetBand f a b c d).state.contacts.changePending = s.contacts.changePending ∧
    (s.itemSetBand f a b c d).state.contacts.overrun = s.contacts.overrun ∧
    (s.itemSetBand f a b c d).state.contacts.snapshot = s.contacts.snapshot ∧
    (s.itemSetBand f a b c d).state.contacts.commanded = s.contacts.commanded ∧
    (s.itemSetBand f a b c d).state.contacts.frozen = s.contacts.frozen ∧
    (s.itemSetBand f a b c d).state.orderClamps = s.orderClamps ∧
    (s.itemSetBand f a b c d).state.taps.pourTimer = s.taps.pourTimer ∧
    (s.itemSetBand f a b c d).state.taps.returnTimer = s.taps.returnTimer ∧
    (s.itemSetBand f a b c d).state.taps.held = s.taps.held ∧
    (s.itemSetBand f a b c d).state.taps.tilt = s.taps.tilt ∧
    (s.itemSetBand f a b c d).state.taps.ladle = s.taps.ladle ∧
    (s.itemSetBand f a b c d).state.taps.dipAge = s.taps.dipAge ∧
    (s.itemSetBand f a b c d).state.taps.malformed = s.taps.malformed ∧
    (s.itemSetBand f a b c d).state.watch = s.watch ∧ (s.itemSetBand f a b c d).state.mgmt = s.mgmt := by
  unfold State.itemSetBand; try unfold State.onFurnace
  try dsimp only
  (repeat' split) <;> simp

@[simp] theorem State.itemApprove_frame (f : Byte) (i : BitVec 32) (m : Byte) :
    (s.itemApprove f i m).state.pending = s.pending ∧ (s.itemApprove f i m).state.time = s.time ∧
    (s.itemApprove f i m).state.pinLow = s.pinLow ∧ (s.itemApprove f i m).state.intake = s.intake ∧
    (s.itemApprove f i m).state.tables = s.tables ∧ (s.itemApprove f i m).state.contacts.raw = s.contacts.raw ∧
    (s.itemApprove f i m).state.contacts.filtered = s.contacts.filtered ∧
    (s.itemApprove f i m).state.contacts.persistence = s.contacts.persistence ∧
    (s.itemApprove f i m).state.contacts.ind = s.contacts.ind ∧
    (s.itemApprove f i m).state.contacts.changePending = s.contacts.changePending ∧
    (s.itemApprove f i m).state.contacts.overrun = s.contacts.overrun ∧
    (s.itemApprove f i m).state.contacts.snapshot = s.contacts.snapshot ∧
    (s.itemApprove f i m).state.contacts.commanded = s.contacts.commanded ∧
    (s.itemApprove f i m).state.contacts.frozen = s.contacts.frozen ∧
    (s.itemApprove f i m).state.orderClamps = s.orderClamps ∧
    (s.itemApprove f i m).state.taps.pourTimer = s.taps.pourTimer ∧
    (s.itemApprove f i m).state.taps.returnTimer = s.taps.returnTimer ∧
    (s.itemApprove f i m).state.taps.held = s.taps.held ∧ (s.itemApprove f i m).state.taps.tilt = s.taps.tilt ∧
    (s.itemApprove f i m).state.taps.ladle = s.taps.ladle ∧
    (s.itemApprove f i m).state.taps.dipAge = s.taps.dipAge ∧
    (s.itemApprove f i m).state.taps.malformed = s.taps.malformed ∧ (s.itemApprove f i m).state.watch = s.watch ∧
    (s.itemApprove f i m).state.mgmt = s.mgmt := by
  unfold State.itemApprove; try unfold State.onFurnace
  try dsimp only
  (repeat' split) <;> simp

@[simp] theorem State.itemRevoke_frame (f : Byte) :
    (s.itemRevoke f).state.pending = s.pending ∧ (s.itemRevoke f).state.time = s.time ∧
    (s.itemRevoke f).state.pinLow = s.pinLow ∧ (s.itemRevoke f).state.intake = s.intake ∧
    (s.itemRevoke f).state.tables = s.tables ∧ (s.itemRevoke f).state.contacts.raw = s.contacts.raw ∧
    (s.itemRevoke f).state.contacts.filtered = s.contacts.filtered ∧
    (s.itemRevoke f).state.contacts.persistence = s.contacts.persistence ∧
    (s.itemRevoke f).state.contacts.ind = s.contacts.ind ∧
    (s.itemRevoke f).state.contacts.changePending = s.contacts.changePending ∧
    (s.itemRevoke f).state.contacts.overrun = s.contacts.overrun ∧
    (s.itemRevoke f).state.contacts.snapshot = s.contacts.snapshot ∧
    (s.itemRevoke f).state.contacts.commanded = s.contacts.commanded ∧
    (s.itemRevoke f).state.contacts.frozen = s.contacts.frozen ∧
    (s.itemRevoke f).state.orderClamps = s.orderClamps ∧ (s.itemRevoke f).state.taps.pourTimer = s.taps.pourTimer ∧
    (s.itemRevoke f).state.taps.returnTimer = s.taps.returnTimer ∧ (s.itemRevoke f).state.taps.held = s.taps.held ∧
    (s.itemRevoke f).state.taps.tilt = s.taps.tilt ∧ (s.itemRevoke f).state.taps.ladle = s.taps.ladle ∧
    (s.itemRevoke f).state.taps.dipAge = s.taps.dipAge ∧ (s.itemRevoke f).state.taps.malformed = s.taps.malformed ∧
    (s.itemRevoke f).state.watch = s.watch ∧ (s.itemRevoke f).state.mgmt = s.mgmt := by
  unfold State.itemRevoke; try unfold State.onFurnace
  try dsimp only
  (repeat' split) <;> simp

@[simp] theorem State.itemResetFurnace_frame (f : Byte) :
    (s.itemResetFurnace f).state.pending = s.pending ∧ (s.itemResetFurnace f).state.time = s.time ∧
    (s.itemResetFurnace f).state.pinLow = s.pinLow ∧ (s.itemResetFurnace f).state.intake = s.intake ∧
    (s.itemResetFurnace f).state.tables = s.tables ∧ (s.itemResetFurnace f).state.contacts.raw = s.contacts.raw ∧
    (s.itemResetFurnace f).state.contacts.filtered = s.contacts.filtered ∧
    (s.itemResetFurnace f).state.contacts.persistence = s.contacts.persistence ∧
    (s.itemResetFurnace f).state.contacts.ind = s.contacts.ind ∧
    (s.itemResetFurnace f).state.contacts.changePending = s.contacts.changePending ∧
    (s.itemResetFurnace f).state.contacts.overrun = s.contacts.overrun ∧
    (s.itemResetFurnace f).state.contacts.snapshot = s.contacts.snapshot ∧
    (s.itemResetFurnace f).state.contacts.commanded = s.contacts.commanded ∧
    (s.itemResetFurnace f).state.contacts.frozen = s.contacts.frozen ∧
    (s.itemResetFurnace f).state.orderClamps = s.orderClamps ∧
    (s.itemResetFurnace f).state.taps.pourTimer = s.taps.pourTimer ∧
    (s.itemResetFurnace f).state.taps.returnTimer = s.taps.returnTimer ∧
    (s.itemResetFurnace f).state.taps.held = s.taps.held ∧ (s.itemResetFurnace f).state.taps.tilt = s.taps.tilt ∧
    (s.itemResetFurnace f).state.taps.ladle = s.taps.ladle ∧
    (s.itemResetFurnace f).state.taps.dipAge = s.taps.dipAge ∧
    (s.itemResetFurnace f).state.taps.malformed = s.taps.malformed ∧ (s.itemResetFurnace f).state.watch = s.watch ∧
    (s.itemResetFurnace f).state.mgmt.selection = s.mgmt.selection ∧
    (s.itemResetFurnace f).state.mgmt.latch = s.mgmt.latch ∧
    (s.itemResetFurnace f).state.mgmt.validator = s.mgmt.validator ∧
    (s.itemResetFurnace f).state.mgmt.params = s.mgmt.params ∧
    (s.itemResetFurnace f).state.mgmt.locked = s.mgmt.locked ∧
    (s.itemResetFurnace f).state.mgmt.frame = s.mgmt.frame := by
  unfold State.itemResetFurnace; try unfold State.onFurnace
  try dsimp only
  (repeat' split) <;> simp

@[simp] theorem State.itemResetCircuit_frame (c : Byte) :
    (s.itemResetCircuit c).state.pending = s.pending ∧ (s.itemResetCircuit c).state.time = s.time ∧
    (s.itemResetCircuit c).state.pinLow = s.pinLow ∧ (s.itemResetCircuit c).state.intake = s.intake ∧
    (s.itemResetCircuit c).state.tables = s.tables ∧ (s.itemResetCircuit c).state.contacts.raw = s.contacts.raw ∧
    (s.itemResetCircuit c).state.contacts.filtered = s.contacts.filtered ∧
    (s.itemResetCircuit c).state.contacts.persistence = s.contacts.persistence ∧
    (s.itemResetCircuit c).state.contacts.ind = s.contacts.ind ∧
    (s.itemResetCircuit c).state.contacts.changePending = s.contacts.changePending ∧
    (s.itemResetCircuit c).state.contacts.overrun = s.contacts.overrun ∧
    (s.itemResetCircuit c).state.contacts.snapshot = s.contacts.snapshot ∧
    (s.itemResetCircuit c).state.contacts.commanded = s.contacts.commanded ∧
    (s.itemResetCircuit c).state.contacts.frozen = s.contacts.frozen ∧
    (s.itemResetCircuit c).state.orderClamps = s.orderClamps ∧
    (s.itemResetCircuit c).state.taps.pourTimer = s.taps.pourTimer ∧
    (s.itemResetCircuit c).state.taps.returnTimer = s.taps.returnTimer ∧
    (s.itemResetCircuit c).state.taps.held = s.taps.held ∧ (s.itemResetCircuit c).state.taps.tilt = s.taps.tilt ∧
    (s.itemResetCircuit c).state.taps.ladle = s.taps.ladle ∧
    (s.itemResetCircuit c).state.taps.dipAge = s.taps.dipAge ∧
    (s.itemResetCircuit c).state.taps.malformed = s.taps.malformed ∧ (s.itemResetCircuit c).state.watch = s.watch ∧
    (s.itemResetCircuit c).state.mgmt.selection = s.mgmt.selection ∧
    (s.itemResetCircuit c).state.mgmt.latch = s.mgmt.latch ∧
    (s.itemResetCircuit c).state.mgmt.validator = s.mgmt.validator ∧
    (s.itemResetCircuit c).state.mgmt.params = s.mgmt.params ∧
    (s.itemResetCircuit c).state.mgmt.locked = s.mgmt.locked ∧
    (s.itemResetCircuit c).state.mgmt.frame = s.mgmt.frame := by
  unfold State.itemResetCircuit; try unfold State.onFurnace
  try dsimp only
  (repeat' split) <;> simp

@[simp] theorem State.itemWdStart_frame :
    (s.itemWdStart).state.pending = s.pending ∧ (s.itemWdStart).state.time = s.time ∧
    (s.itemWdStart).state.pinLow = s.pinLow ∧ (s.itemWdStart).state.intake = s.intake ∧
    (s.itemWdStart).state.tables = s.tables ∧ (s.itemWdStart).state.contacts.raw = s.contacts.raw ∧
    (s.itemWdStart).state.contacts.filtered = s.contacts.filtered ∧
    (s.itemWdStart).state.contacts.persistence = s.contacts.persistence ∧
    (s.itemWdStart).state.contacts.ind = s.contacts.ind ∧
    (s.itemWdStart).state.contacts.changePending = s.contacts.changePending ∧
    (s.itemWdStart).state.contacts.overrun = s.contacts.overrun ∧
    (s.itemWdStart).state.contacts.snapshot = s.contacts.snapshot ∧
    (s.itemWdStart).state.contacts.commanded = s.contacts.commanded ∧
    (s.itemWdStart).state.contacts.frozen = s.contacts.frozen ∧ (s.itemWdStart).state.orderClamps = s.orderClamps ∧
    (s.itemWdStart).state.taps.pourTimer = s.taps.pourTimer ∧
    (s.itemWdStart).state.taps.returnTimer = s.taps.returnTimer ∧ (s.itemWdStart).state.taps.held = s.taps.held ∧
    (s.itemWdStart).state.taps.tilt = s.taps.tilt ∧ (s.itemWdStart).state.taps.ladle = s.taps.ladle ∧
    (s.itemWdStart).state.taps.dipAge = s.taps.dipAge ∧ (s.itemWdStart).state.taps.malformed = s.taps.malformed ∧
    (s.itemWdStart).state.mgmt = s.mgmt := by
  unfold State.itemWdStart; try unfold State.onFurnace
  try dsimp only
  (repeat' split) <;> simp

@[simp] theorem State.itemHeartbeat_frame (t : BitVec 16) :
    (s.itemHeartbeat t).state.pending = s.pending ∧ (s.itemHeartbeat t).state.time = s.time ∧
    (s.itemHeartbeat t).state.pinLow = s.pinLow ∧ (s.itemHeartbeat t).state.intake = s.intake ∧
    (s.itemHeartbeat t).state.tables = s.tables ∧ (s.itemHeartbeat t).state.contacts.raw = s.contacts.raw ∧
    (s.itemHeartbeat t).state.contacts.filtered = s.contacts.filtered ∧
    (s.itemHeartbeat t).state.contacts.persistence = s.contacts.persistence ∧
    (s.itemHeartbeat t).state.contacts.ind = s.contacts.ind ∧
    (s.itemHeartbeat t).state.contacts.changePending = s.contacts.changePending ∧
    (s.itemHeartbeat t).state.contacts.overrun = s.contacts.overrun ∧
    (s.itemHeartbeat t).state.contacts.snapshot = s.contacts.snapshot ∧
    (s.itemHeartbeat t).state.contacts.commanded = s.contacts.commanded ∧
    (s.itemHeartbeat t).state.orderClamps = s.orderClamps ∧
    (s.itemHeartbeat t).state.taps.pourTimer = s.taps.pourTimer ∧
    (s.itemHeartbeat t).state.taps.returnTimer = s.taps.returnTimer ∧
    (s.itemHeartbeat t).state.taps.held = s.taps.held ∧ (s.itemHeartbeat t).state.taps.tilt = s.taps.tilt ∧
    (s.itemHeartbeat t).state.taps.ladle = s.taps.ladle ∧ (s.itemHeartbeat t).state.taps.dipAge = s.taps.dipAge ∧
    (s.itemHeartbeat t).state.taps.malformed = s.taps.malformed ∧
    (s.itemHeartbeat t).state.mgmt.selection = s.mgmt.selection ∧
    (s.itemHeartbeat t).state.mgmt.latch = s.mgmt.latch ∧
    (s.itemHeartbeat t).state.mgmt.validator = s.mgmt.validator ∧
    (s.itemHeartbeat t).state.mgmt.params = s.mgmt.params ∧ (s.itemHeartbeat t).state.mgmt.locked = s.mgmt.locked ∧
    (s.itemHeartbeat t).state.mgmt.frame = s.mgmt.frame := by
  unfold State.itemHeartbeat; try unfold State.onFurnace
  try dsimp only
  (repeat' split) <;> simp

@[simp] theorem State.itemWdPause_frame :
    (s.itemWdPause).state.pending = s.pending ∧ (s.itemWdPause).state.time = s.time ∧
    (s.itemWdPause).state.pinLow = s.pinLow ∧ (s.itemWdPause).state.intake = s.intake ∧
    (s.itemWdPause).state.tables = s.tables ∧ (s.itemWdPause).state.contacts.raw = s.contacts.raw ∧
    (s.itemWdPause).state.contacts.filtered = s.contacts.filtered ∧
    (s.itemWdPause).state.contacts.persistence = s.contacts.persistence ∧
    (s.itemWdPause).state.contacts.ind = s.contacts.ind ∧
    (s.itemWdPause).state.contacts.changePending = s.contacts.changePending ∧
    (s.itemWdPause).state.contacts.overrun = s.contacts.overrun ∧
    (s.itemWdPause).state.contacts.snapshot = s.contacts.snapshot ∧
    (s.itemWdPause).state.contacts.commanded = s.contacts.commanded ∧
    (s.itemWdPause).state.contacts.frozen = s.contacts.frozen ∧ (s.itemWdPause).state.orderClamps = s.orderClamps ∧
    (s.itemWdPause).state.taps.pourTimer = s.taps.pourTimer ∧
    (s.itemWdPause).state.taps.returnTimer = s.taps.returnTimer ∧ (s.itemWdPause).state.taps.held = s.taps.held ∧
    (s.itemWdPause).state.taps.tilt = s.taps.tilt ∧ (s.itemWdPause).state.taps.ladle = s.taps.ladle ∧
    (s.itemWdPause).state.taps.dipAge = s.taps.dipAge ∧ (s.itemWdPause).state.taps.malformed = s.taps.malformed ∧
    (s.itemWdPause).state.mgmt = s.mgmt := by
  unfold State.itemWdPause; try unfold State.onFurnace
  try dsimp only
  (repeat' split) <;> simp

@[simp] theorem State.itemWdForce_frame :
    (s.itemWdForce).state.pending = s.pending ∧ (s.itemWdForce).state.time = s.time ∧
    (s.itemWdForce).state.pinLow = s.pinLow ∧ (s.itemWdForce).state.intake = s.intake ∧
    (s.itemWdForce).state.tables = s.tables ∧ (s.itemWdForce).state.contacts.raw = s.contacts.raw ∧
    (s.itemWdForce).state.contacts.filtered = s.contacts.filtered ∧
    (s.itemWdForce).state.contacts.persistence = s.contacts.persistence ∧
    (s.itemWdForce).state.contacts.ind = s.contacts.ind ∧
    (s.itemWdForce).state.contacts.changePending = s.contacts.changePending ∧
    (s.itemWdForce).state.contacts.overrun = s.contacts.overrun ∧
    (s.itemWdForce).state.contacts.snapshot = s.contacts.snapshot ∧
    (s.itemWdForce).state.contacts.commanded = s.contacts.commanded ∧
    (s.itemWdForce).state.orderClamps = s.orderClamps ∧ (s.itemWdForce).state.taps.pourTimer = s.taps.pourTimer ∧
    (s.itemWdForce).state.taps.returnTimer = s.taps.returnTimer ∧ (s.itemWdForce).state.taps.held = s.taps.held ∧
    (s.itemWdForce).state.taps.tilt = s.taps.tilt ∧ (s.itemWdForce).state.taps.ladle = s.taps.ladle ∧
    (s.itemWdForce).state.taps.dipAge = s.taps.dipAge ∧ (s.itemWdForce).state.taps.malformed = s.taps.malformed ∧
    (s.itemWdForce).state.mgmt.selection = s.mgmt.selection ∧ (s.itemWdForce).state.mgmt.latch = s.mgmt.latch ∧
    (s.itemWdForce).state.mgmt.validator = s.mgmt.validator ∧ (s.itemWdForce).state.mgmt.params = s.mgmt.params ∧
    (s.itemWdForce).state.mgmt.locked = s.mgmt.locked ∧ (s.itemWdForce).state.mgmt.frame = s.mgmt.frame := by
  unfold State.itemWdForce; try unfold State.onFurnace
  try dsimp only
  (repeat' split) <;> simp

@[simp] theorem State.itemWdRestart_frame :
    (s.itemWdRestart).state.pending = s.pending ∧ (s.itemWdRestart).state.time = s.time ∧
    (s.itemWdRestart).state.pinLow = s.pinLow ∧ (s.itemWdRestart).state.intake = s.intake ∧
    (s.itemWdRestart).state.tables = s.tables ∧ (s.itemWdRestart).state.contacts.raw = s.contacts.raw ∧
    (s.itemWdRestart).state.contacts.filtered = s.contacts.filtered ∧
    (s.itemWdRestart).state.contacts.persistence = s.contacts.persistence ∧
    (s.itemWdRestart).state.contacts.ind = s.contacts.ind ∧
    (s.itemWdRestart).state.contacts.changePending = s.contacts.changePending ∧
    (s.itemWdRestart).state.contacts.overrun = s.contacts.overrun ∧
    (s.itemWdRestart).state.contacts.snapshot = s.contacts.snapshot ∧
    (s.itemWdRestart).state.contacts.commanded = s.contacts.commanded ∧
    (s.itemWdRestart).state.contacts.frozen = s.contacts.frozen ∧
    (s.itemWdRestart).state.orderClamps = s.orderClamps ∧
    (s.itemWdRestart).state.taps.pourTimer = s.taps.pourTimer ∧
    (s.itemWdRestart).state.taps.returnTimer = s.taps.returnTimer ∧
    (s.itemWdRestart).state.taps.held = s.taps.held ∧ (s.itemWdRestart).state.taps.tilt = s.taps.tilt ∧
    (s.itemWdRestart).state.taps.ladle = s.taps.ladle ∧ (s.itemWdRestart).state.taps.dipAge = s.taps.dipAge ∧
    (s.itemWdRestart).state.taps.malformed = s.taps.malformed ∧
    (s.itemWdRestart).state.mgmt.selection = s.mgmt.selection ∧ (s.itemWdRestart).state.mgmt.latch = s.mgmt.latch ∧
    (s.itemWdRestart).state.mgmt.validator = s.mgmt.validator ∧
    (s.itemWdRestart).state.mgmt.params = s.mgmt.params ∧ (s.itemWdRestart).state.mgmt.locked = s.mgmt.locked ∧
    (s.itemWdRestart).state.mgmt.frame = s.mgmt.frame := by
  unfold State.itemWdRestart; try unfold State.onFurnace
  try dsimp only
  (repeat' split) <;> simp

@[simp] theorem State.itemAllStop_frame (b : Bool) (n : Byte) :
    (s.itemAllStop b n).state.pending = s.pending ∧ (s.itemAllStop b n).state.time = s.time ∧
    (s.itemAllStop b n).state.pinLow = s.pinLow ∧ (s.itemAllStop b n).state.intake = s.intake ∧
    (s.itemAllStop b n).state.tables = s.tables ∧ (s.itemAllStop b n).state.contacts.raw = s.contacts.raw ∧
    (s.itemAllStop b n).state.contacts.filtered = s.contacts.filtered ∧
    (s.itemAllStop b n).state.contacts.persistence = s.contacts.persistence ∧
    (s.itemAllStop b n).state.contacts.ind = s.contacts.ind ∧
    (s.itemAllStop b n).state.contacts.changePending = s.contacts.changePending ∧
    (s.itemAllStop b n).state.contacts.overrun = s.contacts.overrun ∧
    (s.itemAllStop b n).state.contacts.snapshot = s.contacts.snapshot ∧
    (s.itemAllStop b n).state.contacts.commanded = s.contacts.commanded ∧
    (s.itemAllStop b n).state.contacts.frozen = s.contacts.frozen ∧
    (s.itemAllStop b n).state.orderClamps = s.orderClamps ∧ (s.itemAllStop b n).state.taps.held = s.taps.held ∧
    (s.itemAllStop b n).state.taps.tilt = s.taps.tilt ∧ (s.itemAllStop b n).state.taps.ladle = s.taps.ladle ∧
    (s.itemAllStop b n).state.taps.malformed = s.taps.malformed ∧
    (s.itemAllStop b n).state.mgmt.selection = s.mgmt.selection ∧
    (s.itemAllStop b n).state.mgmt.latch = s.mgmt.latch ∧
    (s.itemAllStop b n).state.mgmt.validator = s.mgmt.validator ∧
    (s.itemAllStop b n).state.mgmt.params = s.mgmt.params ∧ (s.itemAllStop b n).state.mgmt.locked = s.mgmt.locked ∧
    (s.itemAllStop b n).state.mgmt.frame = s.mgmt.frame := by
  unfold State.itemAllStop; try unfold State.onFurnace
  try dsimp only
  (repeat' split) <;> simp

@[simp] theorem State.itemResume_frame :
    (s.itemResume).state.pending = s.pending ∧ (s.itemResume).state.time = s.time ∧
    (s.itemResume).state.pinLow = s.pinLow ∧ (s.itemResume).state.intake = s.intake ∧
    (s.itemResume).state.tables = s.tables ∧ (s.itemResume).state.contacts.raw = s.contacts.raw ∧
    (s.itemResume).state.contacts.filtered = s.contacts.filtered ∧
    (s.itemResume).state.contacts.persistence = s.contacts.persistence ∧
    (s.itemResume).state.contacts.ind = s.contacts.ind ∧
    (s.itemResume).state.contacts.changePending = s.contacts.changePending ∧
    (s.itemResume).state.contacts.overrun = s.contacts.overrun ∧
    (s.itemResume).state.contacts.snapshot = s.contacts.snapshot ∧
    (s.itemResume).state.contacts.commanded = s.contacts.commanded ∧
    (s.itemResume).state.contacts.frozen = s.contacts.frozen ∧ (s.itemResume).state.orderClamps = s.orderClamps ∧
    (s.itemResume).state.taps.pourTimer = s.taps.pourTimer ∧
    (s.itemResume).state.taps.returnTimer = s.taps.returnTimer ∧ (s.itemResume).state.taps.held = s.taps.held ∧
    (s.itemResume).state.taps.tilt = s.taps.tilt ∧ (s.itemResume).state.taps.ladle = s.taps.ladle ∧
    (s.itemResume).state.taps.dipAge = s.taps.dipAge ∧ (s.itemResume).state.taps.malformed = s.taps.malformed ∧
    (s.itemResume).state.mgmt.selection = s.mgmt.selection ∧ (s.itemResume).state.mgmt.latch = s.mgmt.latch ∧
    (s.itemResume).state.mgmt.validator = s.mgmt.validator ∧ (s.itemResume).state.mgmt.params = s.mgmt.params ∧
    (s.itemResume).state.mgmt.locked = s.mgmt.locked ∧ (s.itemResume).state.mgmt.frame = s.mgmt.frame := by
  unfold State.itemResume; try unfold State.onFurnace
  try dsimp only
  (repeat' split) <;> simp

@[simp] theorem State.itemHoldTaps_frame :
    (s.itemHoldTaps).state.pending = s.pending ∧ (s.itemHoldTaps).state.time = s.time ∧
    (s.itemHoldTaps).state.pinLow = s.pinLow ∧ (s.itemHoldTaps).state.loop = s.loop ∧
    (s.itemHoldTaps).state.intake = s.intake ∧ (s.itemHoldTaps).state.tables = s.tables ∧
    (s.itemHoldTaps).state.contacts = s.contacts ∧ (s.itemHoldTaps).state.heats = s.heats ∧
    (s.itemHoldTaps).state.power = s.power ∧ (s.itemHoldTaps).state.orderClamps = s.orderClamps ∧
    (s.itemHoldTaps).state.holding = s.holding ∧ (s.itemHoldTaps).state.circuits = s.circuits ∧
    (s.itemHoldTaps).state.taps.ready = s.taps.ready ∧ (s.itemHoldTaps).state.taps.queue = s.taps.queue ∧
    (s.itemHoldTaps).state.taps.station = s.taps.station ∧ (s.itemHoldTaps).state.taps.pour = s.taps.pour ∧
    (s.itemHoldTaps).state.taps.tiltStart = s.taps.tiltStart ∧
    (s.itemHoldTaps).state.taps.pourTimer = s.taps.pourTimer ∧
    (s.itemHoldTaps).state.taps.returnTimer = s.taps.returnTimer ∧ (s.itemHoldTaps).state.taps.tilt = s.taps.tilt ∧
    (s.itemHoldTaps).state.taps.ladle = s.taps.ladle ∧ (s.itemHoldTaps).state.taps.dipAge = s.taps.dipAge ∧
    (s.itemHoldTaps).state.taps.malformed = s.taps.malformed ∧ (s.itemHoldTaps).state.watch = s.watch ∧
    (s.itemHoldTaps).state.mgmt = s.mgmt := by
  unfold State.itemHoldTaps; try unfold State.onFurnace
  try dsimp only
  (repeat' split) <;> simp

@[simp] theorem State.itemReleaseTaps_frame :
    (s.itemReleaseTaps).state.pending = s.pending ∧ (s.itemReleaseTaps).state.time = s.time ∧
    (s.itemReleaseTaps).state.pinLow = s.pinLow ∧ (s.itemReleaseTaps).state.intake = s.intake ∧
    (s.itemReleaseTaps).state.tables = s.tables ∧ (s.itemReleaseTaps).state.contacts.raw = s.contacts.raw ∧
    (s.itemReleaseTaps).state.contacts.filtered = s.contacts.filtered ∧
    (s.itemReleaseTaps).state.contacts.persistence = s.contacts.persistence ∧
    (s.itemReleaseTaps).state.contacts.ind = s.contacts.ind ∧
    (s.itemReleaseTaps).state.contacts.changePending = s.contacts.changePending ∧
    (s.itemReleaseTaps).state.contacts.overrun = s.contacts.overrun ∧
    (s.itemReleaseTaps).state.contacts.snapshot = s.contacts.snapshot ∧
    (s.itemReleaseTaps).state.contacts.commanded = s.contacts.commanded ∧
    (s.itemReleaseTaps).state.contacts.frozen = s.contacts.frozen ∧
    (s.itemReleaseTaps).state.orderClamps = s.orderClamps ∧
    (s.itemReleaseTaps).state.taps.pourTimer = s.taps.pourTimer ∧
    (s.itemReleaseTaps).state.taps.returnTimer = s.taps.returnTimer ∧
    (s.itemReleaseTaps).state.taps.tilt = s.taps.tilt ∧ (s.itemReleaseTaps).state.taps.ladle = s.taps.ladle ∧
    (s.itemReleaseTaps).state.taps.dipAge = s.taps.dipAge ∧
    (s.itemReleaseTaps).state.taps.malformed = s.taps.malformed ∧ (s.itemReleaseTaps).state.watch = s.watch ∧
    (s.itemReleaseTaps).state.mgmt = s.mgmt := by
  unfold State.itemReleaseTaps; try unfold State.onFurnace
  try dsimp only
  (repeat' split) <;> simp

@[simp] theorem State.itemAckChange_frame :
    (s.itemAckChange).state.pending = s.pending ∧ (s.itemAckChange).state.time = s.time ∧
    (s.itemAckChange).state.pinLow = s.pinLow ∧ (s.itemAckChange).state.loop = s.loop ∧
    (s.itemAckChange).state.intake = s.intake ∧ (s.itemAckChange).state.tables = s.tables ∧
    (s.itemAckChange).state.contacts.raw = s.contacts.raw ∧
    (s.itemAckChange).state.contacts.filtered = s.contacts.filtered ∧
    (s.itemAckChange).state.contacts.persistence = s.contacts.persistence ∧
    (s.itemAckChange).state.contacts.ind = s.contacts.ind ∧
    (s.itemAckChange).state.contacts.snapshot = s.contacts.snapshot ∧
    (s.itemAckChange).state.contacts.driven = s.contacts.driven ∧
    (s.itemAckChange).state.contacts.commanded = s.contacts.commanded ∧
    (s.itemAckChange).state.contacts.frozen = s.contacts.frozen ∧ (s.itemAckChange).state.heats = s.heats ∧
    (s.itemAckChange).state.power = s.power ∧ (s.itemAckChange).state.orderClamps = s.orderClamps ∧
    (s.itemAckChange).state.holding = s.holding ∧ (s.itemAckChange).state.circuits = s.circuits ∧
    (s.itemAckChange).state.taps = s.taps ∧ (s.itemAckChange).state.watch = s.watch ∧
    (s.itemAckChange).state.mgmt.selection = s.mgmt.selection ∧ (s.itemAckChange).state.mgmt.latch = s.mgmt.latch ∧
    (s.itemAckChange).state.mgmt.validator = s.mgmt.validator ∧
    (s.itemAckChange).state.mgmt.params = s.mgmt.params ∧ (s.itemAckChange).state.mgmt.locked = s.mgmt.locked ∧
    (s.itemAckChange).state.mgmt.frame = s.mgmt.frame := by
  unfold State.itemAckChange State.answer; try dsimp only
  (repeat' split) <;> simp

@[simp] theorem State.itemSetOutput_frame (o l : Byte) :
    (s.itemSetOutput o l).state.pending = s.pending ∧ (s.itemSetOutput o l).state.time = s.time ∧
    (s.itemSetOutput o l).state.pinLow = s.pinLow ∧ (s.itemSetOutput o l).state.loop = s.loop ∧
    (s.itemSetOutput o l).state.intake = s.intake ∧ (s.itemSetOutput o l).state.tables = s.tables ∧
    (s.itemSetOutput o l).state.contacts.raw = s.contacts.raw ∧
    (s.itemSetOutput o l).state.contacts.filtered = s.contacts.filtered ∧
    (s.itemSetOutput o l).state.contacts.persistence = s.contacts.persistence ∧
    (s.itemSetOutput o l).state.contacts.ind = s.contacts.ind ∧
    (s.itemSetOutput o l).state.contacts.changePending = s.contacts.changePending ∧
    (s.itemSetOutput o l).state.contacts.overrun = s.contacts.overrun ∧
    (s.itemSetOutput o l).state.contacts.snapshot = s.contacts.snapshot ∧
    (s.itemSetOutput o l).state.contacts.frozen = s.contacts.frozen ∧ (s.itemSetOutput o l).state.heats = s.heats ∧
    (s.itemSetOutput o l).state.power = s.power ∧ (s.itemSetOutput o l).state.orderClamps = s.orderClamps ∧
    (s.itemSetOutput o l).state.holding = s.holding ∧ (s.itemSetOutput o l).state.circuits = s.circuits ∧
    (s.itemSetOutput o l).state.taps = s.taps ∧ (s.itemSetOutput o l).state.watch = s.watch ∧
    (s.itemSetOutput o l).state.mgmt = s.mgmt := by
  unfold State.itemSetOutput; try unfold State.onFurnace
  try dsimp only
  (repeat' split) <;> simp

@[simp] theorem State.itemClearCondition_frame (k n : Byte) :
    (s.itemClearCondition k n).state.pending = s.pending ∧ (s.itemClearCondition k n).state.time = s.time ∧
    (s.itemClearCondition k n).state.pinLow = s.pinLow ∧ (s.itemClearCondition k n).state.loop = s.loop ∧
    (s.itemClearCondition k n).state.intake = s.intake ∧ (s.itemClearCondition k n).state.tables = s.tables ∧
    (s.itemClearCondition k n).state.contacts = s.contacts ∧ (s.itemClearCondition k n).state.heats = s.heats ∧
    (s.itemClearCondition k n).state.power = s.power ∧
    (s.itemClearCondition k n).state.orderClamps = s.orderClamps ∧
    (s.itemClearCondition k n).state.holding = s.holding ∧ (s.itemClearCondition k n).state.circuits = s.circuits ∧
    (s.itemClearCondition k n).state.taps = s.taps ∧ (s.itemClearCondition k n).state.watch = s.watch ∧
    (s.itemClearCondition k n).state.mgmt.selection = s.mgmt.selection ∧
    (s.itemClearCondition k n).state.mgmt.latch = s.mgmt.latch ∧
    (s.itemClearCondition k n).state.mgmt.validator = s.mgmt.validator ∧
    (s.itemClearCondition k n).state.mgmt.params = s.mgmt.params ∧
    (s.itemClearCondition k n).state.mgmt.locked = s.mgmt.locked ∧
    (s.itemClearCondition k n).state.mgmt.frame = s.mgmt.frame := by
  unfold State.itemClearCondition; try unfold State.onFurnace
  try dsimp only
  (repeat' split) <;> simp

@[simp] theorem State.itemClearCounters_frame :
    (s.itemClearCounters).state.pending = s.pending ∧ (s.itemClearCounters).state.time = s.time ∧
    (s.itemClearCounters).state.pinLow = s.pinLow ∧ (s.itemClearCounters).state.intake.live = s.intake.live ∧
    (s.itemClearCounters).state.intake.stale = s.intake.stale ∧ (s.itemClearCounters).state.tables = s.tables ∧
    (s.itemClearCounters).state.contacts = s.contacts ∧ (s.itemClearCounters).state.heats = s.heats ∧
    (s.itemClearCounters).state.power = s.power ∧ (s.itemClearCounters).state.holding = s.holding ∧
    (s.itemClearCounters).state.circuits = s.circuits ∧ (s.itemClearCounters).state.taps.ready = s.taps.ready ∧
    (s.itemClearCounters).state.taps.queue = s.taps.queue ∧
    (s.itemClearCounters).state.taps.station = s.taps.station ∧
    (s.itemClearCounters).state.taps.pour = s.taps.pour ∧
    (s.itemClearCounters).state.taps.tiltStart = s.taps.tiltStart ∧
    (s.itemClearCounters).state.taps.pourTimer = s.taps.pourTimer ∧
    (s.itemClearCounters).state.taps.returnTimer = s.taps.returnTimer ∧
    (s.itemClearCounters).state.taps.held = s.taps.held ∧ (s.itemClearCounters).state.taps.tilt = s.taps.tilt ∧
    (s.itemClearCounters).state.taps.ladle = s.taps.ladle ∧
    (s.itemClearCounters).state.taps.dipAge = s.taps.dipAge ∧ (s.itemClearCounters).state.watch = s.watch ∧
    (s.itemClearCounters).state.mgmt = s.mgmt := by
  unfold State.itemClearCounters; try unfold State.onFurnace
  try dsimp only
  (repeat' split) <;> simp

@[simp] theorem State.itemReadFurnace_frame (f p : Byte) :
    (s.itemReadFurnace f p).state.pending = s.pending ∧ (s.itemReadFurnace f p).state.time = s.time ∧
    (s.itemReadFurnace f p).state.pinLow = s.pinLow ∧ (s.itemReadFurnace f p).state.loop = s.loop ∧
    (s.itemReadFurnace f p).state.intake = s.intake ∧ (s.itemReadFurnace f p).state.tables = s.tables ∧
    (s.itemReadFurnace f p).state.contacts = s.contacts ∧ (s.itemReadFurnace f p).state.heats = s.heats ∧
    (s.itemReadFurnace f p).state.power = s.power ∧ (s.itemReadFurnace f p).state.orderClamps = s.orderClamps ∧
    (s.itemReadFurnace f p).state.holding = s.holding ∧ (s.itemReadFurnace f p).state.circuits = s.circuits ∧
    (s.itemReadFurnace f p).state.taps = s.taps ∧ (s.itemReadFurnace f p).state.watch = s.watch ∧
    (s.itemReadFurnace f p).state.mgmt = s.mgmt := by
  unfold State.itemReadFurnace; try unfold State.onFurnace
  try dsimp only
  (repeat' split) <;> simp

@[simp] theorem State.itemReadCircuit_frame (c p : Byte) :
    (s.itemReadCircuit c p).state.pending = s.pending ∧ (s.itemReadCircuit c p).state.time = s.time ∧
    (s.itemReadCircuit c p).state.pinLow = s.pinLow ∧ (s.itemReadCircuit c p).state.loop = s.loop ∧
    (s.itemReadCircuit c p).state.intake = s.intake ∧ (s.itemReadCircuit c p).state.tables = s.tables ∧
    (s.itemReadCircuit c p).state.contacts = s.contacts ∧ (s.itemReadCircuit c p).state.heats = s.heats ∧
    (s.itemReadCircuit c p).state.power = s.power ∧ (s.itemReadCircuit c p).state.orderClamps = s.orderClamps ∧
    (s.itemReadCircuit c p).state.holding = s.holding ∧ (s.itemReadCircuit c p).state.circuits = s.circuits ∧
    (s.itemReadCircuit c p).state.taps = s.taps ∧ (s.itemReadCircuit c p).state.watch = s.watch ∧
    (s.itemReadCircuit c p).state.mgmt = s.mgmt := by
  unfold State.itemReadCircuit; try unfold State.onFurnace
  try dsimp only
  (repeat' split) <;> simp

@[simp] theorem State.itemReadPoint_frame (n p : Byte) :
    (s.itemReadPoint n p).state.pending = s.pending ∧ (s.itemReadPoint n p).state.time = s.time ∧
    (s.itemReadPoint n p).state.pinLow = s.pinLow ∧ (s.itemReadPoint n p).state.loop = s.loop ∧
    (s.itemReadPoint n p).state.intake = s.intake ∧ (s.itemReadPoint n p).state.tables = s.tables ∧
    (s.itemReadPoint n p).state.contacts = s.contacts ∧ (s.itemReadPoint n p).state.heats = s.heats ∧
    (s.itemReadPoint n p).state.power = s.power ∧ (s.itemReadPoint n p).state.orderClamps = s.orderClamps ∧
    (s.itemReadPoint n p).state.holding = s.holding ∧ (s.itemReadPoint n p).state.circuits = s.circuits ∧
    (s.itemReadPoint n p).state.taps = s.taps ∧ (s.itemReadPoint n p).state.watch = s.watch ∧
    (s.itemReadPoint n p).state.mgmt = s.mgmt := by
  unfold State.itemReadPoint; try unfold State.onFurnace
  try dsimp only
  (repeat' split) <;> simp

@[simp] theorem State.itemReadQueues_frame (p : Byte) :
    (s.itemReadQueues p).state.pending = s.pending ∧ (s.itemReadQueues p).state.time = s.time ∧
    (s.itemReadQueues p).state.pinLow = s.pinLow ∧ (s.itemReadQueues p).state.loop = s.loop ∧
    (s.itemReadQueues p).state.intake = s.intake ∧ (s.itemReadQueues p).state.tables = s.tables ∧
    (s.itemReadQueues p).state.contacts = s.contacts ∧ (s.itemReadQueues p).state.heats = s.heats ∧
    (s.itemReadQueues p).state.power = s.power ∧ (s.itemReadQueues p).state.orderClamps = s.orderClamps ∧
    (s.itemReadQueues p).state.holding = s.holding ∧ (s.itemReadQueues p).state.circuits = s.circuits ∧
    (s.itemReadQueues p).state.taps = s.taps ∧ (s.itemReadQueues p).state.watch = s.watch ∧
    (s.itemReadQueues p).state.mgmt = s.mgmt := by
  unfold State.itemReadQueues; try unfold State.onFurnace
  try dsimp only
  (repeat' split) <;> simp

@[simp] theorem State.itemReadConditions_frame (p : Byte) :
    (s.itemReadConditions p).state.pending = s.pending ∧ (s.itemReadConditions p).state.time = s.time ∧
    (s.itemReadConditions p).state.pinLow = s.pinLow ∧ (s.itemReadConditions p).state.loop = s.loop ∧
    (s.itemReadConditions p).state.intake = s.intake ∧ (s.itemReadConditions p).state.tables = s.tables ∧
    (s.itemReadConditions p).state.contacts = s.contacts ∧ (s.itemReadConditions p).state.heats = s.heats ∧
    (s.itemReadConditions p).state.power = s.power ∧ (s.itemReadConditions p).state.orderClamps = s.orderClamps ∧
    (s.itemReadConditions p).state.holding = s.holding ∧ (s.itemReadConditions p).state.circuits = s.circuits ∧
    (s.itemReadConditions p).state.taps = s.taps ∧ (s.itemReadConditions p).state.watch = s.watch ∧
    (s.itemReadConditions p).state.mgmt = s.mgmt := by
  unfold State.itemReadConditions; try unfold State.onFurnace
  try dsimp only
  (repeat' split) <;> simp

@[simp] theorem State.itemReadCounters_frame (p : Byte) :
    (s.itemReadCounters p).state.pending = s.pending ∧ (s.itemReadCounters p).state.time = s.time ∧
    (s.itemReadCounters p).state.pinLow = s.pinLow ∧ (s.itemReadCounters p).state.loop = s.loop ∧
    (s.itemReadCounters p).state.intake = s.intake ∧ (s.itemReadCounters p).state.tables = s.tables ∧
    (s.itemReadCounters p).state.contacts = s.contacts ∧ (s.itemReadCounters p).state.heats = s.heats ∧
    (s.itemReadCounters p).state.power = s.power ∧ (s.itemReadCounters p).state.orderClamps = s.orderClamps ∧
    (s.itemReadCounters p).state.holding = s.holding ∧ (s.itemReadCounters p).state.circuits = s.circuits ∧
    (s.itemReadCounters p).state.taps = s.taps ∧ (s.itemReadCounters p).state.watch = s.watch ∧
    (s.itemReadCounters p).state.mgmt = s.mgmt := by
  unfold State.itemReadCounters; try unfold State.onFurnace
  try dsimp only
  (repeat' split) <;> simp

@[simp] theorem State.placeReplyTo_frame (d q : Byte) :
    (s.placeReplyTo d q).pending = s.pending ∧ (s.placeReplyTo d q).time = s.time ∧
    (s.placeReplyTo d q).pinLow = s.pinLow ∧ (s.placeReplyTo d q).intake = s.intake ∧
    (s.placeReplyTo d q).tables = s.tables ∧ (s.placeReplyTo d q).contacts = s.contacts ∧
    (s.placeReplyTo d q).heats = s.heats ∧ (s.placeReplyTo d q).power = s.power ∧
    (s.placeReplyTo d q).orderClamps = s.orderClamps ∧ (s.placeReplyTo d q).holding = s.holding ∧
    (s.placeReplyTo d q).circuits = s.circuits ∧ (s.placeReplyTo d q).taps = s.taps ∧
    (s.placeReplyTo d q).watch = s.watch ∧ (s.placeReplyTo d q).mgmt = s.mgmt := by
  unfold State.placeReplyTo; try dsimp only
  (repeat' split) <;> simp

@[simp] theorem State.restartMgmt_frame :
    (s.restartMgmt).pending = s.pending ∧ (s.restartMgmt).time = s.time ∧ (s.restartMgmt).pinLow = s.pinLow ∧
    (s.restartMgmt).loop = s.loop ∧ (s.restartMgmt).intake = s.intake ∧ (s.restartMgmt).tables = s.tables ∧
    (s.restartMgmt).contacts = s.contacts ∧ (s.restartMgmt).heats = s.heats ∧ (s.restartMgmt).power = s.power ∧
    (s.restartMgmt).orderClamps = s.orderClamps ∧ (s.restartMgmt).holding = s.holding ∧
    (s.restartMgmt).circuits = s.circuits ∧ (s.restartMgmt).taps = s.taps ∧ (s.restartMgmt).watch = s.watch ∧
    (s.restartMgmt).mgmt.locked = s.mgmt.locked ∧ (s.restartMgmt).mgmt.frame = s.mgmt.frame := by
  unfold State.restartMgmt; try dsimp only
  (repeat' split) <;> simp

@[simp] theorem State.restartLoop_frame :
    (s.restartLoop).pending = s.pending ∧ (s.restartLoop).time = s.time ∧ (s.restartLoop).pinLow = s.pinLow ∧
    (s.restartLoop).intake = s.intake ∧ (s.restartLoop).tables = s.tables ∧ (s.restartLoop).contacts = s.contacts ∧
    (s.restartLoop).heats = s.heats ∧ (s.restartLoop).power = s.power ∧
    (s.restartLoop).orderClamps = s.orderClamps ∧ (s.restartLoop).holding = s.holding ∧
    (s.restartLoop).circuits = s.circuits ∧ (s.restartLoop).taps = s.taps ∧ (s.restartLoop).watch = s.watch ∧
    (s.restartLoop).mgmt = s.mgmt := by
  unfold State.restartLoop; try dsimp only
  (repeat' split) <;> simp

@[simp] theorem State.restartContacts_frame :
    (s.restartContacts).pending = s.pending ∧ (s.restartContacts).time = s.time ∧
    (s.restartContacts).pinLow = s.pinLow ∧ (s.restartContacts).loop = s.loop ∧
    (s.restartContacts).intake = s.intake ∧ (s.restartContacts).tables = s.tables ∧
    (s.restartContacts).contacts.raw = s.contacts.raw ∧
    (s.restartContacts).contacts.filtered = s.contacts.filtered ∧
    (s.restartContacts).contacts.persistence = s.contacts.persistence ∧
    (s.restartContacts).contacts.ind = s.contacts.ind ∧ (s.restartContacts).contacts.driven = s.contacts.driven ∧
    (s.restartContacts).contacts.commanded = s.contacts.commanded ∧
    (s.restartContacts).contacts.frozen = s.contacts.frozen ∧ (s.restartContacts).heats = s.heats ∧
    (s.restartContacts).power = s.power ∧ (s.restartContacts).orderClamps = s.orderClamps ∧
    (s.restartContacts).holding = s.holding ∧ (s.restartContacts).circuits = s.circuits ∧
    (s.restartContacts).taps = s.taps ∧ (s.restartContacts).watch = s.watch ∧ (s.restartContacts).mgmt = s.mgmt := by
  unfold State.restartContacts; try dsimp only
  (repeat' split) <;> simp

@[simp] theorem State.restartWatch_frame :
    (s.restartWatch).pending = s.pending ∧ (s.restartWatch).time = s.time ∧ (s.restartWatch).pinLow = s.pinLow ∧
    (s.restartWatch).loop = s.loop ∧ (s.restartWatch).intake = s.intake ∧ (s.restartWatch).tables = s.tables ∧
    (s.restartWatch).contacts = s.contacts ∧ (s.restartWatch).heats = s.heats ∧ (s.restartWatch).power = s.power ∧
    (s.restartWatch).orderClamps = s.orderClamps ∧ (s.restartWatch).holding = s.holding ∧
    (s.restartWatch).circuits = s.circuits ∧ (s.restartWatch).taps = s.taps ∧ (s.restartWatch).mgmt = s.mgmt := by
  unfold State.restartWatch; try dsimp only
  (repeat' split) <;> simp

@[simp] theorem State.restartPower_frame :
    (s.restartPower).pending = s.pending ∧ (s.restartPower).time = s.time ∧ (s.restartPower).pinLow = s.pinLow ∧
    (s.restartPower).intake = s.intake ∧ (s.restartPower).tables = s.tables ∧
    (s.restartPower).contacts = s.contacts ∧ (s.restartPower).heats = s.heats ∧
    (s.restartPower).holding = s.holding ∧ (s.restartPower).circuits = s.circuits ∧
    (s.restartPower).taps = s.taps ∧ (s.restartPower).watch = s.watch ∧ (s.restartPower).mgmt = s.mgmt := by
  unfold State.restartPower
  refine ⟨?_, ?_, ?_, ?_, ?_, ?_, ?_, ?_, ?_, ?_, ?_, ?_⟩
  · simp [foldl_keeps (fun s : State => s.pending), apply_ite (fun s : State => s.pending)]
  · simp [foldl_keeps (fun s : State => s.time), apply_ite (fun s : State => s.time)]
  · simp [foldl_keeps (fun s : State => s.pinLow), apply_ite (fun s : State => s.pinLow)]
  · simp [foldl_keeps (fun s : State => s.intake), apply_ite (fun s : State => s.intake)]
  · simp [foldl_keeps (fun s : State => s.tables), apply_ite (fun s : State => s.tables)]
  · simp [foldl_keeps (fun s : State => s.contacts), apply_ite (fun s : State => s.contacts)]
  · simp [foldl_keeps (fun s : State => s.heats), apply_ite (fun s : State => s.heats)]
  · simp [foldl_keeps (fun s : State => s.holding), apply_ite (fun s : State => s.holding)]
  · simp [foldl_keeps (fun s : State => s.circuits), apply_ite (fun s : State => s.circuits)]
  · simp [foldl_keeps (fun s : State => s.taps), apply_ite (fun s : State => s.taps)]
  · simp [foldl_keeps (fun s : State => s.watch), apply_ite (fun s : State => s.watch)]
  · simp [foldl_keeps (fun s : State => s.mgmt), apply_ite (fun s : State => s.mgmt)]

@[simp] theorem State.restartAccount_frame (r : Pour) :
    (s.restartAccount r).pending = s.pending ∧ (s.restartAccount r).time = s.time ∧
    (s.restartAccount r).pinLow = s.pinLow ∧ (s.restartAccount r).loop = s.loop ∧
    (s.restartAccount r).intake = s.intake ∧ (s.restartAccount r).tables = s.tables ∧
    (s.restartAccount r).contacts = s.contacts ∧ (s.restartAccount r).power = s.power ∧
    (s.restartAccount r).orderClamps = s.orderClamps ∧ (s.restartAccount r).holding = s.holding ∧
    (s.restartAccount r).circuits = s.circuits ∧ (s.restartAccount r).taps.ready = s.taps.ready ∧
    (s.restartAccount r).taps.queue = s.taps.queue ∧ (s.restartAccount r).taps.station = s.taps.station ∧
    (s.restartAccount r).taps.pour = s.taps.pour ∧ (s.restartAccount r).taps.tiltStart = s.taps.tiltStart ∧
    (s.restartAccount r).taps.pourTimer = s.taps.pourTimer ∧
    (s.restartAccount r).taps.returnTimer = s.taps.returnTimer ∧ (s.restartAccount r).taps.held = s.taps.held ∧
    (s.restartAccount r).taps.tilt = s.taps.tilt ∧ (s.restartAccount r).taps.ladle = s.taps.ladle ∧
    (s.restartAccount r).taps.malformed = s.taps.malformed ∧ (s.restartAccount r).watch = s.watch ∧
    (s.restartAccount r).mgmt = s.mgmt := by
  unfold State.restartAccount; try dsimp only
  (repeat' split) <;> simp

@[simp] theorem State.restartStation_frame :
    (s.restartStation).pending = s.pending ∧ (s.restartStation).time = s.time ∧
    (s.restartStation).pinLow = s.pinLow ∧ (s.restartStation).loop = s.loop ∧
    (s.restartStation).intake = s.intake ∧ (s.restartStation).tables = s.tables ∧
    (s.restartStation).contacts = s.contacts ∧ (s.restartStation).power = s.power ∧
    (s.restartStation).orderClamps = s.orderClamps ∧ (s.restartStation).holding = s.holding ∧
    (s.restartStation).circuits = s.circuits ∧ (s.restartStation).taps.ready = s.taps.ready ∧
    (s.restartStation).taps.queue = s.taps.queue ∧ (s.restartStation).taps.station = s.taps.station ∧
    (s.restartStation).taps.pour = s.taps.pour ∧ (s.restartStation).taps.tiltStart = s.taps.tiltStart ∧
    (s.restartStation).taps.pourTimer = s.taps.pourTimer ∧
    (s.restartStation).taps.returnTimer = s.taps.returnTimer ∧ (s.restartStation).taps.held = s.taps.held ∧
    (s.restartStation).taps.tilt = s.taps.tilt ∧ (s.restartStation).taps.ladle = s.taps.ladle ∧
    (s.restartStation).taps.malformed = s.taps.malformed ∧ (s.restartStation).watch = s.watch ∧
    (s.restartStation).mgmt = s.mgmt := by
  unfold State.restartStation; try dsimp only
  (repeat' split) <;> simp

@[simp] theorem State.restartPermit_frame :
    (s.restartPermit).pending = s.pending ∧ (s.restartPermit).time = s.time ∧ (s.restartPermit).pinLow = s.pinLow ∧
    (s.restartPermit).intake = s.intake ∧ (s.restartPermit).tables = s.tables ∧
    (s.restartPermit).contacts = s.contacts ∧ (s.restartPermit).heats = s.heats ∧
    (s.restartPermit).power = s.power ∧ (s.restartPermit).orderClamps = s.orderClamps ∧
    (s.restartPermit).holding = s.holding ∧ (s.restartPermit).circuits = s.circuits ∧
    (s.restartPermit).taps = s.taps ∧ (s.restartPermit).watch = s.watch ∧ (s.restartPermit).mgmt = s.mgmt := by
  unfold State.restartPermit; try dsimp only
  (repeat' split) <;> simp

@[simp] theorem State.restartTaps_frame :
    (s.restartTaps).pending = s.pending ∧ (s.restartTaps).time = s.time ∧ (s.restartTaps).pinLow = s.pinLow ∧
    (s.restartTaps).intake = s.intake ∧ (s.restartTaps).tables = s.tables ∧ (s.restartTaps).contacts = s.contacts ∧
    (s.restartTaps).power = s.power ∧ (s.restartTaps).orderClamps = s.orderClamps ∧
    (s.restartTaps).holding = s.holding ∧ (s.restartTaps).circuits = s.circuits ∧
    (s.restartTaps).taps.tilt = s.taps.tilt ∧ (s.restartTaps).taps.ladle = s.taps.ladle ∧
    (s.restartTaps).watch = s.watch ∧ (s.restartTaps).mgmt = s.mgmt := by
  unfold State.restartTaps; try dsimp only
  (repeat' split) <;> simp

@[simp] theorem State.reraiseLockout_frame (f : Furnace) :
    (s.reraiseLockout f).pending = s.pending ∧ (s.reraiseLockout f).time = s.time ∧
    (s.reraiseLockout f).pinLow = s.pinLow ∧ (s.reraiseLockout f).intake = s.intake ∧
    (s.reraiseLockout f).tables = s.tables ∧ (s.reraiseLockout f).contacts = s.contacts ∧
    (s.reraiseLockout f).heats = s.heats ∧ (s.reraiseLockout f).power = s.power ∧
    (s.reraiseLockout f).orderClamps = s.orderClamps ∧ (s.reraiseLockout f).holding = s.holding ∧
    (s.reraiseLockout f).circuits = s.circuits ∧ (s.reraiseLockout f).taps = s.taps ∧
    (s.reraiseLockout f).watch = s.watch ∧ (s.reraiseLockout f).mgmt.selection = s.mgmt.selection ∧
    (s.reraiseLockout f).mgmt.latch = s.mgmt.latch ∧ (s.reraiseLockout f).mgmt.validator = s.mgmt.validator ∧
    (s.reraiseLockout f).mgmt.params = s.mgmt.params ∧ (s.reraiseLockout f).mgmt.locked = s.mgmt.locked ∧
    (s.reraiseLockout f).mgmt.frame = s.mgmt.frame := by
  unfold State.reraiseLockout; try dsimp only
  (repeat' split) <;> simp

@[simp] theorem State.reraise_frame :
    (s.reraise).pending = s.pending ∧ (s.reraise).time = s.time ∧ (s.reraise).pinLow = s.pinLow ∧
    (s.reraise).intake = s.intake ∧ (s.reraise).tables = s.tables ∧ (s.reraise).contacts = s.contacts ∧
    (s.reraise).heats = s.heats ∧ (s.reraise).power = s.power ∧ (s.reraise).orderClamps = s.orderClamps ∧
    (s.reraise).holding = s.holding ∧ (s.reraise).circuits = s.circuits ∧ (s.reraise).taps = s.taps ∧
    (s.reraise).watch = s.watch ∧ (s.reraise).mgmt.selection = s.mgmt.selection ∧
    (s.reraise).mgmt.latch = s.mgmt.latch ∧ (s.reraise).mgmt.validator = s.mgmt.validator ∧
    (s.reraise).mgmt.params = s.mgmt.params ∧ (s.reraise).mgmt.locked = s.mgmt.locked ∧
    (s.reraise).mgmt.frame = s.mgmt.frame := by
  unfold State.reraise
  refine ⟨?_, ?_, ?_, ?_, ?_, ?_, ?_, ?_, ?_, ?_, ?_, ?_, ?_, ?_, ?_, ?_, ?_, ?_, ?_⟩
  · simp [foldl_keeps (fun s : State => s.pending), apply_ite (fun s : State => s.pending)]
  · simp [foldl_keeps (fun s : State => s.time), apply_ite (fun s : State => s.time)]
  · simp [foldl_keeps (fun s : State => s.pinLow), apply_ite (fun s : State => s.pinLow)]
  · simp [foldl_keeps (fun s : State => s.intake), apply_ite (fun s : State => s.intake)]
  · simp [foldl_keeps (fun s : State => s.tables), apply_ite (fun s : State => s.tables)]
  · simp [foldl_keeps (fun s : State => s.contacts), apply_ite (fun s : State => s.contacts)]
  · simp [foldl_keeps (fun s : State => s.heats), apply_ite (fun s : State => s.heats)]
  · simp [foldl_keeps (fun s : State => s.power), apply_ite (fun s : State => s.power)]
  · simp [foldl_keeps (fun s : State => s.orderClamps), apply_ite (fun s : State => s.orderClamps)]
  · simp [foldl_keeps (fun s : State => s.holding), apply_ite (fun s : State => s.holding)]
  · simp [foldl_keeps (fun s : State => s.circuits), apply_ite (fun s : State => s.circuits)]
  · simp [foldl_keeps (fun s : State => s.taps), apply_ite (fun s : State => s.taps)]
  · simp [foldl_keeps (fun s : State => s.watch), apply_ite (fun s : State => s.watch)]
  · simp [foldl_keeps (fun s : State => s.mgmt.selection), apply_ite (fun s : State => s.mgmt.selection)]
  · simp [foldl_keeps (fun s : State => s.mgmt.latch), apply_ite (fun s : State => s.mgmt.latch)]
  · simp [foldl_keeps (fun s : State => s.mgmt.validator), apply_ite (fun s : State => s.mgmt.validator)]
  · simp [foldl_keeps (fun s : State => s.mgmt.params), apply_ite (fun s : State => s.mgmt.params)]
  · simp [foldl_keeps (fun s : State => s.mgmt.locked), apply_ite (fun s : State => s.mgmt.locked)]
  · simp [foldl_keeps (fun s : State => s.mgmt.frame), apply_ite (fun s : State => s.mgmt.frame)]

@[simp] theorem State.warmRestart_frame :
    (s.warmRestart).pending = s.pending ∧ (s.warmRestart).time = s.time ∧ (s.warmRestart).pinLow = s.pinLow ∧
    (s.warmRestart).intake.live = s.intake.live ∧ (s.warmRestart).intake.stale = s.intake.stale ∧
    (s.warmRestart).tables = s.tables ∧ (s.warmRestart).contacts.raw = s.contacts.raw ∧
    (s.warmRestart).contacts.filtered = s.contacts.filtered ∧
    (s.warmRestart).contacts.persistence = s.contacts.persistence ∧ (s.warmRestart).contacts.ind = s.contacts.ind ∧
    (s.warmRestart).contacts.commanded = s.contacts.commanded ∧
    (s.warmRestart).contacts.frozen = s.contacts.frozen ∧ (s.warmRestart).taps.tilt = s.taps.tilt ∧
    (s.warmRestart).taps.ladle = s.taps.ladle ∧ (s.warmRestart).mgmt.locked = s.mgmt.locked ∧
    (s.warmRestart).mgmt.frame = s.mgmt.frame := by
  unfold State.warmRestart; try dsimp only
  (repeat' split) <;> simp

@[simp] theorem State.restartResults_frame :
    (s.restartResults).pending = s.pending ∧ (s.restartResults).time = s.time ∧
    (s.restartResults).pinLow = s.pinLow ∧ (s.restartResults).loop = s.loop ∧
    (s.restartResults).intake = s.intake ∧ (s.restartResults).tables = s.tables ∧
    (s.restartResults).contacts = s.contacts ∧ (s.restartResults).heats = s.heats ∧
    (s.restartResults).power = s.power ∧ (s.restartResults).orderClamps = s.orderClamps ∧
    (s.restartResults).holding = s.holding ∧ (s.restartResults).circuits = s.circuits ∧
    (s.restartResults).taps = s.taps ∧ (s.restartResults).watch = s.watch ∧
    (s.restartResults).mgmt.selection = s.mgmt.selection ∧ (s.restartResults).mgmt.latch = s.mgmt.latch ∧
    (s.restartResults).mgmt.validator = s.mgmt.validator ∧ (s.restartResults).mgmt.params = s.mgmt.params ∧
    (s.restartResults).mgmt.locked = s.mgmt.locked ∧ (s.restartResults).mgmt.latched = s.mgmt.latched := by
  unfold State.restartResults; try dsimp only
  (repeat' split) <;> simp

@[simp] theorem State.restartCommand_frame (d q : Byte) :
    (s.restartCommand d q).pending = s.pending ∧ (s.restartCommand d q).time = s.time ∧
    (s.restartCommand d q).pinLow = s.pinLow ∧ (s.restartCommand d q).intake.live = s.intake.live ∧
    (s.restartCommand d q).intake.stale = s.intake.stale ∧ (s.restartCommand d q).tables = s.tables ∧
    (s.restartCommand d q).contacts.raw = s.contacts.raw ∧
    (s.restartCommand d q).contacts.filtered = s.contacts.filtered ∧
    (s.restartCommand d q).contacts.persistence = s.contacts.persistence ∧
    (s.restartCommand d q).contacts.ind = s.contacts.ind ∧
    (s.restartCommand d q).contacts.commanded = s.contacts.commanded ∧
    (s.restartCommand d q).contacts.frozen = s.contacts.frozen ∧ (s.restartCommand d q).taps.tilt = s.taps.tilt ∧
    (s.restartCommand d q).taps.ladle = s.taps.ladle ∧ (s.restartCommand d q).mgmt.locked = s.mgmt.locked := by
  unfold State.restartCommand; try dsimp only
  (repeat' split) <;> simp

@[simp] theorem State.runCommand_frame (i : Instr) :
    (s.runCommand i).state.pending = s.pending ∧ (s.runCommand i).state.time = s.time ∧
    (s.runCommand i).state.pinLow = s.pinLow ∧ (s.runCommand i).state.intake.live = s.intake.live ∧
    (s.runCommand i).state.intake.stale = s.intake.stale ∧ (s.runCommand i).state.contacts.raw = s.contacts.raw ∧
    (s.runCommand i).state.contacts.filtered = s.contacts.filtered ∧
    (s.runCommand i).state.contacts.persistence = s.contacts.persistence ∧
    (s.runCommand i).state.contacts.ind = s.contacts.ind ∧ (s.runCommand i).state.taps.tilt = s.taps.tilt ∧
    (s.runCommand i).state.taps.ladle = s.taps.ladle := by
  unfold State.runCommand; try dsimp only
  (repeat' split) <;> simp

@[simp] theorem State.stopItems_frame (n : Nat) :
    (s.stopItems n).pending = s.pending ∧ (s.stopItems n).time = s.time ∧ (s.stopItems n).pinLow = s.pinLow ∧
    (s.stopItems n).loop = s.loop ∧ (s.stopItems n).intake = s.intake ∧ (s.stopItems n).tables = s.tables ∧
    (s.stopItems n).contacts = s.contacts ∧ (s.stopItems n).heats = s.heats ∧ (s.stopItems n).power = s.power ∧
    (s.stopItems n).orderClamps = s.orderClamps ∧ (s.stopItems n).holding = s.holding ∧
    (s.stopItems n).circuits = s.circuits ∧ (s.stopItems n).taps = s.taps ∧ (s.stopItems n).watch = s.watch ∧
    (s.stopItems n).mgmt.selection = s.mgmt.selection ∧ (s.stopItems n).mgmt.latch = s.mgmt.latch ∧
    (s.stopItems n).mgmt.validator = s.mgmt.validator ∧ (s.stopItems n).mgmt.params = s.mgmt.params ∧
    (s.stopItems n).mgmt.locked = s.mgmt.locked ∧ (s.stopItems n).mgmt.latched = s.mgmt.latched := by
  unfold State.stopItems; try dsimp only
  (repeat' split) <;> simp

@[simp] theorem State.countLoop_frame (x : LoopCounters) :
    (s.countLoop x).pending = s.pending ∧ (s.countLoop x).time = s.time ∧ (s.countLoop x).pinLow = s.pinLow ∧
    (s.countLoop x).intake = s.intake ∧ (s.countLoop x).tables = s.tables ∧ (s.countLoop x).contacts = s.contacts ∧
    (s.countLoop x).heats = s.heats ∧ (s.countLoop x).power = s.power ∧
    (s.countLoop x).orderClamps = s.orderClamps ∧ (s.countLoop x).holding = s.holding ∧
    (s.countLoop x).circuits = s.circuits ∧ (s.countLoop x).taps = s.taps ∧ (s.countLoop x).watch = s.watch ∧
    (s.countLoop x).mgmt = s.mgmt := by
  unfold State.countLoop; try dsimp only
  (repeat' split) <;> simp

@[simp] theorem State.forward_frame (f : Frame) :
    (s.forward f).pending = s.pending ∧ (s.forward f).time = s.time ∧ (s.forward f).pinLow = s.pinLow ∧
    (s.forward f).intake = s.intake ∧ (s.forward f).tables = s.tables ∧ (s.forward f).contacts = s.contacts ∧
    (s.forward f).heats = s.heats ∧ (s.forward f).power = s.power ∧ (s.forward f).orderClamps = s.orderClamps ∧
    (s.forward f).holding = s.holding ∧ (s.forward f).circuits = s.circuits ∧ (s.forward f).taps = s.taps ∧
    (s.forward f).watch = s.watch ∧ (s.forward f).mgmt = s.mgmt := by
  unfold State.forward; try dsimp only
  (repeat' split) <;> simp

@[simp] theorem State.badFrame_frame :
    (s.badFrame).pending = s.pending ∧ (s.badFrame).time = s.time ∧ (s.badFrame).pinLow = s.pinLow ∧
    (s.badFrame).intake = s.intake ∧ (s.badFrame).tables = s.tables ∧ (s.badFrame).contacts = s.contacts ∧
    (s.badFrame).heats = s.heats ∧ (s.badFrame).power = s.power ∧ (s.badFrame).orderClamps = s.orderClamps ∧
    (s.badFrame).holding = s.holding ∧ (s.badFrame).circuits = s.circuits ∧ (s.badFrame).taps = s.taps ∧
    (s.badFrame).watch = s.watch ∧ (s.badFrame).mgmt = s.mgmt := by
  unfold State.badFrame; try dsimp only
  (repeat' split) <;> simp

@[simp] theorem State.rejectMgmt_frame :
    (s.rejectMgmt).pending = s.pending ∧ (s.rejectMgmt).time = s.time ∧ (s.rejectMgmt).pinLow = s.pinLow ∧
    (s.rejectMgmt).intake = s.intake ∧ (s.rejectMgmt).tables = s.tables ∧ (s.rejectMgmt).contacts = s.contacts ∧
    (s.rejectMgmt).heats = s.heats ∧ (s.rejectMgmt).power = s.power ∧ (s.rejectMgmt).orderClamps = s.orderClamps ∧
    (s.rejectMgmt).holding = s.holding ∧ (s.rejectMgmt).circuits = s.circuits ∧ (s.rejectMgmt).taps = s.taps ∧
    (s.rejectMgmt).watch = s.watch ∧ (s.rejectMgmt).mgmt = s.mgmt := by
  unfold State.rejectMgmt; try dsimp only
  (repeat' split) <;> simp

@[simp] theorem State.overrunMgmt_frame :
    (s.overrunMgmt).pending = s.pending ∧ (s.overrunMgmt).time = s.time ∧ (s.overrunMgmt).pinLow = s.pinLow ∧
    (s.overrunMgmt).intake = s.intake ∧ (s.overrunMgmt).tables = s.tables ∧ (s.overrunMgmt).contacts = s.contacts ∧
    (s.overrunMgmt).heats = s.heats ∧ (s.overrunMgmt).power = s.power ∧
    (s.overrunMgmt).orderClamps = s.orderClamps ∧ (s.overrunMgmt).holding = s.holding ∧
    (s.overrunMgmt).circuits = s.circuits ∧ (s.overrunMgmt).taps = s.taps ∧ (s.overrunMgmt).watch = s.watch ∧
    (s.overrunMgmt).mgmt.selection = s.mgmt.selection ∧ (s.overrunMgmt).mgmt.latch = s.mgmt.latch ∧
    (s.overrunMgmt).mgmt.validator = s.mgmt.validator ∧ (s.overrunMgmt).mgmt.params = s.mgmt.params ∧
    (s.overrunMgmt).mgmt.locked = s.mgmt.locked ∧ (s.overrunMgmt).mgmt.frame = s.mgmt.frame := by
  unfold State.overrunMgmt; try dsimp only
  (repeat' split) <;> simp

@[simp] theorem State.takeDemand_frame (b : List Byte) :
    (s.takeDemand b).pending = s.pending ∧ (s.takeDemand b).time = s.time ∧ (s.takeDemand b).pinLow = s.pinLow ∧
    (s.takeDemand b).intake = s.intake ∧ (s.takeDemand b).tables = s.tables ∧
    (s.takeDemand b).contacts.raw = s.contacts.raw ∧ (s.takeDemand b).contacts.filtered = s.contacts.filtered ∧
    (s.takeDemand b).contacts.persistence = s.contacts.persistence ∧
    (s.takeDemand b).contacts.ind = s.contacts.ind ∧
    (s.takeDemand b).contacts.changePending = s.contacts.changePending ∧
    (s.takeDemand b).contacts.overrun = s.contacts.overrun ∧
    (s.takeDemand b).contacts.snapshot = s.contacts.snapshot ∧
    (s.takeDemand b).contacts.commanded = s.contacts.commanded ∧
    (s.takeDemand b).contacts.frozen = s.contacts.frozen ∧ (s.takeDemand b).orderClamps = s.orderClamps ∧
    (s.takeDemand b).taps.pourTimer = s.taps.pourTimer ∧ (s.takeDemand b).taps.returnTimer = s.taps.returnTimer ∧
    (s.takeDemand b).taps.held = s.taps.held ∧ (s.takeDemand b).taps.tilt = s.taps.tilt ∧
    (s.takeDemand b).taps.ladle = s.taps.ladle ∧ (s.takeDemand b).taps.dipAge = s.taps.dipAge ∧
    (s.takeDemand b).watch = s.watch ∧ (s.takeDemand b).mgmt = s.mgmt := by
  unfold State.takeDemand; try dsimp only
  (repeat' split) <;> simp

@[simp] theorem State.takeCancel_frame (b : List Byte) :
    (s.takeCancel b).pending = s.pending ∧ (s.takeCancel b).time = s.time ∧ (s.takeCancel b).pinLow = s.pinLow ∧
    (s.takeCancel b).intake = s.intake ∧ (s.takeCancel b).tables = s.tables ∧
    (s.takeCancel b).contacts.raw = s.contacts.raw ∧ (s.takeCancel b).contacts.filtered = s.contacts.filtered ∧
    (s.takeCancel b).contacts.persistence = s.contacts.persistence ∧
    (s.takeCancel b).contacts.ind = s.contacts.ind ∧
    (s.takeCancel b).contacts.changePending = s.contacts.changePending ∧
    (s.takeCancel b).contacts.overrun = s.contacts.overrun ∧
    (s.takeCancel b).contacts.snapshot = s.contacts.snapshot ∧
    (s.takeCancel b).contacts.commanded = s.contacts.commanded ∧
    (s.takeCancel b).contacts.frozen = s.contacts.frozen ∧ (s.takeCancel b).orderClamps = s.orderClamps ∧
    (s.takeCancel b).taps.held = s.taps.held ∧ (s.takeCancel b).taps.tilt = s.taps.tilt ∧
    (s.takeCancel b).taps.ladle = s.taps.ladle ∧ (s.takeCancel b).watch = s.watch ∧ (s.takeCancel b).mgmt = s.mgmt := by
  unfold State.takeCancel; try dsimp only
  (repeat' split) <;> simp

@[simp] theorem State.takePouring_frame (f : Frame) :
    (s.takePouring f).pending = s.pending ∧ (s.takePouring f).time = s.time ∧ (s.takePouring f).pinLow = s.pinLow ∧
    (s.takePouring f).intake = s.intake ∧ (s.takePouring f).tables = s.tables ∧
    (s.takePouring f).contacts.raw = s.contacts.raw ∧ (s.takePouring f).contacts.filtered = s.contacts.filtered ∧
    (s.takePouring f).contacts.persistence = s.contacts.persistence ∧
    (s.takePouring f).contacts.ind = s.contacts.ind ∧
    (s.takePouring f).contacts.changePending = s.contacts.changePending ∧
    (s.takePouring f).contacts.overrun = s.contacts.overrun ∧
    (s.takePouring f).contacts.snapshot = s.contacts.snapshot ∧
    (s.takePouring f).contacts.commanded = s.contacts.commanded ∧
    (s.takePouring f).contacts.frozen = s.contacts.frozen ∧ (s.takePouring f).orderClamps = s.orderClamps ∧
    (s.takePouring f).taps.held = s.taps.held ∧ (s.takePouring f).taps.tilt = s.taps.tilt ∧
    (s.takePouring f).taps.ladle = s.taps.ladle ∧ (s.takePouring f).watch = s.watch ∧
    (s.takePouring f).mgmt = s.mgmt := by
  unfold State.takePouring; try dsimp only
  (repeat' split) <;> simp

@[simp] theorem State.takeOrder_frame (f : Frame) :
    (s.takeOrder f).pending = s.pending ∧ (s.takeOrder f).time = s.time ∧ (s.takeOrder f).pinLow = s.pinLow ∧
    (s.takeOrder f).tables = s.tables ∧ (s.takeOrder f).contacts.raw = s.contacts.raw ∧
    (s.takeOrder f).contacts.filtered = s.contacts.filtered ∧
    (s.takeOrder f).contacts.persistence = s.contacts.persistence ∧ (s.takeOrder f).contacts.ind = s.contacts.ind ∧
    (s.takeOrder f).contacts.changePending = s.contacts.changePending ∧
    (s.takeOrder f).contacts.overrun = s.contacts.overrun ∧
    (s.takeOrder f).contacts.snapshot = s.contacts.snapshot ∧
    (s.takeOrder f).contacts.commanded = s.contacts.commanded ∧
    (s.takeOrder f).contacts.frozen = s.contacts.frozen ∧ (s.takeOrder f).taps.held = s.taps.held ∧
    (s.takeOrder f).taps.malformed = s.taps.malformed ∧ (s.takeOrder f).watch = s.watch ∧
    (s.takeOrder f).mgmt.selection = s.mgmt.selection ∧ (s.takeOrder f).mgmt.latch = s.mgmt.latch ∧
    (s.takeOrder f).mgmt.validator = s.mgmt.validator ∧ (s.takeOrder f).mgmt.params = s.mgmt.params ∧
    (s.takeOrder f).mgmt.locked = s.mgmt.locked ∧ (s.takeOrder f).mgmt.frame = s.mgmt.frame := by
  unfold State.takeOrder; try dsimp only
  (repeat' split) <;> simp

@[simp] theorem State.takeSample_frame (f : Frame) :
    (s.takeSample f).pending = s.pending ∧ (s.takeSample f).time = s.time ∧ (s.takeSample f).pinLow = s.pinLow ∧
    (s.takeSample f).tables = s.tables ∧ (s.takeSample f).contacts.raw = s.contacts.raw ∧
    (s.takeSample f).contacts.filtered = s.contacts.filtered ∧
    (s.takeSample f).contacts.persistence = s.contacts.persistence ∧
    (s.takeSample f).contacts.ind = s.contacts.ind ∧
    (s.takeSample f).contacts.changePending = s.contacts.changePending ∧
    (s.takeSample f).contacts.overrun = s.contacts.overrun ∧
    (s.takeSample f).contacts.snapshot = s.contacts.snapshot ∧
    (s.takeSample f).contacts.commanded = s.contacts.commanded ∧
    (s.takeSample f).contacts.frozen = s.contacts.frozen ∧ (s.takeSample f).taps.held = s.taps.held ∧
    (s.takeSample f).taps.malformed = s.taps.malformed ∧ (s.takeSample f).watch = s.watch ∧
    (s.takeSample f).mgmt.selection = s.mgmt.selection ∧ (s.takeSample f).mgmt.latch = s.mgmt.latch ∧
    (s.takeSample f).mgmt.validator = s.mgmt.validator ∧ (s.takeSample f).mgmt.params = s.mgmt.params ∧
    (s.takeSample f).mgmt.locked = s.mgmt.locked ∧ (s.takeSample f).mgmt.frame = s.mgmt.frame := by
  unfold State.takeSample; try dsimp only
  (repeat' split) <;> simp

@[simp] theorem State.returnExpire_frame :
    (s.returnExpire).pending = s.pending ∧ (s.returnExpire).time = s.time ∧ (s.returnExpire).pinLow = s.pinLow ∧
    (s.returnExpire).intake = s.intake ∧ (s.returnExpire).tables = s.tables ∧
    (s.returnExpire).contacts.raw = s.contacts.raw ∧ (s.returnExpire).contacts.filtered = s.contacts.filtered ∧
    (s.returnExpire).contacts.persistence = s.contacts.persistence ∧
    (s.returnExpire).contacts.ind = s.contacts.ind ∧
    (s.returnExpire).contacts.changePending = s.contacts.changePending ∧
    (s.returnExpire).contacts.overrun = s.contacts.overrun ∧
    (s.returnExpire).contacts.snapshot = s.contacts.snapshot ∧
    (s.returnExpire).contacts.commanded = s.contacts.commanded ∧
    (s.returnExpire).contacts.frozen = s.contacts.frozen ∧ (s.returnExpire).orderClamps = s.orderClamps ∧
    (s.returnExpire).taps.pourTimer = s.taps.pourTimer ∧ (s.returnExpire).taps.held = s.taps.held ∧
    (s.returnExpire).taps.tilt = s.taps.tilt ∧ (s.returnExpire).taps.ladle = s.taps.ladle ∧
    (s.returnExpire).taps.malformed = s.taps.malformed ∧ (s.returnExpire).watch = s.watch ∧
    (s.returnExpire).mgmt.selection = s.mgmt.selection ∧ (s.returnExpire).mgmt.latch = s.mgmt.latch ∧
    (s.returnExpire).mgmt.validator = s.mgmt.validator ∧ (s.returnExpire).mgmt.params = s.mgmt.params ∧
    (s.returnExpire).mgmt.locked = s.mgmt.locked ∧ (s.returnExpire).mgmt.frame = s.mgmt.frame := by
  unfold State.returnExpire; try dsimp only
  (repeat' split) <;> simp

end Sys2Proof.Machine
end

