-- ==== Sys2Proof/Laws/Memory.lean ====
section
/-! SUPPORT. The table images (R34): reading after writing, and the canonical form, which every operation on an image
keeps and the reset state has. -/

namespace Sys2Proof.Machine

@[simp] theorem Image.read_nil (a : Nat) : Image.read [] a = Image.unlisted := rfl

@[simp] theorem Image.wfFrom_nil (n : Nat) : Image.wfFrom n [] = true := rfl

theorem Image.wfFrom_cons (n k : Nat) (b : Byte) (rest : Image) :
    Image.wfFrom n ((k, b) :: rest) = true ↔ n ≤ k ∧ b ≠ Image.unlisted ∧ Image.wfFrom (k + 1) rest = true := by
  simp [Image.wfFrom, and_assoc]

/-- A form from an address on is one from every lower address on. -/
theorem Image.wfFrom_mono {n n' : Nat} (h : n' ≤ n) {m : Image} (w : Image.wfFrom n m = true) :
    Image.wfFrom n' m = true := by
  cases m with
  | nil => rfl
  | cons c rest => obtain ⟨k, b⟩ := c; rw [Image.wfFrom_cons] at *; exact ⟨by omega, w.2⟩

/-- Below its first address an image reads as unlisted. -/
theorem Image.read_below {m : Image} {n a : Nat} (w : Image.wfFrom n m = true) (h : a < n) :
    m.read a = Image.unlisted := by
  cases m with
  | nil => rfl
  | cons c rest =>
    obtain ⟨k, b⟩ := c
    rw [Image.wfFrom_cons] at w
    have hk : a < k := by omega
    simp [Image.read, hk]

/-- A write keeps the canonical form. -/
theorem Image.write_wfFrom (m : Image) (n a : Nat) (v : Byte) (w : Image.wfFrom n m = true) (h : n ≤ a) :
    Image.wfFrom n (m.write a v) = true := by
  induction m generalizing n with
  | nil => by_cases hv : v = Image.unlisted <;> simp [Image.write, hv, Image.wfFrom_cons, h]
  | cons c rest ih =>
    obtain ⟨k, b⟩ := c
    rw [Image.wfFrom_cons] at w
    unfold Image.write
    split
    · split
      · rw [Image.wfFrom_cons]; exact w
      · rename_i hk hv
        rw [Image.wfFrom_cons, Image.wfFrom_cons]
        exact ⟨h, hv, by omega, w.2.1, w.2.2⟩
    · split
      · split
        · exact Image.wfFrom_mono (by omega) w.2.2
        · rename_i hk he hv
          rw [Image.wfFrom_cons]
          exact ⟨h, hv, Image.wfFrom_mono (by omega) w.2.2⟩
      · rw [Image.wfFrom_cons]
        exact ⟨w.1, w.2.1, ih (k + 1) w.2.2 (by omega)⟩

/-- A write keeps the canonical form of an image. -/
theorem Image.write_wf {m : Image} (a : Nat) (v : Byte) (w : m.wf = true) : (m.write a v).wf = true :=
  Image.write_wfFrom m 0 a v w (by omega)

/-- Bytes written one after another keep it too. -/
theorem Image.writeAll_wf {m : Image} (a : Nat) (bytes : List Byte) (w : m.wf = true) :
    (m.writeAll a bytes).wf = true := by
  induction bytes generalizing m a with
  | nil => exact w
  | cons b rest ih => exact ih (a + 1) (Image.write_wf a b w)

/-- What a written image reads as: the value at the address, everything else as before. -/
theorem Image.read_write_from (m : Image) (n a : Nat) (v : Byte) (x : Nat) (w : Image.wfFrom n m = true) :
    (m.write a v).read x = if x = a then v else m.read x := by
  induction m generalizing n with
  | nil =>
    by_cases hv : v = Image.unlisted
    · simp [Image.write, hv]
    · simp only [Image.write, hv, if_false, Image.read]
      split
      · simp; omega
      · rfl
  | cons c rest ih =>
    obtain ⟨k, b⟩ := c
    rw [Image.wfFrom_cons] at w
    unfold Image.write
    split
    · rename_i hk
      split
      · rename_i hv
        by_cases hx : x = a
        · subst hx; simp [Image.read, hk, hv]
        · simp [hx]
      · simp only [Image.read]
        by_cases hx : x < a
        · have : x ≠ a := by omega
          have : x < k := by omega
          simp [*]
        · by_cases hxa : x = a
          · simp [hxa]
          · simp [hx, hxa]
    · split
      · rename_i hk he
        subst he
        split
        · rename_i hv
          by_cases hx : x = a
          · subst hx; simpa [hv] using Image.read_below w.2.2 (by omega)
          · by_cases hlt : x < a
            · simp [Image.read, hx, hlt, Image.read_below w.2.2 (show x < a + 1 by omega)]
            · simp [Image.read, hx, hlt]
        · by_cases hx : x = a
          · subst hx; simp [Image.read]
          · simp [Image.read, hx]
      · rename_i hk he
        simp only [Image.read, ih (k + 1) w.2.2]
        by_cases hx : x = a
        · subst hx; simp [hk, he]
        · simp [hx]

/-- A read after a write to the same address gives the value written. -/
theorem Image.read_write_same {m : Image} (a : Nat) (v : Byte) (w : m.wf = true) : (m.write a v).read a = v := by
  simp [Image.read_write_from m 0 a v a w]

/-- A write leaves every other address alone. -/
theorem Image.read_write_other {m : Image} {a x : Nat} (v : Byte) (w : m.wf = true) (h : x ≠ a) :
    (m.write a v).read x = m.read x := by
  simp [Image.read_write_from m 0 a v x w, h]

/-- What a run of written bytes reads as. -/
theorem Image.read_writeAll {m : Image} (a : Nat) (bytes : List Byte) (x : Nat) (w : m.wf = true) :
    (m.writeAll a bytes).read x = if a ≤ x then (bytes[x - a]?).getD (m.read x) else m.read x := by
  induction bytes generalizing m a with
  | nil => simp [Image.writeAll]
  | cons b rest ih =>
    rw [Image.writeAll, ih (a + 1) (Image.write_wf a b w), Image.read_write_from m 0 a b x w]
    by_cases hx : x = a
    · subst hx; simp
    · by_cases hle : a ≤ x
      · obtain ⟨d, rfl⟩ : ∃ d, x = a + 1 + d := ⟨x - (a + 1), by omega⟩
        have e : a + 1 + d - a = d + 1 := by omega
        simp [show a ≤ a + 1 + d by omega, e, show a + 1 + d ≠ a by omega]
      · simp [hle, show ¬a + 1 ≤ x by omega, hx]

/-- A write inside a size keeps an image inside it. -/
theorem Image.write_bound {m : Image} {a size : Nat} (v : Byte) (ha : a < size) (h : ∀ c ∈ m, c.1 < size) :
    ∀ c ∈ m.write a v, c.1 < size := by
  induction m with
  | nil =>
    intro c hc
    by_cases hv : v = Image.unlisted <;> simp [Image.write, hv] at hc
    simp [hc, ha]
  | cons y rest ih =>
    obtain ⟨k, b⟩ := y
    have ih' := ih (fun c hc => h c (by simp [hc]))
    intro c hc
    unfold Image.write at hc
    split at hc
    · split at hc
      · exact h c hc
      · rcases List.mem_cons.mp hc with rfl | hc
        · exact ha
        · exact h c hc
    · split at hc
      · split at hc
        · exact h c (by simp [hc])
        · rcases List.mem_cons.mp hc with rfl | hc
          · exact ha
          · exact h c (by simp [hc])
      · rcases List.mem_cons.mp hc with rfl | hc
        · exact h _ (by simp)
        · exact ih' c hc

theorem Image.fits_iff (m : Image) (size : Nat) :
    m.fits size = true ↔ m.wf = true ∧ ∀ c ∈ m, c.1 < size := by
  simp [Image.fits]

/-- A run of bytes that stays inside a size keeps an image inside it, in canonical form. -/
theorem Image.writeAll_fits {m : Image} {a size : Nat} (bytes : List Byte) (hb : a + bytes.length ≤ size)
    (h : m.fits size = true) : (m.writeAll a bytes).fits size = true := by
  induction bytes generalizing m a with
  | nil => exact h
  | cons b rest ih =>
    rw [Image.fits_iff] at h
    simp only [List.length_cons] at hb
    exact ih (by omega) ((Image.fits_iff _ _).2
      ⟨Image.write_wf a b h.1, Image.write_bound b (by omega) h.2⟩)

/-- The reset state's images are in canonical form. -/
theorem State.reset_tables_wf (t : TableNo) :
    ((State.reset.tables.copies t).staging.wf && (State.reset.tables.copies t).active.wf) = true := by
  cases t <;> rfl

@[simp] theorem Tables.copies_setCopies_same (t : Tables) (n : TableNo) (c : Copies) :
    (t.setCopies n c).copies n = c := by cases n <;> rfl

@[simp] theorem Tables.copies_setCopies_other (t : Tables) (n k : TableNo) (c : Copies) (h : k ≠ n) :
    (t.setCopies n c).copies k = t.copies k := by
  cases n <;> cases k <;> first | rfl | exact absurd rfl h

/-- The tables fit exactly when the copies of each do. -/
theorem Tables.fits_iff (t : Tables) : t.fits = true ↔ ∀ n : TableNo, (t.copies n).fits n.size = true := by
  constructor
  · intro h n
    simp only [Tables.fits, Bool.and_eq_true] at h
    cases n
    · exact h.1.1.1
    · exact h.1.1.2
    · exact h.1.2
    · exact h.2
  · intro h
    simp only [Tables.fits, Bool.and_eq_true]
    exact ⟨⟨⟨h .point, h .profile⟩, h .cooling⟩, h .contact⟩

/-- Replaced copies that fit keep the tables within their sizes. -/
theorem Tables.setCopies_fits {t : Tables} (n : TableNo) (c : Copies) (h : t.fits = true) (hc : c.fits n.size = true) :
    (t.setCopies n c).fits = true := by
  rw [Tables.fits_iff] at *
  intro k
  by_cases hk : k = n
  · subst hk; simpa using hc
  · simpa [hk] using h k

/-- A passed validation keeps the tables within their sizes. -/
theorem State.activate_fits (s : State) (t : TableNo) (h : s.tables.fits = true) : (s.activate t).tables.fits = true := by
  have hc := (Tables.fits_iff s.tables).1 h t
  simp only [Copies.fits, Bool.and_eq_true] at hc
  exact Tables.setCopies_fits t _ h (by simp [Copies.fits, hc.1])

/-- So does RELOAD STAGING. -/
theorem State.itemReloadStaging_fits (s : State) (h : s.tables.fits = true) :
    s.itemReloadStaging.state.tables.fits = true := by
  unfold State.itemReloadStaging
  dsimp only
  (repeat' split) <;> first | exact h | skip
  rename_i sel _ _
  have hc := (Tables.fits_iff s.tables).1 h sel.table
  simp only [Copies.fits, Bool.and_eq_true] at hc
  exact Tables.setCopies_fits _ _ h (by simp [Copies.fits, hc.2])

/-- So does table data, at any pointer. -/
theorem State.itemTableData_fits (s : State) (bytes : List Byte) (h : s.tables.fits = true) :
    (s.itemTableData bytes).state.tables.fits = true := by
  unfold State.itemTableData
  dsimp only
  split
  · exact h
  · split
    · exact h
    · rename_i sel _
      split
      · exact h
      · split
        · exact h
        · have hc := (Tables.fits_iff s.tables).1 h sel.table
          simp only [Copies.fits, Bool.and_eq_true] at hc
          refine Tables.setCopies_fits _ _ h ?_
          simp only [Copies.fits, Bool.and_eq_true]
          refine ⟨?_, hc.2⟩
          by_cases hp : sel.pointer ≤ sel.table.size
          · exact Image.writeAll_fits _ (by rw [List.length_take]; omega) hc.1
          · simpa [show sel.table.size - sel.pointer = 0 by omega, Image.writeAll] using hc.1

end Sys2Proof.Machine
end

