-- ==== Sys2Proof/WellFormed.lean ====
section
/-! DEFINITION. What a command must satisfy beyond the widths its operands already have. -/

namespace Sys2Proof

/-- The length field of a control byte names 0 to 47 bytes (R187), and trailing data is shorter still: a table-data
item never holds more than 47 bytes. -/
def maxItemBytes : Nat := 47

/-- A command that the shop loop can carry. Every other operand is well formed at every value of its width; a frame of
any length may arrive (R2 marks the over-long ones). -/
def Instr.wellFormed : Instr → Bool
  | .tableData _ bytes => decide (bytes.length ≤ maxItemBytes)
  | _ => true

end Sys2Proof
end

