-- ==== Sys2Proof/Laws/PerInstr.lean ====
section
/-! SUPPORT. A law of every command as syntax, one lemma per constructor: the item that spells a command is short
enough for any control byte, and its first byte is there (R187, R188, R211). -/

namespace Sys2Proof.Laws.EncodeLaw

/-- The bytes that spell a command are one to ten, and the command is well formed. -/
def Statement (i : Instr) : Prop :=
  ∀ bytes, encodeCommand i = some bytes → bytes ≠ [] ∧ bytes.length ≤ 10 ∧ i.wellFormed = true

theorem coldReset (addressStraps : BitVec 3) (rateStraps : BitVec 2) (rawLevels : BitVec 16) :
    Statement (.coldReset addressStraps rateStraps rawLevels) := by
  intro bytes h; cases h

theorem frameArrival (dt : Time) (bytes : List Byte) : Statement (.frameArrival dt bytes) := by
  intro bytes h; cases h

theorem linkCompletion (dt : Time) : Statement (.linkCompletion dt) := by
  intro bytes h; cases h

theorem validationComplete (dt : Time) : Statement (.validationComplete dt) := by
  intro bytes h; cases h

theorem rawLevelChange (dt : Time) (input : InputNo) (closed : Bool) : Statement (.rawLevelChange dt input closed) := by
  intro bytes h; cases h

theorem persistenceTimerExpiry (dt : Time) (input : InputNo) : Statement (.persistenceTimerExpiry dt input) := by
  intro bytes h; cases h

theorem staleTimerExpiry (dt : Time) (point : PointNo) : Statement (.staleTimerExpiry dt point) := by
  intro bytes h; cases h

theorem loopSilenceExpiry (dt : Time) : Statement (.loopSilenceExpiry dt) := by
  intro bytes h; cases h

theorem approvalTimerExpiry (dt : Time) (furnace : Furnace) : Statement (.approvalTimerExpiry dt furnace) := by
  intro bytes h; cases h

theorem holdTimerExpiry (dt : Time) (furnace : Furnace) : Statement (.holdTimerExpiry dt furnace) := by
  intro bytes h; cases h

theorem rampTimerExpiry (dt : Time) (furnace : Furnace) : Statement (.rampTimerExpiry dt furnace) := by
  intro bytes h; cases h

theorem refreshTimerExpiry (dt : Time) (furnace : Furnace) : Statement (.refreshTimerExpiry dt furnace) := by
  intro bytes h; cases h

theorem followTimerExpiry (dt : Time) (furnace : Furnace) : Statement (.followTimerExpiry dt furnace) := by
  intro bytes h; cases h

theorem startTimerExpiry (dt : Time) (circuit : CircuitNo) : Statement (.startTimerExpiry dt circuit) := by
  intro bytes h; cases h

theorem dipAgeTimerExpiry (dt : Time) (furnace : Furnace) : Statement (.dipAgeTimerExpiry dt furnace) := by
  intro bytes h; cases h

theorem tiltStartTimerExpiry (dt : Time) : Statement (.tiltStartTimerExpiry dt) := by
  intro bytes h; cases h

theorem pourTimerExpiry (dt : Time) : Statement (.pourTimerExpiry dt) := by
  intro bytes h; cases h

theorem returnTimerExpiry (dt : Time) : Statement (.returnTimerExpiry dt) := by
  intro bytes h; cases h

theorem watchdogTimerExpiry (dt : Time) : Statement (.watchdogTimerExpiry dt) := by
  intro bytes h; cases h

theorem tableData (dt : Time) (bytes : List Byte) : Statement (.tableData dt bytes) := by
  intro bytes h; cases h

theorem selectTable (dt : Time) (table copy : Byte) (offset : BitVec 16) :
    Statement (.selectTable dt table copy offset) := by
  intro bytes h; cases h; exact ⟨List.cons_ne_nil _ _, Nat.le_of_ble_eq_true rfl, rfl⟩

theorem readTable (dt : Time) (count : Byte) : Statement (.readTable dt count) := by
  intro bytes h; cases h; exact ⟨List.cons_ne_nil _ _, Nat.le_of_ble_eq_true rfl, rfl⟩

theorem commitTable (dt : Time) (table : Byte) : Statement (.commitTable dt table) := by
  intro bytes h; cases h; exact ⟨List.cons_ne_nil _ _, Nat.le_of_ble_eq_true rfl, rfl⟩

theorem reloadStaging (dt : Time) : Statement (.reloadStaging dt) := by
  intro bytes h; cases h; exact ⟨List.cons_ne_nil _ _, Nat.le_of_ble_eq_true rfl, rfl⟩

theorem setParameter (dt : Time) (number : Byte) (value : BitVec 32) : Statement (.setParameter dt number value) := by
  intro bytes h; cases h; exact ⟨List.cons_ne_nil _ _, Nat.le_of_ble_eq_true rfl, rfl⟩

theorem readParameter (dt : Time) (number : Byte) : Statement (.readParameter dt number) := by
  intro bytes h; cases h; exact ⟨List.cons_ne_nil _ _, Nat.le_of_ble_eq_true rfl, rfl⟩

theorem lock (dt : Time) : Statement (.lock dt) := by
  intro bytes h; cases h; exact ⟨List.cons_ne_nil _ _, Nat.le_of_ble_eq_true rfl, rfl⟩

theorem unlock (dt : Time) : Statement (.unlock dt) := by
  intro bytes h; cases h; exact ⟨List.cons_ne_nil _ _, Nat.le_of_ble_eq_true rfl, rfl⟩

theorem openHeat (dt : Time) (furnace : Byte) (id : BitVec 32) : Statement (.openHeat dt furnace id) := by
  intro bytes h; cases h; exact ⟨List.cons_ne_nil _ _, Nat.le_of_ble_eq_true rfl, rfl⟩

theorem drain (dt : Time) (furnace : Byte) : Statement (.drain dt furnace) := by
  intro bytes h; cases h; exact ⟨List.cons_ne_nil _ _, Nat.le_of_ble_eq_true rfl, rfl⟩

theorem setMass (dt : Time) (furnace : Byte) (mass : BitVec 32) : Statement (.setMass dt furnace mass) := by
  intro bytes h; cases h; exact ⟨List.cons_ne_nil _ _, Nat.le_of_ble_eq_true rfl, rfl⟩

theorem setBand (dt : Time) (furnace : Byte) (holdLow holdHigh tapLow tapHigh : BitVec 16) :
    Statement (.setBand dt furnace holdLow holdHigh tapLow tapHigh) := by
  intro bytes h; cases h; exact ⟨List.cons_ne_nil _ _, Nat.le_of_ble_eq_true rfl, rfl⟩

theorem approve (dt : Time) (furnace : Byte) (id : BitVec 32) (minutes : Byte) :
    Statement (.approve dt furnace id minutes) := by
  intro bytes h; cases h; exact ⟨List.cons_ne_nil _ _, Nat.le_of_ble_eq_true rfl, rfl⟩

theorem revoke (dt : Time) (furnace : Byte) : Statement (.revoke dt furnace) := by
  intro bytes h; cases h; exact ⟨List.cons_ne_nil _ _, Nat.le_of_ble_eq_true rfl, rfl⟩

theorem resetCircuit (dt : Time) (circuit : Byte) : Statement (.resetCircuit dt circuit) := by
  intro bytes h; cases h; exact ⟨List.cons_ne_nil _ _, Nat.le_of_ble_eq_true rfl, rfl⟩

theorem resetFurnace (dt : Time) (furnace : Byte) : Statement (.resetFurnace dt furnace) := by
  intro bytes h; cases h; exact ⟨List.cons_ne_nil _ _, Nat.le_of_ble_eq_true rfl, rfl⟩

theorem wdStart (dt : Time) : Statement (.wdStart dt) := by
  intro bytes h; cases h; exact ⟨List.cons_ne_nil _ _, Nat.le_of_ble_eq_true rfl, rfl⟩

theorem heartbeat (dt : Time) (token : BitVec 16) : Statement (.heartbeat dt token) := by
  intro bytes h; cases h; exact ⟨List.cons_ne_nil _ _, Nat.le_of_ble_eq_true rfl, rfl⟩

theorem wdPause (dt : Time) : Statement (.wdPause dt) := by
  intro bytes h; cases h; exact ⟨List.cons_ne_nil _ _, Nat.le_of_ble_eq_true rfl, rfl⟩

theorem wdForce (dt : Time) : Statement (.wdForce dt) := by
  intro bytes h; cases h; exact ⟨List.cons_ne_nil _ _, Nat.le_of_ble_eq_true rfl, rfl⟩

theorem wdRestart (dt : Time) : Statement (.wdRestart dt) := by
  intro bytes h; cases h; exact ⟨List.cons_ne_nil _ _, Nat.le_of_ble_eq_true rfl, rfl⟩

theorem allStop (dt : Time) (broadcast : Bool) (source : Byte) : Statement (.allStop dt broadcast source) := by
  intro bytes h; cases h; exact ⟨List.cons_ne_nil _ _, Nat.le_of_ble_eq_true rfl, rfl⟩

theorem resume (dt : Time) : Statement (.resume dt) := by
  intro bytes h; cases h; exact ⟨List.cons_ne_nil _ _, Nat.le_of_ble_eq_true rfl, rfl⟩

theorem holdTaps (dt : Time) : Statement (.holdTaps dt) := by
  intro bytes h; cases h; exact ⟨List.cons_ne_nil _ _, Nat.le_of_ble_eq_true rfl, rfl⟩

theorem releaseTaps (dt : Time) : Statement (.releaseTaps dt) := by
  intro bytes h; cases h; exact ⟨List.cons_ne_nil _ _, Nat.le_of_ble_eq_true rfl, rfl⟩

theorem ackChange (dt : Time) : Statement (.ackChange dt) := by
  intro bytes h; cases h; exact ⟨List.cons_ne_nil _ _, Nat.le_of_ble_eq_true rfl, rfl⟩

theorem setOutput (dt : Time) (output level : Byte) : Statement (.setOutput dt output level) := by
  intro bytes h; cases h; exact ⟨List.cons_ne_nil _ _, Nat.le_of_ble_eq_true rfl, rfl⟩

theorem clearCondition (dt : Time) (kind subject : Byte) : Statement (.clearCondition dt kind subject) := by
  intro bytes h; cases h; exact ⟨List.cons_ne_nil _ _, Nat.le_of_ble_eq_true rfl, rfl⟩

theorem readFurnace (dt : Time) (furnace part : Byte) : Statement (.readFurnace dt furnace part) := by
  intro bytes h; cases h; exact ⟨List.cons_ne_nil _ _, Nat.le_of_ble_eq_true rfl, rfl⟩

theorem readCircuit (dt : Time) (circuit part : Byte) : Statement (.readCircuit dt circuit part) := by
  intro bytes h; cases h; exact ⟨List.cons_ne_nil _ _, Nat.le_of_ble_eq_true rfl, rfl⟩

theorem readPoint (dt : Time) (point part : Byte) : Statement (.readPoint dt point part) := by
  intro bytes h; cases h; exact ⟨List.cons_ne_nil _ _, Nat.le_of_ble_eq_true rfl, rfl⟩

theorem readQueues (dt : Time) (part : Byte) : Statement (.readQueues dt part) := by
  intro bytes h; cases h; exact ⟨List.cons_ne_nil _ _, Nat.le_of_ble_eq_true rfl, rfl⟩

theorem readConditions (dt : Time) (part : Byte) : Statement (.readConditions dt part) := by
  intro bytes h; cases h; exact ⟨List.cons_ne_nil _ _, Nat.le_of_ble_eq_true rfl, rfl⟩

theorem readCounters (dt : Time) (part : Byte) : Statement (.readCounters dt part) := by
  intro bytes h; cases h; exact ⟨List.cons_ne_nil _ _, Nat.le_of_ble_eq_true rfl, rfl⟩

theorem clearCounters (dt : Time) : Statement (.clearCounters dt) := by
  intro bytes h; cases h; exact ⟨List.cons_ne_nil _ _, Nat.le_of_ble_eq_true rfl, rfl⟩

theorem restart (dt : Time) (source seq : Byte) : Statement (.restart dt source seq) := by
  intro bytes h; cases h; exact ⟨List.cons_ne_nil _ _, Nat.le_of_ble_eq_true rfl, rfl⟩

theorem resetPinHeldLow : Statement .resetPinHeldLow := by
  intro bytes h; cases h

end Sys2Proof.Laws.EncodeLaw
end

