-- ==== Sys2Proof/Laws/Settle.lean ====
section
/-! SUPPORT. The shared operations that end every event, each said once: the comparisons (R124), the emergency-water
tests (R149), placements (R13 to R16), the remake (R106, R107), the readiness evaluation (R156), the matching attempt
(R161), the permit test (R162), and `settle`, which is all of them in order (`State.settle_end`). -/

namespace Sys2Proof.Machine

theorem mem_furnaces (f : Furnace) : f ∈ furnaces := by revert f; decide
theorem nodup_furnaces : furnaces.Nodup := by decide
theorem mem_circuitNos (c : CircuitNo) : c ∈ circuitNos := by revert c; decide
theorem nodup_circuitNos : circuitNos.Nodup := by decide

/-- A fold over different subjects, each step of which writes its own subject's value alone. -/
theorem foldl_subject {σ β : Type} {n : Nat} (get : σ → Fin n → β) (g : σ → Fin n → σ)
    (v : σ → Fin n → β) (hother : ∀ s i j, j ≠ i → get (g s i) j = get s j) (hv : ∀ s i j, j ≠ i → v (g s i) j = v s j)
    (hself : ∀ s i, get (g s i) i = v s i) (l : List (Fin n)) (hl : l.Nodup) (s : σ) (i : Fin n) :
    get (l.foldl g s) i = if i ∈ l then v s i else get s i := by
  induction l generalizing s with
  | nil => simp
  | cons a l ih =>
    obtain ⟨ha, hl⟩ := List.nodup_cons.1 hl
    rw [List.foldl_cons, ih hl]
    by_cases h : i = a
    · subst h; simp [ha, hself]
    · simp only [List.mem_cons, h, false_or]
      split
      · exact hv s a i h
      · exact hother s a i h

theorem compareChanged_holding (s0 s : State) (f : Furnace) :
    (s0.compareChanged s).holding[f] =
      if s0.heats[f].holdingInputs = s.heats[f].holdingInputs then s.holding[f]
      else s.holding[f].after s.heats[f] (s.profile f) s.time := by
  unfold State.compareChanged
  refine (foldl_subject (get := fun s f => s.holding[f])
    (v := fun s f => if s0.heats[f].holdingInputs = s.heats[f].holdingInputs then s.holding[f]
      else s.holding[f].after s.heats[f] (s.profile f) s.time) _ ?_ ?_ ?_ furnaces nodup_furnaces s f).trans ?_
  · intro s i j h
    split
    · rfl
    · exact State.setHolding_other s _ (Ne.symm h)
  · intro s i j h
    split
    · rfl
    · unfold State.compare
      generalize s.holding[i].after s.heats[i] (s.profile i) s.time = x
      have e := State.setHolding_other s x (Ne.symm h)
      have p : (s.setHolding i x).profile j = s.profile j := rfl
      simp only [e, p, State.setHolding_heats, State.setHolding_time]
  · intro s i
    split
    · rfl
    · simp [State.compare]
  · simp [mem_furnaces]

theorem waterTest_same (s : State) (c : CircuitNo) :
    (s.waterTest c).circuits[c] =
      if s.circuits[c].state = .trip ∧ s.metalBehind c = true then { s.circuits[c] with water := true }
      else s.circuits[c] := by
  unfold State.waterTest; dsimp only; split <;> simp

theorem waterTest_other (s : State) {c d : CircuitNo} (h : d ≠ c) : (s.waterTest c).circuits[d] = s.circuits[d] := by
  unfold State.waterTest; dsimp only; split
  · exact State.setCircuit_other s _ (Ne.symm h)
  · rfl

theorem waterTest_metalBehind (s : State) (c d : CircuitNo) : (s.waterTest c).metalBehind d = s.metalBehind d := by
  unfold State.metalBehind State.coilOf State.rated State.profile
  simp only [State.waterTest_frame]

theorem waterChanged_circuits (s0 s : State) (c : CircuitNo) :
    (s0.waterChanged s).circuits[c] =
      if s0.waterMoved s c = true ∧ s.circuits[c].state = .trip ∧ s.metalBehind c = true then
        { s.circuits[c] with water := true }
      else s.circuits[c] := by
  have h := foldl_subject (get := fun s c => s.circuits[c])
    (fun (t : State) c => if s0.waterMoved s c then t.waterTest c else t)
    (fun t c => if s0.waterMoved s c = true then (t.waterTest c).circuits[c] else t.circuits[c])
    (fun t i j h => by split; exacts [waterTest_other t h, rfl])
    (fun t i j h => by
      by_cases m : s0.waterMoved s i = true
      · simp only [m, if_true]; rw [waterTest_same, waterTest_same, waterTest_other t h, waterTest_metalBehind]
      · simp only [m]; rfl)
    (fun t i => by split <;> rfl) circuitNos nodup_circuitNos s c
  rw [if_pos (mem_circuitNos c), waterTest_same] at h
  refine h.trans ?_
  by_cases m : s0.waterMoved s c = true <;> simp [m]

/-- The circuits' states, which is all that other blocks read of them, do not move at a request test. -/
theorem waterChanged_state (s0 s : State) (c : CircuitNo) :
    (s0.waterChanged s).circuits[c].state = s.circuits[c].state := by
  rw [waterChanged_circuits]; split <;> rfl

theorem waterMoved_iff (s0 s : State) (c : CircuitNo) : s0.waterMoved s c = true ↔ waterTested s0 s c := by
  unfold State.waterMoved waterTested
  simp [List.any_eq_true, mem_furnaces, or_assoc]

/-! ### Placements -/

/-- What a placement can move of the loop port. -/
structure Placed (l l' : LoopPort) : Prop where
  station : l'.station = l.station
  lineRate : l'.lineRate = l.lineRate
  receiver : l'.receiver = l.receiver
  live : l'.live = l.live
  lastValid : l'.lastValid = l.lastValid
  counters : l'.counters = { l.counters with statusDrops := l'.counters.statusDrops }
  busy : l.link ≠ .idle → l' = { l with
    orders := l'.orders, permits := l'.permits, statuses := l'.statuses, counters := l'.counters }

theorem Placed.refl (l : LoopPort) : Placed l l := by constructor <;> simp

theorem Placed.trans {a b c : LoopPort} (h : Placed a b) (k : Placed b c) : Placed a c := by
  constructor
  · rw [k.station, h.station]
  · rw [k.lineRate, h.lineRate]
  · rw [k.receiver, h.receiver]
  · rw [k.live, h.live]
  · rw [k.lastValid, h.lastValid]
  · rw [k.counters, h.counters]
  · intro n
    have hb := h.busy n
    have hl : b.link = a.link := by rw [hb]
    have kb := k.busy (by rw [hl]; exact n)
    rw [hb] at kb
    exact kb

theorem takeInsert_fixed (l : LoopPort) (p : Pick) :
    (l.takeInsert p).station = l.station ∧ (l.takeInsert p).lineRate = l.lineRate
    ∧ (l.takeInsert p).receiver = l.receiver ∧ (l.takeInsert p).live = l.live
    ∧ (l.takeInsert p).lastValid = l.lastValid ∧ (l.takeInsert p).counters = l.counters := by
  unfold LoopPort.takeInsert LoopPort.originate
  cases p <;> dsimp only <;> split <;> simp

theorem take_fixed (l : LoopPort) :
    l.take.station = l.station ∧ l.take.lineRate = l.lineRate ∧ l.take.receiver = l.receiver ∧ l.take.live = l.live
    ∧ l.take.lastValid = l.lastValid ∧ l.take.counters = l.counters := by
  unfold LoopPort.take
  (repeat' split) <;> simp [takeInsert_fixed]

theorem kick_fixed (l : LoopPort) :
    l.kick.station = l.station ∧ l.kick.lineRate = l.lineRate ∧ l.kick.receiver = l.receiver ∧ l.kick.live = l.live
    ∧ l.kick.lastValid = l.lastValid ∧ l.kick.counters = l.counters := by
  unfold LoopPort.kick
  split <;> simp [take_fixed]

/-- A busy link takes nothing at a placement. -/
theorem kick_busy (l : LoopPort) (h : l.link ≠ .idle) : l.kick = l := by
  unfold LoopPort.kick
  split
  · contradiction
  · rfl

theorem kick_placed (l : LoopPort) : Placed l l.kick := by
  constructor <;> try simp [kick_fixed]
  intro h; rw [kick_busy l h]

theorem placeOrder_placed (l : LoopPort) (f : Furnace) (r : OrderRec) : Placed l (l.placeOrder f r) :=
  Placed.trans (by constructor <;> simp) (kick_placed _)

theorem placePermit_placed (l : LoopPort) (f : Furnace) (r : PermitRec) : Placed l (l.placePermit f r) :=
  Placed.trans (by constructor <;> simp) (kick_placed _)

theorem placeStatus_placed (l : LoopPort) (x : Status) : Placed l (l.placeStatus x) := by
  unfold LoopPort.placeStatus
  split <;> exact Placed.trans (by constructor <;> simp) (kick_placed _)

/-! ### The remake -/

theorem State.placeOrder_placed (s : State) (f : Furnace) (c : OrderClass) : Placed s.loop (s.placeOrder f c).loop := by
  unfold State.placeOrder
  split
  · exact Sys2Proof.Machine.placeOrder_placed _ _ _
  · exact Placed.refl _

theorem State.placeOrder_power (s : State) (f g : Furnace) (c : OrderClass) :
    (s.placeOrder f c).power[g] = { s.power[g] with refresh := (s.placeOrder f c).power[g].refresh } := by
  unfold State.placeOrder
  split
  · by_cases h : g = f
    · subst h; simp
    · dsimp only; simp [Fin.val_ne_of_ne (Ne.symm h)]
  · rfl

theorem State.setIssued_placed (s : State) (f : Furnace) (v : Nat) (c : OrderClass) :
    Placed s.loop (s.setIssued f v c).loop := by
  unfold State.setIssued
  simpa using State.placeOrder_placed (s.setPower f { s.power[f] with issued := v, follow := s.power[f].follow.restart s.time }) f c

theorem State.applyGrant_placed (s : State) (f : Furnace) (d g : Nat) : Placed s.loop (s.applyGrant f d g).loop := by
  unfold State.applyGrant
  dsimp only
  split
  · simpa using State.setIssued_placed (s.setPower f { s.power[f] with demand := d, grant := g, ramp := .idle }) f g
      (if g = 0 then .safety else .normal)
  · split <;> simpa using Placed.refl s.loop

theorem State.placeOrder_power_other (s : State) {f g : Furnace} (c : OrderClass) (h : g ≠ f) :
    (s.placeOrder f c).power[g] = s.power[g] := by
  unfold State.placeOrder
  split
  · exact State.setPower_other _ _ (Ne.symm h)
  · rfl

theorem State.applyGrant_other (s : State) {f h : Furnace} (d g : Nat) (n : h ≠ f) :
    (s.applyGrant f d g).power[h] = s.power[h] := by
  unfold State.applyGrant
  dsimp only
  split
  · unfold State.setIssued
    rw [State.placeOrder_power_other _ _ n]
    rw [State.setPower_other _ _ (Ne.symm n), State.setPower_other _ _ (Ne.symm n)]
  · split <;> exact State.setPower_other _ _ (Ne.symm n)

/-- What a remake gives one furnace. -/
theorem State.applyGrant_same (s : State) (f : Furnace) (d g : Nat) :
    (s.applyGrant f d g).power[f] = { s.power[f] with
      demand := d, grant := g, issued := min s.power[f].issued g
      ramp := if s.power[f].issued < g then s.power[f].ramp.ensure s.time else .idle
      follow := if g < s.power[f].issued then s.power[f].follow.restart s.time else s.power[f].follow
      refresh := if g < s.power[f].issued ∧ 0 < (s.profile f).rated then .running s.time s.mgmt.params.orderRefresh
        else s.power[f].refresh } := by
  simp only [Fin.getElem_fin]
  by_cases h : g < s.power[f.val].issued
  · have h1 : ¬s.power[f.val].issued < g := by omega
    have h2 : min s.power[f.val].issued g = g := by omega
    by_cases r : 0 < (profileEntry s.tables.profile.active f).rated <;>
      simp [State.applyGrant, State.setIssued, State.placeOrder, State.rated, State.profile, h, h1, h2, r]
  · by_cases e : s.power[f.val].issued = g
    · simp [State.applyGrant, e]
    · have h3 : s.power[f.val].issued < g := by omega
      have h2 : min s.power[f.val].issued g = s.power[f.val].issued := by omega
      simp [State.applyGrant, h, e, h3, h2]

/-- What a remake places for one furnace. -/
theorem State.applyGrant_loop (s : State) (f : Furnace) (d g : Nat) :
    (s.applyGrant f d g).loop =
      if g < s.power[f].issued ∧ 0 < (s.profile f).rated then
        s.loop.placeOrder f
          { value := g, station := (s.profile f).inverter, channel := (s.profile f).channel,
            cls := if g = 0 then .safety else .normal }
      else s.loop := by
  simp only [Fin.getElem_fin]
  by_cases h : g < s.power[f.val].issued
  · by_cases r : 0 < (profileEntry s.tables.profile.active f).rated <;>
      simp [State.applyGrant, State.setIssued, State.placeOrder, State.rated, State.profile, h, r]
  · by_cases e : s.power[f.val].issued = g <;> simp [State.applyGrant, h, e]

theorem State.remake_placed (s : State) : Placed s.loop s.remake.loop := by
  unfold State.remake
  dsimp only
  generalize s.served s.demands = g
  generalize s.demands = d
  generalize furnaces = l
  induction l generalizing s with
  | nil => exact Placed.refl _
  | cons a l ih => exact Placed.trans (State.applyGrant_placed s a _ _) (ih _)

/-- What a remake gives every furnace. -/
theorem State.remake_power (s : State) (f : Furnace) :
    s.remake.power[f] = (s.applyGrant f (s.demandOf f) (grantOf (s.served s.demands) f)).power[f] := by
  unfold State.remake
  dsimp only
  have hd : s.demands[f] = s.demandOf f := by simp [State.demands]
  rw [← hd]
  generalize s.served s.demands = g
  generalize s.demands = d
  have h := foldl_subject (fun (s : State) (f : Furnace) => (s.power[f], s.time, s.tables, s.mgmt))
    (fun (s : State) f => s.applyGrant f d[f] (grantOf g f))
    (fun s f => ((s.applyGrant f d[f] (grantOf g f)).power[f], s.time, s.tables, s.mgmt))
    (fun s i j h => by
      have e := State.applyGrant_other s d[i] (grantOf g i) h
      simp only [Fin.getElem_fin] at e ⊢
      simp [e])
    (fun s i j h => by
      have e := State.applyGrant_other s d[i] (grantOf g i) h
      have p : (s.applyGrant i d[i] (grantOf g i)).profile j = s.profile j := by unfold State.profile; simp
      rw [State.applyGrant_same, State.applyGrant_same, e, p]
      simp)
    (fun s i => by simp) furnaces nodup_furnaces s f
  rw [if_pos (mem_furnaces f)] at h
  exact (Prod.mk.inj h).1

/-- What a remake places: a cut order for each furnace whose I it lowers. -/
theorem State.remake_loop (s : State) : s.remake.loop = furnaces.foldl (cutOrder s s.remake) s.loop := by
  have hp : ∀ f, s.remake.profile f = s.profile f := by intro f; unfold State.profile; simp
  have hc : ∀ (l : LoopPort) f, cutOrder s s.remake l f =
      if grantOf (s.served s.demands) f < s.power[f].issued ∧ 0 < (s.profile f).rated then
        l.placeOrder f
          { value := grantOf (s.served s.demands) f, station := (s.profile f).inverter,
            channel := (s.profile f).channel,
            cls := if grantOf (s.served s.demands) f = 0 then .safety else .normal }
      else l := by
    intro l f
    unfold cutOrder
    simp only [hp, State.remake_power, State.applyGrant_same]
    by_cases h : grantOf (s.served s.demands) f < s.power[f].issued
    · have h2 : min s.power[f].issued (grantOf (s.served s.demands) f) = grantOf (s.served s.demands) f := by omega
      simp only [h2]
    · have h2 : ¬min s.power[f].issued (grantOf (s.served s.demands) f) < s.power[f].issued := by omega
      simp only [h, h2, false_and, if_false]
  have hf : ∀ (l : List Furnace) (w : State), l.Nodup → (∀ f ∈ l, w.power[f] = s.power[f]) → w.tables = s.tables →
      (l.foldl (fun w f => w.applyGrant f s.demands[f] (grantOf (s.served s.demands) f)) w).loop
        = l.foldl (cutOrder s s.remake) w.loop := by
    intro l
    induction l with
    | nil => intros; rfl
    | cons a l ih =>
      intro w hn hw ht
      obtain ⟨ha, hn⟩ := List.nodup_cons.1 hn
      rw [List.foldl_cons, List.foldl_cons, ih _ hn ?_ (by simpa using ht)]
      · have e : w.profile a = s.profile a := by unfold State.profile; rw [ht]
        rw [hc, State.applyGrant_loop, e, hw a (by simp)]
      · intro f hf
        rw [State.applyGrant_other _ _ _ (by rintro rfl; exact ha hf)]
        exact hw f (List.mem_cons_of_mem _ hf)
  exact hf furnaces s nodup_furnaces (fun _ _ => rfl) rfl

/-! ### Readiness -/

/-- A comparison does not see which of the holding phases a heat is in, and a second one changes nothing. -/
theorem Holding.after_assigned (x : Holding) (h : Heat) (p : Profile) (now : Time) (hp : h.phase = .holding) :
    (x.after h p now).after { h with phase := .tapAssigned } p now
      = x.after { h with phase := .tapAssigned } p now := by
  have e : ({ h with phase := .tapAssigned } : Heat).compare = h.compare := rfl
  simp [Holding.after, hp, Phase.isHolding, e]

/-- The furnaces of the ready list after an evaluation are the ready ones. -/
theorem State.listedAnew_mem (s : State) (f : Furnace) :
    f ∈ s.listedAnew.map (·.furnace) ↔ s.isReady f = true := by
  unfold State.listedAnew Taps.readyFurnaces
  simp only [List.map_append, List.map_map, List.mem_append, List.mem_map, List.mem_filter, Function.comp]
  constructor
  · rintro (⟨r, ⟨_, h⟩, rfl⟩ | ⟨g, ⟨_, h⟩, rfl⟩)
    · exact h
    · simp at h; exact h.1
  · intro h
    by_cases k : ∃ r ∈ s.taps.ready, r.furnace = f
    · obtain ⟨r, hr, rfl⟩ := k; exact Or.inl ⟨r, ⟨hr, h⟩, rfl⟩
    · exact Or.inr ⟨f, ⟨mem_furnaces f, by simpa [h] using k⟩, rfl⟩

/-- What readiness reads: nothing of the power, the ready list or the station. -/
theorem State.isReady_congr {s t : State} (f : Furnace) (hh : t.heats[f] = s.heats[f]) (ht : t.tables = s.tables)
    (hd : t.taps.dipAge = s.taps.dipAge) (hc : ∀ c : CircuitNo, t.circuits[c].state = s.circuits[c].state)
    (hw : t.watch = s.watch) : t.isReady f = s.isReady f := by
  have hcs : ∀ n, t.circuitState n = s.circuitState n := by
    intro n; unfold State.circuitState
    cases circuitOf n.toNat <;> simp
    rename_i c; exact hc c
  unfold State.isReady State.availableMass State.profile State.circuitFit
  simp only [hh, ht, hd, hw, hcs]

/-- What the demands read. -/
theorem State.demandOf_congr {s t : State} (f : Furnace) (hh : t.heats[f] = s.heats[f]) (ht : t.tables = s.tables)
    (hc : ∀ c : CircuitNo, t.circuits[c].state = s.circuits[c].state) (hw : t.watch = s.watch)
    (hl : t.holding[f] = s.holding[f]) (hs : t.intake = s.intake) (ho : t.power[f].ordered = s.power[f].ordered) :
    t.demandOf f = s.demandOf f := by
  have hcs : ∀ n, t.circuitState n = s.circuitState n := by
    intro n; unfold State.circuitState
    cases circuitOf n.toNat <;> simp
    rename_i c; exact hc c
  have hcn : ∀ n, t.contribution n = s.contribution n := by
    intro n; unfold State.contribution State.circuitDerate State.cooling
    cases circuitOf n.toNat <;> simp [ht]
    rename_i c; have := hc c; simp only [Fin.getElem_fin] at this; rw [this]
  unfold State.demandOf State.cappedDemand State.baseDemand State.rated State.onCircuitIn State.derate State.profile
  simp only [hh, ht, hw, hcs, hcn, hl, hs, ho]

/-- The state after the comparisons, the water tests and the readiness evaluation. -/
def State.evaluated (s0 s : State) : State := (s0.waterChanged (s0.compareChanged s)).evaluateReady

/-- What those leave. -/
structure Evaluated (s0 s c : State) : Prop where
  frame : c.pending = s.pending ∧ c.time = s.time ∧ c.intake = s.intake ∧ c.tables = s.tables
    ∧ c.watch = s.watch ∧ c.mgmt = s.mgmt ∧ c.loop = s.loop ∧ c.heats = s.heats ∧ c.power = s.power
    ∧ c.pinLow = s.pinLow ∧ c.orderClamps = s.orderClamps ∧ c.contacts = s.contacts
  taps : c.taps = { s.taps with ready := s.listedAnew }
  ready : ∀ f : Furnace, c.isReady f = s.isReady f
  holding : ∀ f : Furnace, c.holding[f] =
    if s0.heats[f].holdingInputs = s.heats[f].holdingInputs then s.holding[f]
    else s.holding[f].after s.heats[f] (s.profile f) s.time
  circuits : ∀ k : CircuitNo, c.circuits[k] =
    if s0.waterMoved s k = true ∧ s.circuits[k].state = .trip ∧ s.metalBehind k = true then
      { s.circuits[k] with water := true }
    else s.circuits[k]

theorem State.evaluated_spec (s0 s : State) : Evaluated s0 s (s0.evaluated s) := by
  have hm : ∀ c, (s0.compareChanged s).metalBehind c = s.metalBehind c := by
    intro c; unfold State.metalBehind State.coilOf State.rated State.profile
    simp only [State.compareChanged_frame]
  have hw : ∀ c, s0.waterMoved (s0.compareChanged s) c = s0.waterMoved s c := by
    intro c; unfold State.waterMoved State.coilOf State.rated State.profile
    simp only [State.compareChanged_frame]
  have hr : ∀ u : State, u.heats = s.heats → u.tables = s.tables → u.taps.dipAge = s.taps.dipAge → u.watch = s.watch →
      (∀ c : CircuitNo, u.circuits[c].state = s.circuits[c].state) → ∀ f, u.isReady f = s.isReady f :=
    fun u h1 h2 h3 h4 h5 f => State.isReady_congr f (by rw [h1]) h2 h3 h5 h4
  have hs : ∀ c : CircuitNo, (s0.waterChanged (s0.compareChanged s)).circuits[c].state = s.circuits[c].state := by
    intro c; rw [waterChanged_state]; simp
  unfold State.evaluated
  refine ⟨by simp, ?_, ?_, ?_, ?_⟩
  · have e := hr (s0.waterChanged (s0.compareChanged s)) (by simp) (by simp) (by simp) (by simp) hs
    unfold State.evaluateReady State.readyList State.listedAnew Taps.readyFurnaces
    simp only [State.withTaps_taps, State.waterChanged_frame, State.compareChanged_frame, e]
    congr 5
    funext f
    congr 1
    rw [Bool.eq_iff_iff]
    simp
  · refine hr _ (by simp) (by simp) (by simp) (by simp) ?_
    intro c; simpa using hs c
  · intro f
    rw [← compareChanged_holding s0 s f]
    simp
  · intro k
    have w := waterChanged_circuits s0 (s0.compareChanged s) k
    rw [hm, hw] at w
    simpa using w

/-- After `driveOutputs` every output is at its level. -/
theorem State.driveOutputs_level (s : State) (o : OutputNo) :
    s.driveOutputs.contacts.driven[o] = s.driveOutputs.outputLevel o := by
  have e : s.driveOutputs.outputLevel o = s.outputLevel o := by
    unfold State.outputLevel State.alarm State.manualLevel State.output
    simp only [State.driveOutputs_frame]
  rw [e]
  simp [State.driveOutputs]

/-! ### The matching attempt -/

theorem State.qualifies_iff {c s : State} (d : Demand) (r : Ready) (hh : c.heats = s.heats) (ht : c.tables = s.tables) :
    c.qualifies d r = true ↔ s.suits d r.furnace := by
  unfold State.qualifies State.suits State.availableMass State.profile Heat.tempWithin
  rw [hh, ht]
  simp only [Bool.and_eq_true, decide_eq_true_eq]
  refine and_congr_right fun _ => ?_
  cases s.heats[r.furnace].temp <;> simp

/-- The matching attempt makes the match of R161 where there is one, and no other. -/
theorem State.attempt_spec (s0 s : State) (x : Causes) :
    (∀ d f, (s0.attempt (s0.evaluated s) x).2 = some (d, f) ↔ Matched s0 s x d f)
    ∧ (s0.attempt (s0.evaluated s) x).1 = match (s0.attempt (s0.evaluated s) x).2 with
      | some (d, f) => ((s0.evaluated s).assign d f).compare f
      | none => s0.evaluated s := by
  have E := State.evaluated_spec s0 s
  generalize s0.evaluated s = c at E
  have hh : c.heats = s.heats := E.frame.2.2.2.2.2.2.2.1
  have ht : c.tables = s.tables := E.frame.2.2.2.1
  have ha : s0.attempts c x = true ↔ attemptMade s0 s x := by
    unfold State.attempts State.readyMoved attemptMade
    rw [E.taps, hh]
    simp only [Bool.or_eq_true, Bool.not_eq_true', decide_eq_false_iff_not, List.any_eq_true, Bool.and_eq_false_iff, ne_eq]
    grind
  have hm : ∀ d f, c.matching = some (d, f) ↔ s.taps.station = .idle ∧ s.taps.held = false
      ∧ s.taps.queue.head? = some d ∧ ∃ before r after, s.listedAnew = before ++ r :: after ∧ r.furnace = f
        ∧ s.suits d f ∧ ∀ y ∈ before, ¬s.suits d y.furnace := by
    intro d f
    unfold State.matching
    rw [E.taps]
    dsimp only
    cases s.taps.station <;> cases s.taps.held <;> cases s.taps.queue <;> try simp
    rename_i d' rest
    constructor
    · rintro ⟨r, hr, rfl, rfl⟩
      obtain ⟨q, before, after, e, n⟩ := List.find?_eq_some_iff_append.1 hr
      refine ⟨rfl, before, r, ⟨after, e⟩, rfl, (State.qualifies_iff _ _ hh ht).1 q, fun y hy k => ?_⟩
      have := n y hy
      rw [(State.qualifies_iff _ _ hh ht).2 k] at this
      cases this
    · rintro ⟨rfl, before, r, ⟨after, e⟩, rfl, q, n⟩
      refine ⟨r, List.find?_eq_some_iff_append.2 ⟨(State.qualifies_iff _ _ hh ht).2 q, before, after, e, ?_⟩, rfl, rfl⟩
      intro y hy
      have := n y hy
      rw [← State.qualifies_iff d' y hh ht] at this
      simpa using this
  unfold State.attempt
  by_cases a : s0.attempts c x = true
  · rw [if_pos a]
    cases h : c.matching with
    | none =>
      refine ⟨fun d f => ⟨fun k => (by cases k), fun k => ?_⟩, rfl⟩
      rw [(hm d f).2 ⟨k.station, k.held, k.head, k.oldest⟩] at h
      cases h
    | some y =>
      obtain ⟨d', f'⟩ := y
      refine ⟨fun d f => ⟨fun k => ?_, fun k => ?_⟩, rfl⟩
      · simp only [Option.some.injEq] at k
        rw [k] at h
        obtain ⟨h1, h2, h3, h4⟩ := (hm d f).1 h
        exact ⟨ha.1 a, h1, h2, h3, h4⟩
      · rw [(hm d f).2 ⟨k.station, k.held, k.head, k.oldest⟩] at h
        simp only [Option.some.injEq] at h
        rw [h]
  · rw [if_neg a]
    exact ⟨fun d f => ⟨fun k => (by cases k), fun k => absurd (ha.2 k.attempt) a⟩, rfl⟩

/-- What a match leaves. -/
theorem State.assigned_spec (c : State) (d : Demand) (f : Furnace) :
    ((c.assign d f).compare f).heats = c.heats.set f { c.heats[f] with phase := .tapAssigned }
    ∧ ((c.assign d f).compare f).taps = { c.taps with
        queue := c.taps.queue.tail, station := .assigned,
        pour := some { demand := d, furnace := f, drive := none, tare := none, poured := 0, abort := false },
        ready := c.taps.ready.filter fun r => !decide (r.furnace = f) }
    ∧ (∀ g : Furnace, ((c.assign d f).compare f).holding[g] =
        if g = f then c.holding[f].after { c.heats[f] with phase := .tapAssigned } (c.profile f) c.time
        else c.holding[g]) := by
  refine ⟨by simp [State.assign], by simp [State.assign], ?_⟩
  intro g
  by_cases h : g = f
  · subst h; simp [State.compare, State.assign, State.profile]
  · rw [if_neg h]
    unfold State.compare
    rw [State.setHolding_other _ _ (Ne.symm h)]
    simp

/-- A ready furnace is in HOLDING. -/
theorem State.isReady_phase {s : State} {f : Furnace} (h : s.isReady f = true) : s.heats[f].phase = .holding := by
  unfold State.isReady at h
  simp only [Bool.and_eq_true, decide_eq_true_eq] at h
  exact h.1.1.1.1.1.1.1.1.1

/-- The state before the remake, as the matching attempt with the match `m` leaves it. -/
structure Attempted (s0 s v : State) (m : Option (Demand × Furnace)) : Prop where
  frame : v.pending = s.pending ∧ v.time = s.time ∧ v.intake = s.intake ∧ v.tables = s.tables
    ∧ v.watch = s.watch ∧ v.mgmt = s.mgmt ∧ v.loop = s.loop ∧ v.power = s.power
    ∧ v.pinLow = s.pinLow ∧ v.orderClamps = s.orderClamps ∧ v.contacts = s.contacts
  circuits : ∀ k : CircuitNo, v.circuits[k] =
    if s0.waterMoved s k = true ∧ s.circuits[k].state = .trip ∧ s.metalBehind k = true then
      { s.circuits[k] with water := true }
    else s.circuits[k]
  taps : v.taps = { s.taps with
    ready := s.listedAnew.filter fun r => decide (m.map (·.2) ≠ some r.furnace)
    queue := if m.isSome then s.taps.queue.tail else s.taps.queue
    station := (s.stationAfter m).1, pour := (s.stationAfter m).2 }
  heats : v.heats = s.heatsAfter m
  ready : ∀ f : Furnace, f ∈ v.taps.readyFurnaces ↔ v.isReady f = true
  holding : ∀ f : Furnace, v.holding[f] =
    if s0.heats[f].holdingInputs = s.heats[f].holdingInputs ∧ v.heats[f] = s.heats[f] then s.holding[f]
    else s.holding[f].after v.heats[f] (s.profile f) s.time

theorem Evaluated.state {s0 s c : State} (h : Evaluated s0 s c) (k : CircuitNo) :
    c.circuits[k].state = s.circuits[k].state := by
  rw [h.circuits k]; split <;> rfl

theorem State.attempted_none {s0 s c : State} (E : Evaluated s0 s c) : Attempted s0 s c none := by
  obtain ⟨e1, e2, e3, e4, e5, e6, e7, e8, e9, e10, e11, e12⟩ := E.frame
  refine ⟨⟨e1, e2, e3, e4, e5, e6, e7, e9, e10, e11, e12⟩, E.circuits, ?_, e8, ?_, ?_⟩
  · rw [E.taps]
    simp [State.stationAfter]
  · intro f
    rw [E.ready f, ← State.listedAnew_mem, Taps.readyFurnaces, E.taps]
  · intro f
    have := E.holding f
    simpa only [e8, and_true] using this

theorem State.attempted_some {s0 s c : State} (E : Evaluated s0 s c) {d : Demand} {f : Furnace}
    (hf : s.isReady f = true) : Attempted s0 s ((c.assign d f).compare f) (some (d, f)) := by
  obtain ⟨e1, e2, e3, e4, e5, e6, e7, e8, e9, e10, e11, e12⟩ := E.frame
  have hp := State.isReady_phase hf
  obtain ⟨v1, v2, v3⟩ := State.assigned_spec c d f
  have vf : ((c.assign d f).compare f).pending = c.pending ∧ ((c.assign d f).compare f).time = c.time
      ∧ ((c.assign d f).compare f).intake = c.intake ∧ ((c.assign d f).compare f).tables = c.tables
      ∧ ((c.assign d f).compare f).watch = c.watch ∧ ((c.assign d f).compare f).mgmt = c.mgmt
      ∧ ((c.assign d f).compare f).loop = c.loop ∧ ((c.assign d f).compare f).power = c.power
      ∧ ((c.assign d f).compare f).pinLow = c.pinLow ∧ ((c.assign d f).compare f).orderClamps = c.orderClamps
      ∧ ((c.assign d f).compare f).contacts = c.contacts ∧ ((c.assign d f).compare f).circuits = c.circuits := by
    simp
  generalize (c.assign d f).compare f = v at *
  obtain ⟨w1, w2, w3, w4, w5, w6, w7, w8, w9, w10, w11, w12⟩ := vf
  have hv : ∀ g : Furnace, v.heats[g] = if g = f then { s.heats[f] with phase := .tapAssigned } else s.heats[g] := by
    intro g
    rw [v1, e8]
    by_cases h : g = f
    · subst h; simp
    · simp [h, Fin.val_ne_of_ne (Ne.symm h)]
  refine ⟨⟨w1.trans e1, w2.trans e2, w3.trans e3, w4.trans e4, w5.trans e5, w6.trans e6, w7.trans e7, w8.trans e9,
    w9.trans e10, w10.trans e11, w11.trans e12⟩, ?_, ?_, by rw [v1, e8]; rfl, ?_, ?_⟩
  · intro k; rw [w12]; exact E.circuits k
  · rw [v2, E.taps]
    simp only [State.stationAfter, Option.isSome_some, if_true, Option.map_some]
    congr 2
    funext r
    by_cases h : r.furnace = f
    · simp [h]
    · simp [h, Ne.symm h]
  · intro g
    by_cases h : g = f
    · subst h
      constructor
      · intro hm
        rw [v2] at hm
        simp only [Taps.readyFurnaces, List.mem_map, List.mem_filter] at hm
        obtain ⟨r, ⟨_, h⟩, e⟩ := hm
        simp [e] at h
      · intro hr
        have := State.isReady_phase hr
        rw [hv] at this
        simp at this
    · have r : v.isReady g = s.isReady g :=
        (State.isReady_congr g (by rw [hv, e8]; simp [h]) w4 (by rw [v2]) (by intro k; rw [w12]) w5).trans (E.ready g)
      rw [r, ← State.listedAnew_mem, v2, E.taps]
      simp only [Taps.readyFurnaces, List.mem_map, List.mem_filter, Bool.not_eq_true', decide_eq_false_iff_not]
      constructor
      · rintro ⟨a, ⟨b, _⟩, rfl⟩; exact ⟨a, b, rfl⟩
      · rintro ⟨a, b, rfl⟩; exact ⟨a, ⟨b, h⟩, rfl⟩
  · intro g
    have ep : c.profile f = s.profile f := by unfold State.profile; rw [e4]
    rw [v3 g, hv g]
    by_cases h : g = f
    · subst h
      have ne : ¬({ s.heats[g] with phase := .tapAssigned } : Heat) = s.heats[g] := by
        intro k
        have := congrArg Heat.phase k
        rw [hp] at this; simp at this
      simp only [if_true, ne, and_false, if_false]
      rw [E.holding g, ep, e2, e8]
      split
      · rfl
      · exact Holding.after_assigned _ _ _ _ hp
    · simp only [h, if_false, and_true]
      exact E.holding g

/-- The matched furnace is ready. -/
theorem Matched.isReady {s u : State} {x : Causes} {d : Demand} {f : Furnace} (h : Matched s u x d f) :
    u.isReady f = true := by
  obtain ⟨before, r, after, e, hr, _⟩ := h.oldest
  rw [← State.listedAnew_mem, e, ← hr]
  simp

theorem State.attempted_spec (s0 s : State) (x : Causes) :
    Attempted s0 s (s0.attempt (s0.evaluated s) x).1 (s0.attempt (s0.evaluated s) x).2 := by
  have E := State.evaluated_spec s0 s
  obtain ⟨a, b⟩ := State.attempt_spec s0 s x
  rw [b]
  generalize (s0.attempt (s0.evaluated s) x).2 = m at a
  cases m with
  | none => exact State.attempted_none E
  | some y => exact State.attempted_some E ((a y.1 y.2).1 rfl).isReady

/-! ### From the remake on -/

/-- The remake of an event that moved an input. -/
theorem State.remakeChanged_spec (s0 s : State) :
    (s0.remakeChanged s).loop = furnaces.foldl (cutOrder s (s0.remakeChanged s)) s.loop
    ∧ (s0.allocInputs = s.allocInputs → (s0.remakeChanged s).power = s.power)
    ∧ (s0.allocInputs ≠ s.allocInputs → ∀ f : Furnace, (s0.remakeChanged s).power[f]
        = (s.applyGrant f (s.demandOf f) (grantOf (s.served s.demands) f)).power[f])
    ∧ ∀ f : Furnace, (s0.remakeChanged s).power[f].ordered = s.power[f].ordered := by
  unfold State.remakeChanged
  split
  · rename_i h
    refine ⟨?_, fun _ => rfl, fun n => absurd h n, fun _ => rfl⟩
    have : cutOrder s s = fun l _ => l := by funext l f; simp [cutOrder]
    rw [this]; rfl
  · rename_i h
    refine ⟨State.remake_loop s, fun n => absurd n h, fun _ => State.remake_power s, fun f => ?_⟩
    rw [State.remake_power, State.applyGrant_same]

/-- The record that the permit test of an event's end grants its permit. -/
def State.grants (s0 s : State) (x : Causes) (matched : Bool) : Option Pour :=
  match s.taps.station, s.taps.pour with
  | .assigned, some r => if s0.testsPermit s x matched && s.permitHolds r.furnace then some r else none
  | _, _ => none

/-- What the permit test of an event's end does. -/
theorem State.permit_spec (s0 s : State) (x : Causes) (b : Bool) :
    (if s0.testsPermit s x b then s.permitTest else s) = match s0.grants s x b with
      | some r => ((s.withTaps { s.taps with
          station := .permitted
          pour := some { r with tare := s.taps.ladle, drive := some (s.profile r.furnace).drive }
          tiltStart := .running s.time (s.mgmt.params.tiltStartTimeout * 1000) }).withLoop
            (s.loop.placePermit r.furnace
              { action := .grant, drive := (s.profile r.furnace).drive, demand := r.demand.id }))
      | none => s := by
  unfold State.grants State.permitTest
  cases s.taps.station <;> cases s.taps.pour <;> try simp
  rename_i r
  by_cases ht : s0.testsPermit s x b = true <;> by_cases hp : s.permitHolds r.furnace = true <;>
    simp [ht, hp, State.withTaps, State.withLoop]

/-- What a granted permit rests on. -/
theorem State.grants_iff (s0 s : State) (x : Causes) (b : Bool) (r : Pour) :
    s0.grants s x b = some r ↔ (s.taps.station = .assigned ∧ s.taps.pour = some r)
      ∧ (b = true ∨ r.furnace ∈ x.permit ∨ s0.power[r.furnace].issued ≠ s.power[r.furnace].issued
        ∨ (s0.intake.stale.ladle = true ∧ s.intake.stale.ladle = false)
        ∨ (s0.intake.stale.tilt[r.furnace] = true ∧ s.intake.stale.tilt[r.furnace] = false))
      ∧ s.power[r.furnace].issued ≤ (s.profile r.furnace).tiltCeiling
      ∧ (∃ a, s.power[r.furnace].actual = some a
        ∧ a ≤ (s.profile r.furnace).tiltCeiling + (s.profile r.furnace).tolerance)
      ∧ (s.taps.ladle ≠ none ∧ s.intake.stale.ladle = false)
      ∧ ((∃ a, s.taps.tilt[r.furnace] = some a ∧ a ≤ s.mgmt.params.tiltHome)
        ∧ s.intake.stale.tilt[r.furnace] = false) := by
  have hk : ∀ r : Pour, s.taps.pour = some r → ((s0.testsPermit s x b && s.permitHolds r.furnace) = true ↔
      (b = true ∨ r.furnace ∈ x.permit ∨ s0.power[r.furnace].issued ≠ s.power[r.furnace].issued
        ∨ (s0.intake.stale.ladle = true ∧ s.intake.stale.ladle = false)
        ∨ (s0.intake.stale.tilt[r.furnace] = true ∧ s.intake.stale.tilt[r.furnace] = false))
      ∧ s.power[r.furnace].issued ≤ (s.profile r.furnace).tiltCeiling
      ∧ (∃ a, s.power[r.furnace].actual = some a
        ∧ a ≤ (s.profile r.furnace).tiltCeiling + (s.profile r.furnace).tolerance)
      ∧ (s.taps.ladle ≠ none ∧ s.intake.stale.ladle = false)
      ∧ ((∃ a, s.taps.tilt[r.furnace] = some a ∧ a ≤ s.mgmt.params.tiltHome)
        ∧ s.intake.stale.tilt[r.furnace] = false)) := by
    intro r hr
    unfold State.testsPermit State.permitHolds State.freshNotice State.tiltHome
    rw [hr]
    simp only [Bool.and_eq_true, Bool.or_eq_true, Bool.not_eq_true', decide_eq_true_eq, decide_eq_false_iff_not]
    refine and_congr (by tauto) ?_
    cases s.power[r.furnace].actual <;> cases s.taps.tilt[r.furnace] <;> cases s.taps.ladle <;> simp <;> tauto
  unfold State.grants
  cases hs : s.taps.station <;> cases hp : s.taps.pour <;> try simp
  rename_i r'
  constructor
  · rintro ⟨k, rfl⟩; exact ⟨rfl, (hk _ hp).1 (by simpa using k)⟩
  · rintro ⟨rfl, q⟩; exact ⟨by simpa using (hk _ hp).2 q, rfl⟩

/-- The state that the announcement of a match leaves, before the permit test. -/
def State.told (s0 v : State) (m : Option (Demand × Furnace)) : State := (s0.remakeChanged v).announce m

theorem State.settle_eq (s0 s : State) (x : Causes) :
    s0.settle s x =
      let a := s0.attempt (s0.evaluated s) x
      let w := s0.told a.1 a.2
      (if s0.testsPermit w x a.2.isSome then w.permitTest else w).driveOutputs := rfl

theorem State.told_spec (s0 v : State) (m : Option (Demand × Furnace)) :
    (s0.told v m).pending = v.pending ∧ (s0.told v m).time = v.time ∧ (s0.told v m).pinLow = v.pinLow
    ∧ (s0.told v m).intake = v.intake ∧ (s0.told v m).tables = v.tables ∧ (s0.told v m).watch = v.watch
    ∧ (s0.told v m).mgmt = v.mgmt ∧ (s0.told v m).heats = v.heats ∧ (s0.told v m).holding = v.holding
    ∧ (s0.told v m).circuits = v.circuits ∧ (s0.told v m).orderClamps = v.orderClamps
    ∧ (s0.told v m).contacts = v.contacts ∧ (s0.told v m).taps = v.taps
    ∧ (s0.told v m).power = (s0.remakeChanged v).power
    ∧ (s0.told v m).loop = v.assignedTold (furnaces.foldl (cutOrder v (s0.remakeChanged v)) v.loop) m := by
  have r := (State.remakeChanged_spec s0 v).1
  unfold State.told
  refine ⟨by simp, by simp, by simp, by simp, by simp, by simp, by simp, by simp, by simp, by simp, by simp, by simp,
    by simp, by simp, ?_⟩
  cases m with
  | none => exact r
  | some y =>
    rw [← r]
    simp [State.announce, State.placeStatus, State.assignedTold]

theorem State.allocInputs_congr {v t : State} (hh : t.heats = v.heats) (hl : t.holding = v.holding)
    (hc : t.circuits = v.circuits) (ht : t.tables = v.tables) (hw : t.watch = v.watch) (hi : t.intake = v.intake)
    (hm : t.mgmt = v.mgmt) (ho : ∀ f : Furnace, t.power[f].ordered = v.power[f].ordered) :
    t.allocInputs = v.allocInputs := by
  have e : t.power.map (·.ordered) = v.power.map (·.ordered) := by
    apply Vector.ext
    intro i hi
    simpa using ho ⟨i, hi⟩
  unfold State.allocInputs
  simp only [hh, hl, hc, ht, hw, hi, hm, e]

theorem State.demands_congr {v t : State} (h : ∀ f, t.demandOf f = v.demandOf f) : t.demands = v.demands := by
  unfold State.demands
  congr 1
  funext f; exact h f

theorem State.served_congr {v t : State} (hh : t.heats = v.heats) (hm : t.mgmt = v.mgmt) (d : Vector Nat 6) :
    t.served d = v.served d := by
  unfold State.served State.availablePower State.claims
  simp only [hh, hm]

/-- What a cut order reads. -/
theorem cutOrder_congr {u v t t' : State} (hu : v.power = u.power) (hp : t'.power = t.power)
    (ht : t'.tables = t.tables) : cutOrder v t' = cutOrder u t := by
  funext l f
  unfold cutOrder State.profile
  rw [hu, hp, ht]

/-- What the message of a match reads. -/
theorem State.assignedTold_congr {u v : State} (h : v.mgmt = u.mgmt) : v.assignedTold = u.assignedTold := by
  funext l m
  unfold State.assignedTold
  rw [h]

/-- What a GRANT reads. -/
theorem State.grantTold_congr {v t : State} (h : t.tables = v.tables) : t.grantTold = v.grantTold := by
  funext l g
  unfold State.grantTold State.profile
  rw [h]

/-- The end of an event from the state `v` that the matching attempt left, with its remake done and its match told. -/
structure Ended (s0 v t : State) (m : Option (Demand × Furnace)) (g : Option Pour) : Prop where
  frame : t.pending = v.pending ∧ t.time = v.time ∧ t.pinLow = v.pinLow ∧ t.intake = v.intake ∧ t.tables = v.tables
    ∧ t.watch = v.watch ∧ t.mgmt = v.mgmt ∧ t.heats = v.heats ∧ t.holding = v.holding ∧ t.circuits = v.circuits
    ∧ t.orderClamps = v.orderClamps
  contacts : t.contacts = { v.contacts with driven := t.contacts.driven }
  outputs : ∀ o : OutputNo, t.contacts.driven[o] = t.outputLevel o
  power : t.power = (s0.remakeChanged v).power
  kept : g = none → t.taps = v.taps
  granted : ∀ r, g = some r → t.taps = { v.taps with
    station := .permitted
    pour := some { r with tare := v.taps.ladle, drive := some (v.profile r.furnace).drive }
    tiltStart := .running v.time (v.mgmt.params.tiltStartTimeout * 1000) }
  loop : t.loop = v.grantTold (v.assignedTold (furnaces.foldl (cutOrder v t) v.loop) m) g

theorem State.ended_spec (s0 v : State) (m : Option (Demand × Furnace)) (x : Causes) :
    Ended s0 v (if s0.testsPermit (s0.told v m) x m.isSome then (s0.told v m).permitTest else s0.told v m).driveOutputs m
      (s0.grants (s0.told v m) x m.isSome) := by
  rw [State.permit_spec]
  obtain ⟨t1, t2, t3, t4, t5, t6, t7, t8, t9, t10, t11, t12, t13, t14, t15⟩ := State.told_spec s0 v m
  generalize s0.told v m = w at *
  have ep : ∀ f, w.profile f = v.profile f := by intro f; unfold State.profile; rw [t5]
  have ec : ∀ t : State, t.power = (s0.remakeChanged v).power → t.tables = v.tables →
      cutOrder v t = cutOrder v (s0.remakeChanged v) :=
    fun t h1 h2 => cutOrder_congr rfl h1 (by rw [h2]; simp)
  cases s0.grants w x m.isSome with
  | none =>
    refine ⟨by simp [*], ?_, State.driveOutputs_level w, by simp [*], fun _ => by simp [*], fun _ k => (by cases k), ?_⟩
    · unfold State.driveOutputs; simp only [State.withContacts_contacts, t12]
    · rw [ec _ (by simp [*]) (by simp [*]), ← t15]
      simp [State.grantTold]
  | some r =>
    refine ⟨by simp [*], ?_, State.driveOutputs_level _, by simp [*], fun k => (by cases k), ?_, ?_⟩
    · unfold State.driveOutputs
      simp only [State.withContacts_contacts, State.withLoop_contacts, State.withTaps_contacts, t12]
    · rintro _ ⟨⟩
      simp [*]
    · rw [ec _ (by simp [*]) (by simp [*]), ← t15]
      simp [State.grantTold, ep]

/-- How `settle` ends an event, whatever it found. -/
theorem State.settle_end (s0 s : State) (x : Causes) : EventEnd s0 s (s0.settle s x) x := by
  rw [State.settle_eq]
  have M := (State.attempt_spec s0 s x).1
  have A := State.attempted_spec s0 s x
  dsimp only
  generalize (s0.attempt (s0.evaluated s) x).2 = m at M A ⊢
  generalize (s0.attempt (s0.evaluated s) x).1 = v at A ⊢
  have C := State.ended_spec s0 v m x
  have G := State.grants_iff s0 (s0.told v m) x m.isSome
  obtain ⟨t1, t2, t3, t4, t5, t6, t7, t8, t9, t10, t11, t12, t13, t14, t15⟩ := State.told_spec s0 v m
  generalize s0.grants (s0.told v m) x m.isSome = g at C G
  generalize (if s0.testsPermit (s0.told v m) x m.isSome then (s0.told v m).permitTest else s0.told v m).driveOutputs
    = t at C ⊢
  obtain ⟨e1, e2, e3, e4, e5, e6, e7, e8, e9, e10, e11⟩ := A.frame
  obtain ⟨c1, c2, c3, c4, c5, c6, c7, c8, c9, c10, c11⟩ := C.frame
  obtain ⟨_, rk, rr, ro⟩ := State.remakeChanged_spec s0 v
  have po : ∀ f : Furnace, t.power[f].ordered = v.power[f].ordered := by intro f; rw [C.power]; exact ro f
  have ai : t.allocInputs = v.allocInputs := State.allocInputs_congr c8 c9 c10 c5 c6 c4 c7 po
  have ds : ∀ f, t.demandOf f = v.demandOf f := fun f =>
    State.demandOf_congr f (by rw [c8]) c5 (by intro k; rw [c10]) c6 (by rw [c9]) c4 (po f)
  have pv : ∀ f, t.profile f = v.profile f := by intro f; unfold State.profile; rw [c5]
  have ps : ∀ f, v.profile f = s.profile f := by intro f; unfold State.profile; rw [e4]
  have pw : ∀ f, (s0.told v m).profile f = t.profile f := by intro f; unfold State.profile; rw [t5, c5]
  have vt := A.taps
  have tr : t.taps.ready = v.taps.ready ∧ t.taps.queue = v.taps.queue ∧ t.taps.dipAge = v.taps.dipAge := by
    cases g with
    | none => rw [C.kept rfl]; exact ⟨rfl, rfl, rfl⟩
    | some r => rw [C.granted r rfl]; exact ⟨rfl, rfl, rfl⟩
  refine
    { pending := c1.trans e1, time := c2.trans e2, pinLow := c3.trans e9, intake := c4.trans e3, tables := c5.trans e4,
      orderClamps := c11.trans e10, watch := c6.trans e5, mgmt := c7.trans e6,
      contacts := by have := C.contacts; rwa [e11] at this,
      outputs := C.outputs,
      water := ?_, circuits := ?_, ready := ?_, taps := ?_, tap := ⟨m, g, M, ?_, ?_⟩, holding := ?_, kept := ?_,
      remade := ?_ }
  · intro k h1 h2 h3
    rw [c10, A.circuits, if_pos ⟨(waterMoved_iff s0 s k).2 h1, h2, h3⟩]
  · intro k h
    rw [c10, A.circuits, if_neg (by rw [waterMoved_iff]; exact h)]
  · intro f
    have r : t.isReady f = v.isReady f :=
      State.isReady_congr f (by rw [c8]) c5 tr.2.2 (by intro k; rw [c10]) c6
    rw [r, ← A.ready f, Taps.readyFurnaces, Taps.readyFurnaces, tr.1]
  · cases g with
    | none => rw [C.kept rfl, vt]
    | some r => rw [C.granted r rfl, vt]
  · intro r
    rw [G r, t13, t14, t4, t7, ← C.power, pw]
    have hb : m.isSome = true ↔ m ≠ none := by cases m <;> simp
    rw [hb, vt, e3, e6]
    constructor
    · rintro ⟨⟨a1, a2⟩, a3, a4, a5, a6, a7⟩
      exact ⟨Prod.ext a1 a2, a3, a4, a5, a6, a7⟩
    · rintro ⟨a1, a3, a4, a5, a6, a7⟩
      exact ⟨⟨congrArg Prod.fst a1, congrArg Prod.snd a1⟩, a3, a4, a5, a6, a7⟩
  · refine ⟨by rw [c8]; exact A.heats, by rw [tr.2.1, vt], by rw [tr.1, vt], ?_, ?_, ?_⟩
    · intro k
      rw [C.kept k, vt]; exact ⟨rfl, rfl⟩
    · intro r k
      rw [C.granted r k, vt, pv, c2, e6]; exact ⟨rfl, rfl, rfl⟩
    · rw [C.loop, e7, cutOrder_congr e8 rfl rfl, State.assignedTold_congr e6, State.grantTold_congr c5]
  · intro f
    have := A.holding f
    rw [c9, c8, pv, ps, c2, e2]
    exact this
  · intro h; rw [ai] at h; rw [C.power, rk h, e8]
  · intro h f
    rw [ai] at h
    dsimp only
    rw [ds f, State.demands_congr ds, State.served_congr c8 c7, C.power, rr h f, State.applyGrant_same, e8, c2, c7, pv]

/-- What an event's end moves of the loop port besides placements. -/
theorem TapEnd.placed {s u t : State} {m : Option (Demand × Furnace)} {g : Option Pour} (h : TapEnd s u t m g) :
    Placed u.loop t.loop := by
  have hc : ∀ (l : List Furnace) (a : LoopPort), Placed a (l.foldl (cutOrder u t) a) := by
    intro l
    induction l with
    | nil => exact fun a => Placed.refl a
    | cons f l ih =>
      intro a
      refine Placed.trans ?_ (ih _)
      unfold cutOrder
      dsimp only
      split
      · exact placeOrder_placed _ _ _
      · exact Placed.refl _
  rw [h.loop]
  cases m <;> cases g
  · exact hc _ _
  · exact (hc _ _).trans (placePermit_placed _ _ _)
  · exact (hc _ _).trans (placeStatus_placed _ _)
  · exact ((hc _ _).trans (placeStatus_placed _ _)).trans (placePermit_placed _ _ _)

end Sys2Proof.Machine
end

