-- ==== Sys2Proof/Tests/Slice0.lean ====
section
/-! SUPPORT. Tests. The expected values of `test_…` come from the manual: its worked examples, its tables, or hand
calculation from its rules. Each `witness_…` shows states and operands that meet the hypotheses of one statement, clause
by clause. -/

namespace Sys2Proof.Tests

-- The kernel evaluates these one after another: many at once would take too much memory.
set_option Elab.async false

open Sys2Proof.Machine

/-! ### A small shop: furnace 1 on circuits 1 and 2 -/

/-- The bytes of some numbers. -/
def bs (l : List Nat) : List Byte := l.map (BitVec.ofNat 8)

/-- A profile entry laid out by R214: 8,000 kW, 15,000 kg, e = 1,400, c = 820, TL = 1,150. -/
def profileBytes : List Byte := bs
  ([0x1F, 0x40, 0, 0, 0x3A, 0x98, 0, 0, 0x0B, 0xB8, 0x05, 0x8C, 0x05, 0xC8, 0x05, 0xA0, 0x05, 0xDC, 0, 90]
    ++ [0x05, 0x78, 0x03, 0x34, 0x04, 0x7E, 0, 0, 0x03, 0xE8, 0x03, 0x20, 0x09, 0x60, 0x01, 0xC2, 0, 0x96]
    ++ [0x01, 0xF4, 0, 100, 0, 200, 0x07, 0xD0, 64, 1, 1, 2, 41, 0, 0, 0, 0x03, 0xE8])

/-- A cooling entry laid out by R215, with persistence count 3 and a start window of 30 s. -/
def coolingBytes : List Byte := bs
  [1, 3, 50, 0, 0, 100, 0, 80, 0, 60, 0, 60, 0, 70, 0, 80, 0, 20, 0, 30, 0, 40, 0, 100, 0, 10, 0, 10, 0, 5, 0, 10, 0,
    30, 0, 0]

/-- A point entry laid out by R213, scaled 5 to 2, with a range of 0 to 1,000. -/
def pointBytes (station channel kind owner limit : Nat) : List Byte := bs
  [station, channel, kind, owner, 1, 0, 5, 0, 2, 0, 0, 0, 0, 0, 0, 0, 0, 0x03, 0xE8, 0x03, 0xE8, limit / 256, limit % 256,
    0]

/-- POWER_ACTUAL, TILT_ANGLE, LADLE_MASS and POWER_ORDER of furnace 1, the first with a stale limit of 500 ms. -/
def points : Image := Image.writeAll [] 0
  (pointBytes 20 1 1 1 500 ++ pointBytes 41 1 6 1 0 ++ pointBytes 50 1 5 0 0 ++ pointBytes 64 1 2 1 0)

def profiles : Image := Image.writeAll [] 0 profileBytes
def coolings : Image := Image.writeAll [] 0 (coolingBytes ++ coolingBytes)

/-- DI0 is the ESTOP (SHORT, BOTH), DI1 the pump of circuit 1; DO0 to DO2 are MANUAL outputs in HOLD, SAFE (on) and
FOLLOW, DO3 is a SUPPLY_TRIP (R216). -/
def contactMap : Image :=
  Image.writeAll (Image.writeAll [] 0 (bs [1, 0, 0, 0x31, 4, 1, 0, 0])) 64
    (bs [5, 0, 1, 0, 5, 0, 2, 1, 5, 0, 0, 0, 2, 0, 0, 0])

def both (m : Image) : Copies := { staging := m, active := m }

/-- The shop with its tables in force and the link busy. -/
def shop : State := { State.reset with
  tables := { point := both points, profile := both profiles, cooling := both coolings, contact := both contactMap }
  intake := { Intake.cold with
    live := ((((Intake.cold.live.set 0 (some (PointLive.fresh 0))).set 1 (some (PointLive.fresh 0))).set 2
      (some (PointLive.fresh 0))).set 3 (some (PointLive.fresh 0))) }
  loop := { State.reset.loop with link := .sending [1] }
  mgmt := { State.reset.mgmt with
    params := { Params.default with pCap := 10000, interceptBase := 64, interceptMask := 7 } } }

/-- A heat of 9,000 kg at 1,450 degrees, approved and in HOLDING. -/
def heat : Heat :=
  { Heat.cold with
    id := some 7, phase := .holding, mass := 9000, energy := 14814000, progress := some 1000, temp := some 1450,
    anchor := some 0, approval := some { granted := 0, minutes := 30 },
    bands := some { holdLow := 1420, holdHigh := 1480, tapLow := 1440, tapHigh := 1500 }, holdStart := some 0,
    holdTimer := .running }

/-- The shop with that heat in furnace 1, its circuits NORMAL, the watchdog fed, and the furnace ready. -/
def ready : State := { shop with
  heats := shop.heats.set 0 heat
  holding := shop.holding.set 0 (Holding.cold.after heat (profileEntry profiles 0) 0)
  circuits := (shop.circuits.set 0 { Circuit.cold with state := .normal }).set 1 { Circuit.cold with state := .normal }
  watch := { shop.watch with state := .expectA, timer := .running 0 }
  taps := { shop.taps with ready := [{ furnace := 0, since := 0 }], dipAge := shop.taps.dipAge.set 0 .running } }

/-- The shop with another heat in furnace 1. -/
def withHeat (h : Heat) : State := { shop with heats := shop.heats.set 0 h }

/-- The shop with another power state of furnace 1. -/
def withPower (x : Power) : State := { shop with power := shop.power.set 0 x }

/-- The pour of demand 9 by furnace 1. -/
def pour : Pour :=
  { demand := { id := 9, mass := 1000, low := 1400, high := 1500 }, furnace := 0, drive := some 41, tare := some 500,
    poured := 0, abort := false }

/-- The shop with that pour at the station. -/
def pouring (x : Station) : State := { withHeat { heat with phase := .tapping } with
  taps := { shop.taps with
    station := x, pour := some pour, ladle := some 900, tiltStart := .running 0 30000,
    pourTimer := .running 0 300000, returnTimer := .running 0 45000 } }

/-- A furnace brought home: its tilt stands at the 20 tenths of a degree of tilt home. -/
def homed (s : State) : State := { s with taps := { s.taps with tilt := s.taps.tilt.set 0 (some 20) } }

/-- A state with a point 4 at station 30, of a kind and an owner. -/
def sampling (s : State) (kind owner : Nat) (l : PointLive) : State := { s with
  tables := { s.tables with point := both (Image.writeAll points 96 (pointBytes 30 1 kind owner 500)) }
  intake := { s.intake with live := s.intake.live.set 4 (some l) } }

/-- The shop with a CHARGE_MASS point of furnace 1 and another heat in it, under another profile table. -/
def charging (h : Heat) (prof : Image) : State :=
  let s := sampling (withHeat h) 4 1 (PointLive.fresh 0)
  { s with tables := { s.tables with profile := both prof } }

/-- The shop with another watchdog. -/
def watched (x : WatchState) (r : Run) : State := { shop with
  watch := { shop.watch with state := x, run := r, timer := .running 0 } }

/-- The shop with circuit 1 in another state. -/
def onCircuit (x : Circuit) : State := { shop with circuits := shop.circuits.set 0 x }

/-- The shop with a table selected. -/
def selected (t : TableNo) (active : Bool) : State := { shop with
  mgmt := { shop.mgmt with selection := some { table := t, active := active, pointer := 10 } } }

/-- The shop while a table is under validation. -/
def validatingTable (t : TableNo) : State := { shop with
  mgmt := { shop.mgmt with validator := { shop.mgmt.validator with validating := some t } } }

/-- The shop with its parameters locked. -/
def lockedShop : State := { shop with mgmt := { shop.mgmt with locked := true } }

/-- The shop while another content of a table is under validation. -/
def committing (t : TableNo) (old new : Image) : State := { validatingTable t with
  tables := shop.tables.setCopies t { staging := new, active := old } }

/-- A received frame, and the bytes that carry it. -/
def frame (dest source kind hop seq : Byte) (body : List Byte) : Frame :=
  { dest := dest, source := source, kind := kind, hop := hop, seq := seq, body := body }

def onLoop (f : Frame) : List Byte := buildFrame f.dest f.source f.kind f.hop f.seq f.body

/-- A SAMPLE of that point, of sequence 3, with a raw value of 100, which is 250: plain, and questionable. -/
def plain : Frame := frame 1 30 1 5 3 (bs [1, 0, 0, 100])
def doubtful : Frame := frame 1 30 1 5 3 (bs [1, 0x80, 0, 100])

/-- What a command leaves of a state. -/
def after (c : Instr) (s : State) : State :=
  match exec c s with
  | .next t => t
  | .fault _ => s
  | .refused _ => s

/-! ### The manual's worked examples -/

/-- R204: "For the nine bytes 31h to 39h the check is 29B1h". -/
theorem test_crc : crc16 (bs [0x31, 0x32, 0x33, 0x34, 0x35, 0x36, 0x37, 0x38, 0x39]) = 0x29B1 := by decide +kernel

/-- R24: numerator 5, denominator 2, raw -3 gives -8, and raw 3 gives 7. -/
theorem test_scaling_floors :
    (shop.point 0).scaled (-3) = -8 ∧ (shop.point 0).scaled 3 = 7 := by decide +kernel

/-- R9: base 40h with mask 07h gives the window 64 to 71. -/
theorem test_intercept_window :
    (List.range 256).filter (fun n => shop.mgmt.params.inWindow (BitVec.ofNat 8 n)) = [64, 65, 66, 67, 68, 69, 70, 71] :=
  by decide +kernel

/-- R82: E = 1,433, r = 500 and a delivery of -700 J give E = 1,432, r = 800. -/
theorem test_residue_borrows :
    let h := { Heat.cold with energy := 1433, residue := 500 }.integrate (profileEntry [] 0) (-7) 100 1
    (h.energy, h.residue) = (1432, 800) := by decide +kernel

/-- R105: 5,000 kW over demands of 3,000 and 4,000 kW. -/
theorem test_division_of_the_supply :
    (serveClass 5000 [{ furnace := 0, demand := 3000, share := 0 }, { furnace := 3, demand := 4000, share := 0 }]).map
      (·.share) = [2143, 2857] := by decide +kernel

/-- R93 and R94, the worked example of spec/05: both accounts after the commit. -/
theorem test_reanchoring :
    let old : Profile := profileEntry profiles 0
    let p2 : Profile := { old with meltEnergy := 1380, heatCapacity := 800, liquidus := 1140 }
    let p4 : Profile := { old with meltEnergy := 1380 }
    let h2 : Heat := { Heat.cold with mass := 9000, energy := 14015852, progress := some 1000, temp := some 1341 }
    let h4 : Heat := { Heat.cold with mass := 6000, energy := 5000000, progress := some 595 }
    let n2 := (h2.reanchor old p2).estimate p2
    let n4 := (h4.reanchor old p4).estimate p4
    (n2.energy, n2.progress, n2.temp) = (13867200, some 1000, some 1341)
      ∧ (n4.energy, n4.progress, n4.temp) = (4926600, some 595, none) := by decide +kernel

/-- R94: a commit that changes L alone changes no account. -/
theorem test_a_change_of_loss_keeps_the_account :
    let old : Profile := profileEntry profiles 0
    let h : Heat := { Heat.cold with mass := 6000, energy := 5000000, residue := 7, progress := some 595 }
    h.reanchor old { old with loss := 700 } = h := by decide +kernel

/-- The same example before the commit: Tp is 1,341 degrees, and progress 595. -/
theorem test_estimates :
    let p : Profile := profileEntry profiles 0
    tempOf p 9000 14015852 = some 1341 ∧ progressOf p 6000 5000000 = some 595 ∧ tempOf p 6000 5000000 = none := by
  decide +kernel

/-! ### Well-formedness, table words and encodings -/

/-- 47 bytes are the most that a control byte's item can hold (R187). -/
theorem test_table_data_of_48_bytes_is_ill_formed :
    (Instr.tableData 0 (List.replicate 48 0)).wellFormed = false
      ∧ (Instr.tableData 0 (List.replicate 47 0)).wellFormed = true := by decide

/-- The table gives no row any bits. -/
theorem test_no_table_word : decodeTableWord 16 0x28 = none := rfl

/-- R211: SELECT TABLE of table 2, active copy, offset 0102h; READ TABLE; RELOAD STAGING. -/
theorem test_decode_tables :
    decodeCommand 1 2 false (bs [0x01, 2, 1, 1, 2]) = some (.selectTable 0 2 1 0x0102)
      ∧ decodeCommand 1 2 false (bs [0x02, 40]) = some (.readTable 0 40)
      ∧ decodeCommand 1 2 false (bs [0x04]) = some (.reloadStaging 0) := by decide

/-- R211: SET PARAMETER 9 to 000003E8h; SET BAND; APPROVE. -/
theorem test_decode_arguments :
    decodeCommand 1 2 false (bs [0x05, 9, 0, 0, 3, 0xE8]) = some (.setParameter 0 9 1000)
      ∧ decodeCommand 1 2 false (bs [0x13, 1, 5, 0, 5, 1, 5, 2, 5, 3]) = some (.setBand 0 1 0x500 0x501 0x502 0x503)
      ∧ decodeCommand 1 2 false (bs [0x14, 1, 0, 0, 0, 7, 30]) = some (.approve 0 1 7 30) := by decide

/-- R211: HEARTBEAT 4B1Dh; ALL STOP; RESTART; SET OUTPUT 3 on; READ POINT 127, part 1. -/
theorem test_decode_commands :
    decodeCommand 1 2 false (bs [0x21, 0x4B, 0x1D]) = some (.heartbeat 0 0x4B1D)
      ∧ decodeCommand 1 2 true (bs [0x28]) = some (.allStop 0 true 1)
      ∧ decodeCommand 1 2 false (bs [0x3F]) = some (.restart 0 1 2)
      ∧ decodeCommand 1 2 false (bs [0x31, 3, 1]) = some (.setOutput 0 3 1)
      ∧ decodeCommand 1 2 false (bs [0x3A, 127, 1]) = some (.readPoint 0 127 1) := by decide

/-- R188: an unlisted code, a missing argument and an argument too many are no commands. -/
theorem test_decode_refuses :
    decodeCommand 1 2 false (bs [0x25]) = none ∧ decodeCommand 1 2 false (bs [0x21, 0x4B]) = none
      ∧ decodeCommand 1 2 false (bs [0x28, 0]) = none ∧ decodeCommand 1 2 false [] = none := by decide

/-- R187: two commands and trailing data; a length that runs past the end. -/
theorem test_divide :
    divide (bs [0x81, 0x07, 0x01, 0x08, 9, 9]) = [.command [7], .command [8], .data [9, 9]]
      ∧ divide (bs [0x02, 0x07]) = [.truncated] := by decide

/-- The four tables of the small shop pass their validation (R37, R38). -/
theorem test_tables_validate :
    [TableNo.point, .profile, .cooling, .contact].map shop.validate = [none, none, none, none] := by decide +kernel

/-- R37: a profile whose hold low lies above its hold high fails BAD_RANGE at index 0. -/
theorem test_profile_fails :
    ({ shop with tables := { shop.tables with
        profile := { staging := Image.writeAll profiles 10 (bs [0x06, 0x40]), active := profiles } } } : State).validate
      .profile = some (.badRange, 0) := by decide +kernel

/-! ### One command on a small state -/

/-- R206, R1: an order of 300 kW to station 64, channel 1, as the first frame the part originates. -/
theorem test_order_frame :
    let l := ({ shop.loop with link := .idle }).placeOrder 0 { value := 300, station := 64, channel := 1, cls := .normal }
    l.link = .sending (buildFrame 64 0xE8 2 63 0 [1, 0, 1, 0x2C]) ∧ l.seq = 1 := by decide +kernel

/-- R178: the expected token A (4B1Dh) takes the watchdog to EXPECT_B; any other expires it. -/
theorem test_heartbeat :
    (after (.heartbeat 10 0x4B1D) ready).watch.state = .expectB
      ∧ (after (.heartbeat 10 0xB4E2) ready).watch.state = .expired := by decide +kernel

/-- R101 to R105: the ready furnace holds 1,450 degrees inside its band, so it asks for the mid level of 450 kW. -/
theorem test_mid_level : (ready.remake.power[(0 : Furnace)]).grant = 450 := by decide +kernel

/-- R161, R162: a demand that the ready furnace can meet is assigned to it. -/
theorem test_demand_is_assigned :
    (after (.frameArrival 10 (onLoop (frame 0xE8 70 4 5 1 (bs [9, 0, 0, 3, 0xE8, 5, 0x78, 5, 0xDC])))) ready).taps.station
      = .assigned := by decide +kernel

/-- R200 and R212: READ COUNTERS, part 0, has 40 bytes: the time, the number of parts, and eight counters after them
would not fit, so seven full counters and the rest in later parts. -/
theorem test_read_counters :
    let d := (after (.readCounters 7 0) shop).mgmt.frame.data
    d.take 5 = bs [0, 0, 0, 7, 3] ∧ d.length = 37 := by decide +kernel

/-- R183, R50: an ALL STOP switches the SUPPLY_TRIP output on in the same event. -/
theorem test_all_stop_drives_supply_trip : (after (.allStop 1 false 5) ready).contacts.driven[(3 : OutputNo)] = true := by
  decide +kernel

/-- R2: a frame with a wrong check is bad. -/
theorem test_bad_frame : (after (.frameArrival 1 (bs [1, 2, 1, 5, 0, 0, 0, 0])) shop).loop.counters.bad = 1 := by
  decide +kernel

/-! ### Witnesses: states and operands that meet the hypotheses of each statement -/

/-- A circuit trip and a stale point stand in the latched-condition set. -/
def latchedShop : State := { shop with mgmt := { shop.mgmt with
  latched := [{ kind := .circuitTrip, subject := 1, time := 4 }, { kind := .stale, subject := 3, time := 2 }] } }

theorem latchedShop_safe : latchedShop.latchSafe := by
  refine ⟨by decide +kernel, fun x hx => ?_⟩
  rcases (List.mem_cons.mp hx) with rfl | hx
  · exact ⟨by decide, by decide⟩
  · rw [List.mem_singleton.mp hx]; exact show (3 : Nat) ≤ 127 by decide

/-- At a tilt of 20 the furnace is home; with no tilt value it is not. -/
theorem home_cases (x : Station) : (homed (pouring x)).isHome 0 ∧ ¬(pouring x).isHome 0 := by
  refine ⟨⟨⟨20, rfl, by cases x <;> decide +kernel⟩, by cases x <;> decide +kernel⟩, ?_⟩
  rintro ⟨⟨a, h, _⟩, _⟩
  exact absurd (show none = some a from h) (by simp)

/-- A SAMPLE frame of one item, as `SampleTaken` has it, from facts that can be decided. -/
theorem takes {s : State} {f : Frame} {ch st hi lo : Byte} {i : PointNo} {p : PointLive}
    (h : s.pinLow = false ∧ (Receiver.store (onLoop f)).frame = some f ∧ f.hop ≠ 0 ∧ f.source ≠ s.loop.station
      ∧ f.kind = kindSample ∧ f.body = [ch, st, hi, lo]
      ∧ findKey s.tables.point.active f.source ch false = some i ∧ s.intake.live[i] = some p ∧ p.seq ≠ some f.seq) :
    SampleTaken s (onLoop f) f i p st (word16 hi lo).toInt :=
  let ⟨h1, h2, h3, h4, h5, h6, h7, h8, h9⟩ := h
  ⟨h1, h2, h3, h4, h5, ⟨ch, hi, lo, h6, rfl, h7⟩, h8, h9⟩

/-- The same of `SampleAccepted`. -/
theorem accepts {s : State} {f : Frame} {ch st hi lo : Byte} {i : PointNo} {p : PointLive} {v : Int}
    (h : s.pinLow = false ∧ (Receiver.store (onLoop f)).frame = some f ∧ f.hop ≠ 0 ∧ f.source ≠ s.loop.station
      ∧ f.kind = kindSample ∧ f.body = [ch, st, hi, lo]
      ∧ findKey s.tables.point.active f.source ch false = some i ∧ s.intake.live[i] = some p ∧ p.seq ≠ some f.seq)
    (h' : (st.getLsbD 7 && (s.point i).skip) = false ∧ v = (s.point i).value (word16 hi lo).toInt) :
    SampleAccepted s (onLoop f) f i p v :=
  ⟨st, _, takes h, h'⟩

theorem witness_StepTakesFrontCommand :
    (shop.withPending [.lock 0]).pending = .lock 0 :: [] ∧ shop.pending = [] := by decide +kernel

theorem witness_CommandsKeepQueueAndClock :
    elapsed (.lock 5) = some 5 ∧ ({ shop with pinLow := true } : State).pinLow = true ∧ shop.pinLow = false := by
  decide +kernel

/-- The invariants hold of the ready shop, and a step leaves it. -/
theorem witness_invariants :
    let s := ready.withPending [.lock 0]
    s.tables.fits = true ∧ s.loopSafe ∧ s.taps.safe ∧ s.outputsSafe ∧ s.holdingSafe ∧ ∃ t, step s = .next t := by
  refine ⟨by decide +kernel, ?_, ?_, ?_, ?_, ⟨_, rfl⟩⟩
  · unfold State.loopSafe LoopPort.bounded; decide +kernel
  · unfold Taps.safe; decide +kernel
  · unfold State.outputsSafe; decide +kernel
  · unfold State.holdingSafe; decide +kernel

theorem witness_supply_and_readiness :
    let s := ready.withPending [.lock 0]
    s.supplySafe ∧ s.readySafe ∧ ∃ t, step s = .next t := by
  refine ⟨?_, ?_, ⟨_, rfl⟩⟩
  · unfold State.supplySafe; decide +kernel
  · unfold State.readySafe; decide +kernel

theorem witness_CommandBytesRoundTrip :
    encodeCommand (.allStop 0 true 1) = some [0x28] ∧ elapsed (.allStop 0 true 1) = some 0
      ∧ decodeCommand 1 2 true [0x3F] = some (.restart 0 1 2) := by decide

theorem witness_BuiltFramesAreReceived :
    ((5 : Byte) ≠ 0 ∧ (bs [1, 2, 3]).length ≤ 48)
      ∧ (Receiver.store (onLoop (frame 5 6 1 9 3 (bs [1, 2, 3])))).frame = some (frame 5 6 1 9 3 (bs [1, 2, 3])) := by
  decide +kernel

/-- Frames of station 6 at a part whose supervisor and pouring line are station 7. -/
theorem witness_DiscardedFramesAreCounted :
    let s := ({ shop with mgmt := { shop.mgmt with
      params := { shop.mgmt.params with supervisor := 7, pouringLine := 7 } } } : State)
    let of := fun dest kind : Byte => frame dest 6 kind 1 3 []
    shop.pinLow = false ∧ (Receiver.store []).frame = none
      ∧ ((Receiver.store (onLoop (frame 5 6 1 0 3 []))).frame = some (frame 5 6 1 0 3 [])
        ∧ (frame 5 6 1 0 3 []).hop = 0)
      ∧ (Receiver.store (onLoop (frame 5 0xE8 1 1 3 []))).frame = some (frame 5 0xE8 1 1 3 [])
      ∧ (frame 5 0xE8 1 1 3 []).hop ≠ 0 ∧ (frame 5 0xE8 1 1 3 []).source = shop.loop.station
      ∧ (s.pinLow = false ∧ (6 : Byte) ≠ s.loop.station ∧ (0xE8 : Byte) = s.loop.station
        ∧ admits s.mgmt.params.supervisor 6 = false ∧ admits s.mgmt.params.pouringLine 6 = false
        ∧ s.mgmt.params.inWindow 64 = true)
      ∧ ∀ f ∈ [of 0xE8 kindMgmt, of 0xE8 kindDemand, of 0xE8 kindCancel, of 64 kindOrder],
        (Receiver.store (onLoop f)).frame = some f ∧ f.hop ≠ 0 := by decide +kernel

/-- A REPORT of another station; the link busy with room, the FIFO full, the link idle. -/
theorem witness_PassingFramesAreForwarded :
    let f := frame 5 6 9 1 3 []
    let full : State := { shop with loop := { shop.loop with transit := List.replicate 4 [1] } }
    let idle : State := { shop with loop := { shop.loop with link := .idle } }
    (Receiver.store (onLoop f)).frame = some f ∧ f.hop ≠ 0 ∧ f.source ≠ shop.loop.station ∧ f.kind ≠ kindMgmt
      ∧ ¬(f.kind = kindDemand ∨ f.kind = kindCancel) ∧ f.kind ≠ kindOrder ∧ f.kind ≠ kindSample
      ∧ (shop.pinLow = false ∧ shop.loop.link = .sending [1] ∧ shop.loop.transit.length < 4)
      ∧ (full.pinLow = false ∧ 4 ≤ full.loop.transit.length)
      ∧ (idle.pinLow = false ∧ idle.loop.link = .idle ∧ idle.loop.waits = false) := by decide +kernel

/-- Frames of two items and of none, at a part with the link busy, idle, and the reply slot occupied; and broadcasts of
one ALL STOP, of two, and of another command, at a part that admits their source and at one that does not. -/
theorem witness_MgmtFramesAreAnswered :
    let f := frame 0xE8 6 7 1 3 (bs [0x81, 0x07, 0x01, 0x08])
    let g := frame 0xE8 6 7 1 3 []
    let b := fun body : List Nat => frame 255 6 7 1 3 (bs body)
    let idle := ({ shop with loop := { shop.loop with link := .idle } } : State)
    let full := ({ shop with loop := { shop.loop with reply := some { dest := 6, body := [] } } } : State)
    let deaf := ({ shop with mgmt := { shop.mgmt with params := { shop.mgmt.params with supervisor := 7 } } } : State)
    (∀ h ∈ [f, g, b [1, 0x28], b [0x81, 0x28, 1, 0x28], b [1, 7]], (Receiver.store (onLoop h)).frame = some h ∧ h.hop ≠ 0
        ∧ h.source ≠ shop.loop.station ∧ h.kind = kindMgmt)
      ∧ (shop.pinLow = false ∧ f.dest = shop.loop.station ∧ g.dest = shop.loop.station
        ∧ admits shop.mgmt.params.supervisor 6 = true ∧ shop.loop.reply = none ∧ shop.loop.link = .sending [1]
        ∧ shop.loop.link ≠ .idle)
      ∧ (idle.loop.link = .idle ∧ idle.loop.waits = false ∧ idle.loop.reply = none ∧ g.body = [])
      ∧ full.loop.reply ≠ none ∧ ((b []).dest = 255 ∧ shop.loop.station ≠ 255)
      ∧ admits deaf.mgmt.params.supervisor 6 = false
      ∧ ((∃ x ∈ divide (b [1, 7]).body, x ≠ .command [0x28]) ∧ divide (b [1, 0x28]).body = [.command [0x28]]
        ∧ divide (b [0x81, 0x28, 1, 0x28]).body = [.command [0x28], .command [0x28]]) := by decide +kernel

theorem witness_OneCommandFrameDoesItsCommand :
    shop.pinLow = false ∧ (bs [0x07]).length ≤ 47 ∧ (1 : Byte) ≠ 0 ∧ (6 : Byte) ≠ shop.loop.station
      ∧ shop.loop.station ≠ 0 ∧ admits shop.mgmt.params.supervisor 6 = true ∧ shop.loop.reply = none
      ∧ decodeCommand 6 3 false (bs [0x07]) = some (.lock 0) ∧ bs [0x07] ≠ [0x3F] := by decide +kernel

/-- One state for each case of the arbiter. -/
theorem witness_LinkCompletionTakesTheNextFrame :
    let at' := fun l : LoopPort => ({ shop with loop := l } : State)
    let o : OrderRec := { value := 5, station := 64, channel := 1, cls := .normal }
    let p : PermitRec := { action := .grant, drive := 41, demand := 9 }
    let q : ReplyRec := { dest := 1, body := [] }
    let x : Status := { dest := 1, kind := .bad, demand := none, furnace := none, poured := none }
    let safe := { shop.loop with orders := shop.loop.orders.set 2 (some { o with cls := .safety }) }
    let gone := { shop.loop with permits := shop.loop.permits.set 2 (some { p with action := .withdraw }) }
    let order := { shop.loop with orders := shop.loop.orders.set 2 (some o) }
    let permit := { shop.loop with permits := shop.loop.permits.set 2 (some p) }
    shop.pinLow = false
      ∧ (at' { shop.loop with link := .idle }).loop.link = .idle
      ∧ (shop.loop.link = .sending [1] ∧ shop.loop.waits = false)
      ∧ (safe.link = .sending [1] ∧ safe.orders[(2 : Furnace)] = some { o with cls := .safety }
        ∧ ∀ g < (2 : Furnace), safe.safetyOrder g = false ∧ safe.withdrawal g = false)
      ∧ (gone.permits[(2 : Furnace)] = some { p with action := .withdraw } ∧ gone.safetyOrder 2 = false
        ∧ ∀ g < (2 : Furnace), gone.safetyOrder g = false ∧ gone.withdrawal g = false)
      ∧ (∀ f, order.safetyOrder f = false ∧ order.withdrawal f = false)
      ∧ ({ order with transit := [[1]] }.transit = [1] :: [] ∧ { order with transit := [[1]] }.turn = .transit)
      ∧ (order.transit = [] ∧ order.orders[(2 : Furnace)] = some o ∧ ∀ g < (2 : Furnace), order.orders[g] = none)
      ∧ (permit.transit = [] ∧ (∀ g : Furnace, permit.orders[g] = none) ∧ permit.permits[(2 : Furnace)] = some p
        ∧ (∀ f, permit.safetyOrder f = false ∧ permit.withdrawal f = false)
        ∧ ∀ g < (2 : Furnace), permit.permits[g] = none)
      ∧ ((∀ g : Furnace, shop.loop.orders[g] = none ∧ shop.loop.permits[g] = none)
        ∧ { shop.loop with reply := some q }.reply = some q
        ∧ ({ shop.loop with statuses := [x] }.reply = none ∧ { shop.loop with statuses := [x] }.statuses = x :: [])
        ∧ (let l := { shop.loop with reports := [{ dest := 1, body := .change 0 0 0 false }] }
           l.reply = none ∧ l.statuses = [] ∧ l.reports = { dest := 1, body := .change 0 0 0 false } :: [])) := by
  decide +kernel

/-- The silence of 200 ms has just passed, is 1 ms short, and has passed on a loop already DOWN. -/
theorem witness_LoopSilenceRaisesLoopDown :
    let full := { shop.loop with reports := List.replicate 12 { dest := 1, body := .change 0 0 0 false } }
    latchedShop.latchSafe
      ∧ (latchedShop.loop.link = .sending [1] ∧ latchedShop.loop.reports.length < 12 ∧ 12 ≤ full.reports.length)
      ∧ (shop.pinLow = false ∧ shop.loop.live = .up
        ∧ shop.mgmt.params.loopSilence ≤ (shop.time + 200 - shop.loop.lastValid).toNat)
      ∧ (shop.time + 199 - shop.loop.lastValid).toNat < shop.mgmt.params.loopSilence
      ∧ ({ shop with loop := { shop.loop with live := .down } } : State).loop.live = .down :=
  ⟨latchedShop_safe, by decide +kernel⟩

/-- Conditions stand in the set, and a step leaves the state. -/
theorem witness_LatchedConditionsStayInOrder :
    (latchedShop.withPending [.lock 0]).latchSafe ∧ ∃ t, step (latchedShop.withPending [.lock 0]) = .next t :=
  ⟨latchedShop_safe, _, rfl⟩

/-- The first sample of point 0 at the edge of its raw range, plain and questionable, and a skipped one of a point of
another kind. -/
theorem witness_SampleItemsAreAccepted :
    let f := frame 1 20 1 5 3 (bs [1, 0, 0x80, 0])
    let s := sampling shop 3 1 (PointLive.fresh 0)
    shop.pinLow = false ∧ (Receiver.store (onLoop f)).frame = some f ∧ f.hop ≠ 0 ∧ f.source ≠ shop.loop.station
      ∧ f.kind = kindSample ∧ f.body = [1, 0, 0x80, 0] ∧ findKey shop.tables.point.active f.source 1 false = some 0
      ∧ shop.intake.live[(0 : PointNo)] = some (PointLive.fresh 0) ∧ (PointLive.fresh 0).seq ≠ some f.seq
      ∧ ((0 : Byte).getLsbD 7 && (shop.point 0).skip) = false ∧ ((0x80 : Byte).getLsbD 7 && (shop.point 0).skip) = true
      ∧ (s.pinLow = false ∧ (Receiver.store (onLoop doubtful)).frame = some doubtful ∧ doubtful.body = [1, 0x80, 0, 100]
        ∧ findKey s.tables.point.active doubtful.source 1 false = some 4
        ∧ s.intake.live[(4 : PointNo)] = some (PointLive.fresh 0) ∧ (s.point 4).skip = true
        ∧ (s.point 4).kind ≠ some .powerActual) := by decide +kernel

theorem witness_DuplicateAndUnmatchedItems :
    let f := frame 1 20 1 5 3 (bs [1, 0, 0, 100])
    let g := frame 1 20 1 5 3 (bs [2, 0, 0, 100])
    let p := { PointLive.fresh 0 with seq := some 3 }
    (shop.pinLow = false ∧ (Receiver.store (onLoop g)).frame = some g ∧ g.hop ≠ 0 ∧ g.source ≠ shop.loop.station
      ∧ g.kind = kindSample ∧ g.body = [2, 0, 0, 100]
      ∧ findKey shop.tables.point.active g.source 2 false = none)
      ∧ ((Receiver.store (onLoop f)).frame = some f ∧ f.body = [1, 0, 0, 100]
      ∧ findKey shop.tables.point.active f.source 1 false = some 0
      ∧ ((shop.setLive 0 (some p)).intake.live[(0 : PointNo)] = some p ∧ p.seq = some f.seq)) := by decide +kernel

theorem witness_OrdersSetTheOrderedPower :
    let f := frame 64 6 2 5 3 (bs [1, 0, 0, 100])
    shop.pinLow = false ∧ (Receiver.store (onLoop f)).frame = some f ∧ f.hop ≠ 0 ∧ f.source ≠ shop.loop.station
      ∧ f.kind = kindOrder ∧ shop.mgmt.params.inWindow f.dest = true
      ∧ admits shop.mgmt.params.supervisor f.source = true ∧ f.body = [1, 0, 0, 100]
      ∧ findKey shop.tables.point.active f.dest 1 true = some 3
      ∧ shop.intake.live[(3 : PointNo)] = some (PointLive.fresh 0) ∧ (PointLive.fresh 0).seq ≠ some f.seq
      ∧ ((0 : Byte).getLsbD 7 && (shop.point 3).skip) = false ∧ (shop.point 3).kind = some .powerOrder
      ∧ furnaceOf (shop.point 3).owner.toNat = some 0 ∧ shop.loop.link = .sending [1] := by decide +kernel

/-- The stale limit of point 0 is 500 ms; point 1 has none, point 4 is unused, and one flag is set already. -/
theorem witness_StaleExpiryMarksThePoint :
    let p := PointLive.fresh 0
    let s := shop.setLive 0 (some { p with stale := true })
    shop.pinLow = false
      ∧ (shop.intake.live[(0 : PointNo)] = some p ∧ (shop.point 0).used = true ∧ (shop.point 0).limit ≠ 0
        ∧ p.stale = false ∧ (shop.point 0).limit ≤ (shop.time + 500 - p.staleRef).toNat)
      ∧ ((shop.point 0).staleKey = some (.power 0) ∧ (shop.point 0).staleKey ≠ some .ladle
        ∧ shop.intake.stale.power[(0 : Furnace)] = false)
      ∧ (shop.intake.live[(4 : PointNo)] = none ∧ (shop.point 4).used = false ∧ (shop.point 1).limit = 0)
      ∧ (s.intake.live[(0 : PointNo)] = some { p with stale := true } ∧ { p with stale := true }.stale = true)
      ∧ (shop.time + 499 - p.staleRef).toNat < (shop.point 0).limit := by decide +kernel

/-- DI0 is of class SHORT, DI1 of class NONE. -/
theorem witness_RawLevelsAreFiltered :
    let s := ({ shop with contacts := { shop.contacts with raw := shop.contacts.raw.set 0 true } } : State)
    shop.pinLow = false ∧ shop.contacts.raw[(0 : InputNo)] = false
      ∧ (s.contacts.raw[(0 : InputNo)] ≠ false ∧ s.contacts.filtered[(0 : InputNo)] = false)
      ∧ (shop.contacts.raw[(0 : InputNo)] ≠ true ∧ shop.contacts.filtered[(0 : InputNo)] ≠ true
        ∧ persistenceTime (shop.input 0).filter ≠ 0)
      ∧ (shop.contacts.raw[(1 : InputNo)] ≠ true ∧ shop.contacts.filtered[(1 : InputNo)] ≠ true
        ∧ persistenceTime (shop.input 1).filter = 0) := by decide +kernel

/-- The SHORT class takes 2 ms; the edge selection of DI0 is BOTH, that of DI1 NONE. -/
theorem witness_PersistenceExpiryMovesTheLevel :
    let s := ({ shop with contacts := { shop.contacts with
      raw := shop.contacts.raw.set 0 true, persistence := (shop.contacts.persistence.set 0 (.running 0)).set 1 (.running 0)
      } } : State)
    s.pinLow = false ∧ s.contacts.persistence[(0 : InputNo)] = .running 0
      ∧ (persistenceTime (s.input 0).filter ≤ (s.time + 2 - 0).toNat
        ∧ (s.time + 1 - 0).toNat < persistenceTime (s.input 0).filter)
      ∧ edgeSelected (s.input 0).edge s.contacts.raw[(0 : InputNo)] = true
      ∧ (s.contacts.persistence[(1 : InputNo)] = .running 0
        ∧ persistenceTime (s.input 1).filter ≤ (s.time + 0 - 0).toNat
        ∧ edgeSelected (s.input 1).edge s.contacts.raw[(1 : InputNo)] = false)
      ∧ s.contacts.persistence[(2 : InputNo)] = .idle := by decide +kernel

theorem witness_ChangesAreAcknowledged : shop.pinLow = false := by decide +kernel

/-- DO1 is a MANUAL output of safe mode SAFE, DO3 is none; output 8 does not exist. -/
theorem witness_ManualOutputsAreSet :
    let e := watched .expired .run
    shop.pinLow = false ∧ outputOf (8 : Byte).toNat = none ∧ outputOf (1 : Byte).toNat = some 1
      ∧ outputOf (3 : Byte).toNat = some 3 ∧ 1 < (2 : Byte).toNat ∧ (1 : Byte).toNat ≤ 1
      ∧ (shop.output 3).function ≠ fnManual
      ∧ (e.watch.state = .expired ∧ ((e.output 1).mode = modeHold ∨ (e.output 1).mode = modeSafe))
      ∧ ((shop.output 1).function = fnManual ∧ shop.watch.state ≠ .expired) := by decide +kernel

theorem witness_HeatsAreOpenedAndDrained :
    shop.pinLow = false ∧ furnaceOf (0 : Byte).toNat = none ∧ furnaceOf (7 : Byte).toNat = none
      ∧ furnaceOf (1 : Byte).toNat = some 0 ∧ (shop.rated 1 = false ∧ ready.heats[(0 : Furnace)].phase ≠ .empty)
      ∧ (shop.rated 0 = true ∧ shop.heats[(0 : Furnace)].phase = .empty)
      ∧ (withHeat { heat with phase := .tapping }).heats[(0 : Furnace)].phase = .tapping
      ∧ (ready.heats[(0 : Furnace)].phase ≠ .tapAssigned ∧ ready.heats[(0 : Furnace)].phase ≠ .tapping) := by
  decide +kernel

/-- Masses at the edges: 0, 99, 100, the capacity of 15,000 and one above; bands in and out of order. -/
theorem witness_MassAndBandsAreSet :
    let h := ready.heats[(0 : Furnace)]
    let c := (ready.profile 0).capacity
    ready.pinLow = false ∧ furnaceOf (1 : Byte).toNat = some 0 ∧ shop.heats[(0 : Furnace)].phase = .empty
      ∧ (h.phase = .holding ∧ h.mass ≠ 0 ∧ h.id ≠ none ∧ shop.heats[(0 : Furnace)].id = none)
      ∧ ((0 : BitVec 32).toNat = 0 ∧ c < (15001 : BitVec 32).toNat)
      ∧ ((99 : BitVec 32).toNat ≠ 0 ∧ (99 : BitVec 32).toNat ≤ c ∧ (99 : BitVec 32).toNat < 100)
      ∧ (100 ≤ (100 : BitVec 32).toNat ∧ 100 ≤ (15000 : BitVec 32).toNat ∧ (15000 : BitVec 32).toNat ≤ c)
      ∧ ((1000 : Int) ≤ (1000 : BitVec 16).toInt ∧ (1800 : BitVec 16).toInt ≤ 1800
        ∧ (1000 : BitVec 16).toInt ≤ (1800 : BitVec 16).toInt ∧ ¬((1801 : BitVec 16).toInt ≤ 1800)) := by decide +kernel

theorem witness_ApprovalsAreGrantedAndRevoked :
    let h := ready.heats[(0 : Furnace)]
    ready.pinLow = false ∧ furnaceOf (1 : Byte).toNat = some 0
      ∧ (¬1 ≤ (0 : Byte).toNat ∧ ¬(241 : Byte).toNat ≤ 240)
      ∧ (1 ≤ (1 : Byte).toNat ∧ (240 : Byte).toNat ≤ 240)
      ∧ (shop.heats[(0 : Furnace)].phase = .empty ∧ h.phase ≠ .empty ∧ h.phase ≠ .melting)
      ∧ (h.id ≠ some (8 : BitVec 32).toNat ∧ h.id = some (7 : BitVec 32).toNat) := by decide +kernel

/-- The approval stands for 30 minutes, the hold for 90, and a dip ages in 10. -/
theorem witness_HeatTimersExpire :
    let s := ready
    let h := s.heats[(0 : Furnace)]
    s.pinLow = false ∧ h.approval = some { granted := 0, minutes := 30 }
      ∧ (30 * 60000 ≤ (s.time + 1800000 - 0).toNat ∧ (s.time + 1799999 - 0).toNat < 30 * 60000)
      ∧ shop.heats[(0 : Furnace)].approval = none
      ∧ (h.holdTimer = .running ∧ h.holdStart = some 0
        ∧ (s.profile 0).maxHold * 60000 ≤ (s.time + 5400000 - 0).toNat
        ∧ (s.time + 5399999 - 0).toNat < (s.profile 0).maxHold * 60000)
      ∧ shop.heats[(0 : Furnace)].holdTimer ≠ .running
      ∧ (s.taps.dipAge[(0 : Furnace)] = .running ∧ h.anchor = some 0
        ∧ s.mgmt.params.dipMaxAge * 60000 ≤ (s.time + 600000 - 0).toNat
        ∧ (s.time + 599999 - 0).toNat < s.mgmt.params.dipMaxAge * 60000)
      ∧ shop.taps.dipAge[(0 : Furnace)] ≠ .running := by decide +kernel

theorem witness_FurnacesAreReset :
    let t := ({ shop with taps := { shop.taps with tilt := shop.taps.tilt.set 0 (some 21) } } : State)
    let d := ({ withHeat { heat with lockout := some .follow } with
      power := shop.power.set 0 { Power.cold with actual := some 201 } } : State)
    shop.pinLow = false ∧ furnaceOf (0 : Byte).toNat = none ∧ furnaceOf (1 : Byte).toNat = some 0
      ∧ (t.taps.tilt[(0 : Furnace)] = some 21 ∧ t.mgmt.params.tiltHome < 21)
      ∧ (d.heats[(0 : Furnace)].lockout = some .follow ∧ d.power[(0 : Furnace)].actual = some 201
        ∧ (d.profile 0).tolerance < 201)
      ∧ (shop.taps.tilt[(0 : Furnace)] = none ∧ shop.intake.stale.tilt[(0 : Furnace)] = false
        ∧ shop.heats[(0 : Furnace)].lockout ≠ some .follow) := by decide +kernel

/-- A dip of 250 degrees, below the liquidus, in EMPTY, below progress 1000 and at it. -/
theorem witness_DipAnchorsTheEstimate :
    let p := profileEntry profiles 0
    let s := fun h : Heat => sampling (withHeat h) 3 1 (PointLive.fresh 0)
    let below := { heat with phase := .superheat, progress := some 999, temp := none }
    (500 ≤ p.meltEnergy ∧ 500 ≤ p.heatCapacity ∧ p.liquidus ≤ 1800 ∧ 100 ≤ { heat with mass := 100 }.mass)
      ∧ (∀ h ∈ [Heat.cold, below, heat], SampleAccepted (s h) (onLoop plain) plain 4 (PointLive.fresh 0) 250
        ∧ ((s h).point 4).kind = some .dipTemp ∧ furnaceOf ((s h).point 4).owner.toNat = some 0)
      ∧ (Heat.cold.phase = .empty ∧ below.phase ≠ .empty ∧ below.progress ≠ some 1000 ∧ heat.phase ≠ .empty
        ∧ heat.progress = some 1000 ∧ (250 : Int) < p.liquidus) := by
  refine ⟨by decide +kernel, ?_, by decide +kernel⟩
  rintro h hh
  simp only [List.mem_cons, List.not_mem_nil, or_false] at hh
  rcases hh with rfl | rfl | rfl <;>
    exact ⟨accepts (ch := 1) (st := 0) (hi := 0) (lo := 100) (by decide +kernel) (by decide +kernel), by decide +kernel⟩

/-- A power of 250 kW, accepted as the first item and after a gap of nine, and skipped. -/
theorem witness_AccountIntegratesExactly :
    let p := profileEntry profiles 0
    let l := PointLive.fresh 0
    let gap := { PointLive.fresh 0 with seq := some 249 }
    let s := fun l : PointLive => sampling (withHeat heat) 1 1 l
    (0 < heat.mass ∧ 0 < p.meltEnergy ∧ 100 ≤ 100 ∧ progressOf p heat.mass heat.energy = some 1000)
      ∧ (heat.bands = some { holdLow := 1420, holdHigh := 1480, tapLow := 1440, tapHigh := 1500 }
        ∧ { heat with phase := .superheat }.phase = .superheat ∧ heat.phase ≠ .superheat ∧ heat.phase ≠ .melting
        ∧ heat.temp = some 1450 ∧ Heat.cold.temp = none)
      ∧ (SampleAccepted (s l) (onLoop plain) plain 4 l 250 ∧ SampleAccepted (s gap) (onLoop plain) plain 4 gap 250
        ∧ SampleSkipped (s gap) (onLoop doubtful) doubtful 4 gap)
      ∧ ((s l).point 4).kind = some .powerActual ∧ furnaceOf ((s l).point 4).owner.toNat = some 0
      ∧ (l.elapsedIntervals plain.seq = 1 ∧ gap.elapsedIntervals plain.seq = 10) :=
  ⟨by decide +kernel, by decide +kernel,
    ⟨accepts (ch := 1) (st := 0) (hi := 0) (lo := 100) (by decide +kernel) (by decide +kernel),
      accepts (ch := 1) (st := 0) (hi := 0) (lo := 100) (by decide +kernel) (by decide +kernel),
      0x80, _, takes (ch := 1) (st := 0x80) (hi := 0) (lo := 100) (by decide +kernel), by decide +kernel⟩,
    by decide +kernel⟩

theorem witness_ClassesAreServedExactly :
    let l : List Claim := [{ furnace := 0, demand := 3000, share := 0 }, { furnace := 3, demand := 4000, share := 0 }]
    demandSum l ≤ 7000 ∧ 6999 < demandSum l ∧ (serveClass 6999 l)[0]? = some { furnace := 0, demand := 3000, share := 3000 }
      ∧ (serveClass 6999 l)[1]? = some { furnace := 3, demand := 4000, share := 3999 } := by decide +kernel

theorem witness_RemakeDividesTheSupply : shop.heats[(0 : Furnace)].phase = .empty := by decide +kernel

/-- A ramp of 100 ms that has just run out, on the way from 100 to 450 kW. -/
theorem witness_RampExpiryRaisesThePower :
    let s := ({ ready with
      power := ready.power.set 0 { Power.cold with demand := 450, grant := 450, issued := 100, ramp := .running 0 } } : State)
    s.pinLow = false ∧ s.power[(0 : Furnace)].ramp = .running 0
      ∧ ((s.profile 0).rampInterval ≤ (s.time + 100 - 0).toNat ∧ s.readySafe
        ∧ s.power[(0 : Furnace)].issued ≤ s.power[(0 : Furnace)].grant)
      ∧ (s.loop.link = .sending [1]
        ∧ s.power[(0 : Furnace)].issued
          < min s.power[(0 : Furnace)].grant (min (s.power[(0 : Furnace)].issued + (s.profile 0).rampStep)
              (s.power[(0 : Furnace)].issued + (s.availablePower - s.issuedSum))) ∧ 0 < (s.profile 0).rated)
      ∧ (s.time + 99 - 0).toNat < (s.profile 0).rampInterval
      ∧ shop.power[(0 : Furnace)].ramp = .idle := by
  unfold State.readySafe; decide +kernel

theorem witness_RefreshExpiryRepeatsTheOrder :
    let s := withPower { Power.cold with refresh := .running 0 500 }
    s.pinLow = false ∧ s.power[(0 : Furnace)].refresh = .running 0 500
      ∧ (500 ≤ (s.time + 500 - 0).toNat ∧ 0 < (s.profile 0).rated ∧ s.loop.link = .sending [1])
      ∧ (s.time + 499 - 0).toNat < 500 ∧ shop.power[(0 : Furnace)].refresh = .idle := by decide +kernel

theorem witness_FollowExpiryLocksTheFurnace :
    let s := withPower { Power.cold with follow := .running 0 }
    s.pinLow = false ∧ s.power[(0 : Furnace)].follow = .running 0
      ∧ ((s.profile 0).followWindow ≤ (s.time + 2000 - 0).toNat ∧ s.heats[(0 : Furnace)].lockout ≠ some .follow)
      ∧ (s.time + 1999 - 0).toNat < (s.profile 0).followWindow ∧ shop.power[(0 : Furnace)].follow = .idle := by
  decide +kernel

/-- Temperatures at both edges of the hold band and one degree outside them. -/
theorem witness_HoldingComparesTheBath :
    Heat.cold.phase = .empty ∧ heat.phase = .holding ∧ { heat with uncertain := true }.uncertain = true
      ∧ heat.uncertain = false ∧ { heat with temp := none }.temp = none
      ∧ (heat.bands = some { holdLow := 1420, holdHigh := 1480, tapLow := 1440, tapHigh := 1500 }
        ∧ (1419 : Int) < 1420 ∧ (1420 : Int) ≤ 1420 ∧ (1480 : Int) ≤ 1480 ∧ (1480 : Int) < 1481) := by decide +kernel

/-- Values of the four cooling kinds at circuit 1 in each of its states, plain and fresh again, with a cause at the first
test, at none, and a leak. -/
theorem witness_PersistentSamplesTrip :
    let t := (coolingEntry coolings 0).thresholds .flow
    let s := fun (x : CircuitState) (kind : Nat) (l : PointLive) =>
      sampling (onCircuit { Circuit.cold with state := x }) kind 1 l
    let stale := { PointLive.fresh 0 with stale := true }
    let again := (s .normal 8 stale).withStale ((s .normal 8 stale).intake.stale.set (.cooling 0 .supply) true)
    let leak := ({ shop with contacts := { shop.contacts with ind := { shop.contacts.ind with
      leak := shop.contacts.ind.leak.set 0 true } } } : State)
    (0 ≤ t.hyst ∧ 1 ≤ 3 ∧ 3 ≤ 255 ∧ 3 ≤ [(59 : Int), 0, 59].length
      ∧ (∀ v ∈ [(59 : Int), 0, 59], if t.low then v < t.trip else t.trip < v)
      ∧ ¬(if t.low then (60 : Int) < t.trip else t.trip < (60 : Int)))
      ∧ (∀ k ∈ [(7, CoolingKind.flow), (8, .supply), (9, .ret), (10, .pressure)],
        SampleAccepted (s .normal k.1 (PointLive.fresh 0)) (onLoop plain) plain 4 (PointLive.fresh 0) 250
        ∧ ((s .normal k.1 (PointLive.fresh 0)).point 4).kind = some k.2.point
        ∧ circuitOf ((s .normal k.1 (PointLive.fresh 0)).point 4).owner.toNat = some 0)
      ∧ (∀ x ∈ [CircuitState.disabled, .starting, .alert, .derate, .trip],
        SampleAccepted (s x 7 (PointLive.fresh 0)) (onLoop plain) plain 4 (PointLive.fresh 0) 250
        ∧ (s x 7 (PointLive.fresh 0)).circuits[(0 : CircuitNo)].state = x)
      ∧ (SampleAccepted again (onLoop plain) plain 4 stale 250
        ∧ again.intake.stale.get (.cooling 0 .supply) = true)
      ∧ ((s .normal 7 (PointLive.fresh 0)).firstCause 0 = none ∧ leak.firstCause 0 = some .leak
        ∧ leak.contacts.ind.leak[(0 : CircuitNo)] = true ∧ shop.contacts.ind.leak[(0 : CircuitNo)] = false) := by
  refine ⟨by decide +kernel, ?_, ?_, ⟨?_, by decide +kernel⟩, by decide +kernel⟩
  · rintro k hk
    simp only [List.mem_cons, List.not_mem_nil, or_false] at hk
    rcases hk with rfl | rfl | rfl | rfl <;>
      exact ⟨accepts (ch := 1) (st := 0) (hi := 0) (lo := 100) (by decide +kernel) (by decide +kernel),
        by decide +kernel⟩
  · rintro x hx
    simp only [List.mem_cons, List.not_mem_nil, or_false] at hx
    rcases hx with rfl | rfl | rfl | rfl | rfl <;>
      exact ⟨accepts (ch := 1) (st := 0) (hi := 0) (lo := 100) (by decide +kernel) (by decide +kernel),
        by decide +kernel⟩
  · exact accepts (ch := 1) (st := 0) (hi := 0) (lo := 100) (by decide +kernel) (by decide +kernel)

/-- A demand that furnace 1 meets, with its tap range at both edges of Tp, is matched; and its permit is granted. -/
theorem witness_EventEnd :
    let d : Demand := { id := 5, mass := 1000, low := 1450, high := 1450 }
    let u := ({ ready with taps := { ready.taps with queue := [d] } } : State)
    let r : Pour := { demand := d, furnace := 0, drive := none, tare := none, poured := 0, abort := false }
    let w := ({ homed ready with
      taps := { (homed ready).taps with station := .assigned, pour := some r, ladle := some 900 }
      power := ready.power.set 0 { Power.cold with actual := some 0 } } : State)
    Matched ready u Causes.none d 0 ∧ Granted ready w w (Causes.testing [0]) none r ∧ EventEnd ready u (ready.settle u Causes.none) :=
  ⟨⟨Or.inr (Or.inl (by decide +kernel)), by decide +kernel, by decide +kernel, by decide +kernel,
      [], { furnace := 0, since := 0 }, [], by decide +kernel, rfl,
      ⟨by decide +kernel, 1450, by decide +kernel, by decide +kernel, by decide +kernel⟩, by simp⟩,
    ⟨rfl, Or.inr (Or.inl (by decide +kernel)), by decide +kernel, ⟨0, by decide +kernel, by decide +kernel⟩,
      by decide +kernel, ⟨20, by decide +kernel, by decide +kernel⟩, by decide +kernel⟩,
    State.settle_end _ _ _⟩

/-- A start window of 30 s, with the pump off, with no cause, and with a cause present. -/
theorem witness_StartTimersExpire :
    let x : Circuit := { Circuit.cold with state := .starting, start := .running 0 }
    let s := onCircuit x
    let off := ({ s with contacts := { s.contacts with ind := { s.contacts.ind with
      pumpRun := s.contacts.ind.pumpRun.set 0 false } } } : State)
    let bad := ({ s with contacts := { s.contacts with ind := { s.contacts.ind with
      leak := s.contacts.ind.leak.set 0 true } } } : State)
    s.pinLow = false ∧ s.circuits[(0 : CircuitNo)].start = .running 0
      ∧ ((s.cooling 0).startWindow * 1000 ≤ (s.time + 30000 - 0).toNat
        ∧ (s.time + 29999 - 0).toNat < (s.cooling 0).startWindow * 1000)
      ∧ off.contacts.ind.pumpRun[(0 : CircuitNo)] = false
      ∧ (s.circuits[(0 : CircuitNo)].state = .starting ∧ s.contacts.ind.pumpRun[(0 : CircuitNo)] = true
        ∧ s.firstCause 0 = none ∧ bad.firstCause 0 = some .leak)
      ∧ ∀ t0, shop.circuits[(0 : CircuitNo)].start ≠ .running t0 := by
  refine ⟨by decide +kernel, by decide +kernel, by decide +kernel, by decide +kernel, by decide +kernel, ?_⟩
  intro t0 h; exact absurd (show StartTimer.idle = .running t0 from h) (by simp)

theorem witness_CircuitsAreReset :
    let s := onCircuit { Circuit.cold with state := .trip }
    let bad := onCircuit { Circuit.cold with state := .trip, flow := { Quantity.cold with level := .trip } }
    s.pinLow = false ∧ circuitOf (0 : Byte).toNat = none ∧ circuitOf (1 : Byte).toNat = some 0
      ∧ (bad.circuits[(0 : CircuitNo)].state = .trip ∧ bad.firstCause 0 = some (.quantity .flow))
      ∧ (s.circuits[(0 : CircuitNo)].state = .trip ∧ s.firstCause 0 = none)
      ∧ shop.circuits[(0 : CircuitNo)].state ≠ .trip := by decide +kernel

/-- Demands with a fresh id, a queued id, the station's id, an invalid mass and a full queue, and their cancels. -/
theorem witness_DemandsAndCancelsAreAnswered :
    let d : Demand := { id := 9, mass := 1000, low := 1400, high := 1500 }
    let body := bs [9, 0, 0, 0x03, 0xE8, 0x05, 0x78, 0x05, 0xDC]
    let f := frame 0xE8 70 4 5 1 body
    let g := frame 0xE8 70 5 5 1 [9]
    let s := shop
    let queue := fun l : List Byte => ({ s with taps := { s.taps with queue := l.map fun i => { d with id := i } } } : State)
    (s.pinLow = false ∧ (Receiver.store (onLoop f)).frame = some f ∧ f.hop ≠ 0 ∧ f.source ≠ s.loop.station
        ∧ f.dest = s.loop.station ∧ admits s.mgmt.params.pouringLine f.source = true ∧ f.kind = kindDemand
        ∧ demandBody f.body = some d)
      ∧ (frame 0xE8 70 4 5 1 []).body.length ≠ 9
      ∧ demandBody (bs [9, 0, 0, 0, 0, 0x05, 0x78, 0x05, 0xDC]) = some { d with mass := 0 }
      ∧ (1 ≤ d.mass ∧ d.mass ≤ 200000 ∧ d.low ≤ d.high ∧ d.low ≤ 2000 ∧ d.high ≤ 2000)
      ∧ ((pouring .pouring).taps.pour = some pour ∧ pour.demand.id = d.id ∧ s.taps.pour = none)
      ∧ (∃ x ∈ (queue [9]).taps.queue, x.id = d.id)
      ∧ ((∀ x ∈ (queue [1, 2, 3, 4]).taps.queue, x.id ≠ d.id) ∧ 4 ≤ (queue [1, 2, 3, 4]).taps.queue.length
        ∧ (∀ x ∈ (queue [1, 2, 3]).taps.queue, x.id ≠ d.id) ∧ (queue [1, 2, 3]).taps.queue.length < 4)
      ∧ ((Receiver.store (onLoop g)).frame = some g ∧ g.kind = kindCancel ∧ g.body = [9]
        ∧ (frame 0xE8 70 5 5 1 []).body.length ≠ 1)
      ∧ ((pouring .assigned).taps.station = .assigned ∧ ∀ x ∈ (pouring .assigned).taps.queue, x.id ≠ 9) := by
  decide +kernel

/-- A cancel finds the station PERMITTED, POURING (the furnace home or not) and RETURNING. -/
theorem witness_cancels_at_the_station (x : Station) :
    (pouring x).taps.station = x ∧ (homed (pouring x)).taps.station = x ∧ (pouring x).taps.pour = some pour
      ∧ (homed (pouring x)).taps.pour = some pour ∧ pour.demand.id = 9 ∧ (pouring x).taps.queue = []
      ∧ (homed (pouring x)).isHome pour.furnace ∧ ¬(pouring x).isHome pour.furnace :=
  ⟨rfl, rfl, rfl, rfl, rfl, rfl, home_cases x⟩

theorem witness_TiltStartAndPourTimersExpire :
    let p := pouring .permitted
    let q := pouring .pouring
    (p.pinLow = false ∧ p.taps.pour = some pour ∧ p.taps.tiltStart = .running 0 30000
        ∧ 30000 ≤ (p.time + 30000 - 0).toNat ∧ p.taps.station = .permitted ∧ (p.time + 29999 - 0).toNat < 30000)
      ∧ (q.pinLow = false ∧ q.taps.pour = some pour ∧ q.taps.pourTimer = .running 0 300000
        ∧ 300000 ≤ (q.time + 300000 - 0).toNat ∧ q.taps.station = .pouring ∧ q.tiltHome 0 = false
        ∧ (q.time + 299999 - 0).toNat < 300000)
      ∧ ((pouring .idle).taps.tiltStart = .running 0 30000 ∧ (pouring .idle).taps.pourTimer = .running 0 300000
        ∧ (pouring .idle).taps.station ≠ .permitted ∧ (pouring .idle).taps.station ≠ .pouring) := by decide +kernel

theorem witness_ReturnExpiryAccountsThePour :
    let s := pouring .returning
    s.pinLow = false ∧ s.taps.pour = some pour ∧ s.taps.returnTimer = .running 0 45000
      ∧ (45000 ≤ (s.time + 45000 - 0).toNat ∧ s.taps.station = .returning) ∧ (s.time + 44999 - 0).toNat < 45000
      ∧ s.loop.link = .sending [1] := by decide +kernel

theorem witness_WatchdogCommandsAct :
    let a := watched .expectA .run
    let b := ({ watched .expectB .run with watch := { (watched .expectB .run).watch with expected := .b } } : State)
    let o := ({ a with power := a.power.set 0 { Power.cold with ordered := 1 } } : State)
    (shop.pinLow = false ∧ shop.watch.state = .stopped)
      ∧ ((watched .paused .run).watch.state = .paused ∧ (watched .expired .run).watch.state = .expired)
      ∧ (a.watch.state = .expectA ∧ (0x4B1D : BitVec 16).toNat = a.expectedToken
        ∧ (0 : BitVec 16).toNat ≠ a.expectedToken)
      ∧ (b.watch.state = .expectB ∧ (0xB4E2 : BitVec 16).toNat = b.expectedToken)
      ∧ (∀ f : Furnace, a.power[f].ordered = 0) ∧ (o.watch.state = .expectA ∧ o.power[(0 : Furnace)].ordered ≠ 0) := by
  decide +kernel

/-- The watchdog timeout is 2,000 ms; DO0 is in HOLD, DO1 in SAFE, DO2 in FOLLOW. -/
theorem witness_WatchdogExpiryAppliesSafeModes :
    let s := watched .expectA .run
    s.pinLow = false ∧ s.watch.timer = .running 0 ∧ s.watch.state = .expectA
      ∧ (s.mgmt.params.watchdogTimeout ≤ (s.time + 2000 - 0).toNat
        ∧ (s.time + 1999 - 0).toNat < s.mgmt.params.watchdogTimeout)
      ∧ ((s.output 0).function = fnManual ∧ (s.output 0).mode = modeHold)
      ∧ ((s.output 1).function = fnManual ∧ (s.output 1).mode = modeSafe)
      ∧ ((s.output 2).function = fnManual ∧ (s.output 2).mode = modeFollow)
      ∧ shop.watch.timer = .idle := by decide +kernel

theorem witness_AllStopAndResumeAct :
    let x := watched .stopped .allStop
    let e := ({ x with contacts := { x.contacts with ind := { x.contacts.ind with estop := true } } } : State)
    shop.pinLow = false ∧ shop.watch.run = .run ∧ (shop.output 3).function = fnSupplyTrip
      ∧ (x.watch.run = .allStop ∧ x.contacts.ind.estop = false) ∧ e.contacts.ind.estop = true := by decide +kernel

/-- Table 4 and copy 2 do not exist; the profile image ends at 336. -/
theorem witness_TablesAreSelectedAndReloaded :
    let l := ({ selected .cooling false with mgmt := { (selected .cooling false).mgmt with locked := true } } : State)
    shop.pinLow = false ∧ 3 < (4 : Byte).toNat ∧ 1 < (2 : Byte).toNat
      ∧ (tableOf (1 : Byte).toNat = some .profile ∧ (1 : Byte).toNat ≤ 1
        ∧ TableNo.profile.size ≤ (336 : BitVec 16).toNat ∧ (335 : BitVec 16).toNat < TableNo.profile.size)
      ∧ (validatingTable .point).mgmt.validator.validating ≠ none
      ∧ (shop.mgmt.validator.validating = none ∧ shop.mgmt.selection = none)
      ∧ (l.mgmt.selection = some { table := .cooling, active := false, pointer := 10 } ∧ l.mgmt.locked = true)
      ∧ ((selected .profile true).mgmt.selection = some { table := .profile, active := true, pointer := 10 }
        ∧ TableNo.profile ≠ .cooling) := by decide +kernel

/-- Data that fits, data that runs past the image's end, and counts at the edges of 1 to 40. -/
theorem witness_TableDataIsWrittenAndRead :
    let s := selected .profile false
    s.pinLow = false ∧ (validatingTable .point).mgmt.validator.validating ≠ none
      ∧ (s.mgmt.validator.validating = none ∧ shop.mgmt.selection = none
        ∧ (selected .profile true).mgmt.selection = some { table := .profile, active := true, pointer := 10 })
      ∧ (s.mgmt.selection = some { table := .profile, active := false, pointer := 10 }
        ∧ (s.tables.copies .profile).staging.wf = true)
      ∧ ((selected .cooling false).mgmt.selection = some { table := .cooling, active := false, pointer := 10 }
        ∧ lockedShop.mgmt.locked = true ∧ (selected .cooling false).mgmt.locked = false)
      ∧ ((0 : Byte).toNat = 0 ∧ 40 < (41 : Byte).toNat ∧ 1 ≤ (1 : Byte).toNat ∧ (40 : Byte).toNat ≤ 40) := by
  decide +kernel

/-- A staging copy that fails, one that passes, and the refusals of COMMIT TABLE. -/
theorem witness_TablesAreCommitted :
    let good := validatingTable .profile
    let bad := ({ good with tables := { good.tables with
      profile := { staging := Image.writeAll profiles 10 (bs [0x06, 0x40]), active := profiles } } } : State)
    shop.pinLow = false ∧ 3 < (4 : Byte).toNat ∧ tableOf (1 : Byte).toNat = some .profile
      ∧ tableOf (2 : Byte).toNat = some .cooling ∧ good.mgmt.validator.validating = some .profile
      ∧ (lockedShop.mgmt.validator.validating = none ∧ lockedShop.mgmt.locked = true ∧ shop.mgmt.locked = false)
      ∧ bad.validate .profile = some (.badRange, 0) ∧ good.validate .profile = none := by decide +kernel

/-- A contact map whose first entry passes its two checks and whose second has an undefined function. -/
theorem witness_TablesAreCommitted_checks :
    let s := committing .contact [] (Image.writeAll [] 0 (bs [1, 0, 0, 0x31, 6, 0, 0, 0]))
    (∃ before c after, s.checks .contact = before ++ c :: after ∧ (∀ d ∈ before, d.holds) ∧ ¬c.holds
      ∧ c.cause = .badKind ∧ c.index = 1)
      ∧ ∀ c ∈ (committing .contact [] []).checks .contact, c.holds := by
  refine ⟨⟨[_, _], _, _, rfl, ?_, ?_, rfl, rfl⟩, ?_⟩
  · simp only [List.forall_mem_cons, List.not_mem_nil, false_implies, implies_true, and_true]
    decide +kernel
  · decide +kernel
  · intro c hc
    have : (committing .contact [] []).checks .contact = [] := rfl
    rw [this] at hc
    cases hc

/-- Parameter 9 at both edges of 100 to 60,000 and outside them, and token A equal to token B. -/
theorem witness_ParametersLockAndHoldAct :
    let p := shop.mgmt.params
    let held := ({ shop with taps := { shop.taps with held := true } } : State)
    shop.pinLow = false ∧ (p.get 0 = none ∧ p.get 18 = none ∧ p.get 9 = some 2000 ∧ p.get 13 = some 20)
      ∧ (lockedShop.mgmt.locked = true ∧ shop.mgmt.locked = false)
      ∧ (((paramRange 9).1 : Int) ≤ (100 : BitVec 32).toInt ∧ (60000 : BitVec 32).toInt ≤ ((paramRange 9).2 : Int)
        ∧ ¬((paramRange 9).1 : Int) ≤ (99 : BitVec 32).toInt ∧ ¬(60001 : BitVec 32).toInt ≤ ((paramRange 9).2 : Int))
      ∧ (0xB4E2 : BitVec 32).toNat = p.tokenB
      ∧ ((∀ f : Furnace, shop.heats[f].mass = 0) ∧ 0 < ready.heats[(0 : Furnace)].mass)
      ∧ (shop.taps.held = false ∧ held.taps.held = true) := by decide +kernel

/-- STALE is informational, CIRCUIT_TRIP is not; kinds 0 and 16 do not exist. -/
theorem witness_ConditionsAndCountersAreCleared :
    let x : Latched := { kind := .stale, subject := 3, time := 0 }
    let s := ({ shop with mgmt := { shop.mgmt with latched := [x] } } : State)
    shop.pinLow = false ∧ ((0 : Byte).toNat = 0 ∧ 15 < (16 : Byte).toNat)
      ∧ (Kind.circuitTrip.code = (2 : Byte).toNat ∧ Kind.stale.code = (6 : Byte).toNat)
      ∧ (∀ y ∈ shop.mgmt.latched, ¬(y.kind = .stale ∧ y.subject = (3 : Byte).toNat))
      ∧ ∃ y ∈ s.mgmt.latched, y.kind = .stale ∧ y.subject = (3 : Byte).toNat := by decide +kernel

/-- Part 0 of each record exists, and part 200 does not. -/
theorem witness_ReadsReturnTheirRecords :
    let s := shop.advance 7
    shop.pinLow = false ∧ furnaceOf (0 : Byte).toNat = none ∧ furnaceOf (1 : Byte).toNat = some 0
      ∧ circuitOf (9 : Byte).toNat = none ∧ circuitOf (8 : Byte).toNat = some 7
      ∧ pointOf (128 : Byte).toNat = none
      ∧ (pointOf (4 : Byte).toNat = some 4 ∧ (shop.point 4).used = false)
      ∧ (pointOf (0 : Byte).toNat = some 0 ∧ (shop.point 0).used = true
        ∧ shop.intake.live[(0 : PointNo)] = some (PointLive.fresh 0))
      ∧ ((recordParts s.queuesRecord)[0]?.isSome = true ∧ (recordParts s.queuesRecord).length ≤ (200 : Byte).toNat) := by
  decide +kernel

theorem witness_RestartKeepsTheMetal :
    let s := pouring .pouring
    let left := fun m : Nat => m - min (s.taps.ladle.getD 0 - pour.tare.getD 0) m
    s.pinLow = false ∧ s.loop.link = .sending [1]
      ∧ (validatingTable .point).mgmt.validator.validating = some .point
      ∧ ((pouring .pouring).watch.run = .run ∧ (watched .stopped .allStop).watch.run = .allStop
        ∧ (watched .stopped .allStop).contacts.ind.estop = false)
      ∧ (shop.taps.station = .idle ∧ s.taps.pour = some pour ∧ pour.furnace = 0)
      ∧ ((pouring .assigned).taps.station = .assigned ∧ (pouring .returning).taps.station = .returning)
      ∧ (left 400 = 0 ∧ left 499 = 99 ∧ left 500 = 100 ∧ left s.heats[(0 : Furnace)].mass = 8600)
      ∧ (s.taps.tilt[(0 : Furnace)] = none ∧ s.intake.stale.tilt[(0 : Furnace)] = false)
      ∧ (let w := ({ s with taps := { s.taps with tilt := s.taps.tilt.set 0 (some 21) } } : State)
         w.taps.tilt[(0 : Furnace)] = some 21 ∧ w.mgmt.params.tiltHome < 21)
      ∧ (after (.restart 0 6 3) (onCircuit { Circuit.cold with state := .trip })).isLatched .circuitTrip 1 = true := by
  decide +kernel

/-- A charge of 250 kg, and one of 0 kg, into an EMPTY furnace, an unrated one, a tapped one and a holding one. -/
theorem witness_ChargesAreTakenOrRefused :
    let f := frame 1 30 1 5 3 (bs [1, 0, 0, 100])
    let g := frame 1 30 1 5 3 (bs [1, 0, 0, 0])
    let s := charging Heat.cold profiles
    let tapped := charging { heat with phase := .tapping } profiles
    let held := charging heat profiles
    let unrated := charging Heat.cold []
    (SampleAccepted s (onLoop f) f 4 (PointLive.fresh 0) 250 ∧ SampleAccepted s (onLoop g) g 4 (PointLive.fresh 0) 0
      ∧ SampleAccepted unrated (onLoop f) f 4 (PointLive.fresh 0) 250 ∧ SampleAccepted tapped (onLoop f) f 4 (PointLive.fresh 0) 250
      ∧ SampleAccepted held (onLoop f) f 4 (PointLive.fresh 0) 250)
      ∧ ((s.point 4).kind = some .chargeMass ∧ furnaceOf (s.point 4).owner.toNat = some 0)
      ∧ ((0 : Int).toNat = 0 ∧ (250 : Int).toNat ≠ 0 ∧ (unrated.profile 0).rated = 0 ∧ 0 < (s.profile 0).rated
        ∧ s.heats[(0 : Furnace)].phase = .empty ∧ s.heats[(0 : Furnace)].energy = 0
        ∧ tapped.heats[(0 : Furnace)].phase = .tapping ∧ held.heats[(0 : Furnace)].phase = .holding) :=
  have h : ∀ (x : Heat) (m : Image), (x = Heat.cold ∨ x = heat ∨ x = { heat with phase := .tapping }) →
      (m = profiles ∨ m = []) → SampleAccepted (charging x m) (onLoop (frame 1 30 1 5 3 (bs [1, 0, 0, 100])))
        (frame 1 30 1 5 3 (bs [1, 0, 0, 100])) 4 (PointLive.fresh 0) 250 := by
    rintro x m (rfl | rfl | rfl) (rfl | rfl) <;>
      exact accepts (ch := 1) (st := 0) (hi := 0) (lo := 100) (by decide +kernel) (by decide +kernel)
  ⟨⟨h _ _ (by simp) (by simp), accepts (ch := 1) (st := 0) (hi := 0) (lo := 0) (by decide +kernel) (by decide +kernel),
    h _ _ (by simp) (by simp), h _ _ (by simp) (by simp), h _ _ (by simp) (by simp)⟩, by decide +kernel⟩

/-- Tilt values of 20 (home) and 22, and ladle values of 250 and 1,000 kg, at every state of the station. -/
theorem witness_PoursFollowTiltAndLadle (x : Station) :
    let home := frame 1 41 1 5 3 (bs [1, 0, 0, 8])
    let away := frame 1 41 1 5 3 (bs [1, 0, 0, 9])
    let low := frame 1 50 1 5 3 (bs [1, 0, 0, 100])
    let high := frame 1 50 1 5 3 (bs [1, 0, 1, 0x90])
    let s := pouring x
    (SampleAccepted s (onLoop home) home 1 (PointLive.fresh 0) 20 ∧ SampleAccepted s (onLoop away) away 1 (PointLive.fresh 0) 22
      ∧ SampleAccepted s (onLoop low) low 2 (PointLive.fresh 0) 250 ∧ SampleAccepted s (onLoop high) high 2 (PointLive.fresh 0) 1000)
      ∧ ((s.point 1).kind = some .tiltAngle ∧ furnaceOf (s.point 1).owner.toNat = some 0
        ∧ (s.point 2).kind = some .ladleMass)
      ∧ (s.taps.station = x ∧ s.taps.pour = some pour ∧ pour.furnace = 0 ∧ shop.taps.pour = none)
      ∧ ((20 : Int).toNat ≤ s.mgmt.params.tiltHome ∧ ¬(22 : Int).toNat ≤ s.mgmt.params.tiltHome)
      ∧ (s.intake.stale.ladle = false ∧ s.contacts.ind.tiltHome[(0 : Furnace)] = true)
      ∧ ((250 : Int).toNat - pour.tare.getD 0 < pour.demand.mass - s.mgmt.params.pourLead
        ∧ (let r := { pour with tare := some 0 }
           r.demand.mass - s.mgmt.params.pourLead ≤ (1000 : Int).toNat - r.tare.getD 0))
      ∧ ((homed s).isHome pour.furnace ∧ ¬s.isHome pour.furnace) := by
  refine ⟨?_, ?_, ⟨rfl, rfl, rfl, rfl⟩, ?_, ?_, ?_, home_cases x⟩
  · cases x <;>
      exact ⟨accepts (ch := 1) (st := 0) (hi := 0) (lo := 8) (by decide +kernel) (by decide +kernel),
        accepts (ch := 1) (st := 0) (hi := 0) (lo := 9) (by decide +kernel) (by decide +kernel),
        accepts (ch := 1) (st := 0) (hi := 0) (lo := 100) (by decide +kernel) (by decide +kernel),
        accepts (ch := 1) (st := 0) (hi := 1) (lo := 0x90) (by decide +kernel) (by decide +kernel)⟩
  all_goals cases x <;> decide +kernel

/-- A profile commit of another melt energy and of another loss, with metal at progress 1000, below it, and under
100 kg. -/
theorem witness_CommitsActOnTheShop_profile :
    let s := committing .profile profiles (Image.writeAll profiles 20 (bs [0x05, 0x64]))
    let same := committing .profile profiles (Image.writeAll profiles 26 (bs [0, 50]))
    let new := profileEntry s.tables.profile.staging 0
    s.pinLow = false ∧ s.mgmt.validator.validating = some .profile ∧ s.validate .profile = none
      ∧ same.validate .profile = none ∧ ({ s with heats := s.heats.set 0 heat } : State).validate .profile = none
      ∧ new.meltEnergy ≠ (s.profile 0).meltEnergy
      ∧ (let q := profileEntry same.tables.profile.staging 0
         q.meltEnergy = (same.profile 0).meltEnergy ∧ q.heatCapacity = (same.profile 0).heatCapacity
          ∧ q.liquidus = (same.profile 0).liquidus)
      ∧ (100 ≤ heat.mass ∧ heat.progress = some 1000 ∧ heat.temp = some 1450 ∧ { heat with mass := 99 }.mass < 100
        ∧ { heat with progress := some 595 }.progress = some 595)
      ∧ (0 < new.rated ∧ (profileEntry s.tables.profile.staging 1).rated = 0 ∧ s.loop.link = .sending [1]) := by
  decide +kernel

/-- Circuits 1 and 2 stay enabled, circuit 3 is newly enabled, or no longer. -/
theorem witness_CommitsActOnTheShop_cooling :
    let three := Image.writeAll [] 0 (coolingBytes ++ coolingBytes ++ coolingBytes)
    let s := committing .cooling coolings three
    let r := committing .cooling three coolings
    let x : Circuit := { Circuit.cold with state := .starting, start := .running 0 }
    s.pinLow = false ∧ s.mgmt.validator.validating = some .cooling ∧ s.validate .cooling = none
      ∧ r.validate .cooling = none
      ∧ ((s.cooling 0).enabled = true ∧ (coolingEntry s.tables.cooling.staging 0).enabled = true)
      ∧ ((s.cooling 2).enabled = false ∧ (coolingEntry s.tables.cooling.staging 2).enabled = true)
      ∧ ((r.cooling 2).enabled = true ∧ (coolingEntry r.tables.cooling.staging 2).enabled = false)
      ∧ ((s.cooling 3).enabled = false ∧ (coolingEntry s.tables.cooling.staging 3).enabled = false)
      ∧ s.contacts.ind.leak[(2 : CircuitNo)] = false
      ∧ (x.start = .running 0 ∧ (coolingEntry s.tables.cooling.staging 0).startWindow * 1000 ≤ (s.time + 30000 - 0).toNat
        ∧ (s.time + 29999 - 0).toNat < (coolingEntry s.tables.cooling.staging 0).startWindow * 1000)
      ∧ (x.state = .starting ∧ s.contacts.ind.pumpRun[(0 : CircuitNo)] = true ∧ s.circuits[(0 : CircuitNo)].state ≠ .starting
        ∧ s.firstCause 0 = none)
      ∧ (let leak := ({ s with contacts := { s.contacts with ind := { s.contacts.ind with
           leak := Vector.replicate 8 true } } } : State)
         leak.firstCause 0 = some .leak ∧ leak.contacts.ind.leak[(2 : CircuitNo)] = true) := by
  decide +kernel

/-- Point 0 keeps its key under a shorter stale limit, point 1 goes, and point 4 is new. -/
theorem witness_CommitsActOnTheShop_point :
    let m := Image.writeAll (Image.writeAll points 96 (pointBytes 30 1 4 1 0)) 21 (bs [0, 60])
    let s := committing .point points m
    let gone := committing .point (Image.writeAll points 96 (pointBytes 30 1 4 1 0)) points
    let carries := fun (i j : PointNo) => (s.point j).used = true ∧ (s.point j).station = (pointEntry m i).station
      ∧ (s.point j).channel = (pointEntry m i).channel ∧ (s.point j).kindCode = (pointEntry m i).kindCode
    s.pinLow = false ∧ s.mgmt.validator.validating = some .point ∧ s.validate .point = none
      ∧ gone.validate .point = none
      ∧ (pointEntry gone.tables.point.staging 4).used = false
      ∧ ((pointEntry m 4).used = true ∧ ∀ j, ¬carries 4 j)
      ∧ ((pointEntry m 0).used = true ∧ carries 0 0 ∧ (∀ k, carries 0 k → k = 0)
        ∧ s.intake.live[(0 : PointNo)] = some (PointLive.fresh 0) ∧ (PointLive.fresh 0).stale = false
        ∧ (pointEntry m 0).limit ≠ 0 ∧ (pointEntry m 0).limit ≤ (s.time + 60 - (PointLive.fresh 0).staleRef).toNat) := by
  decide +kernel

/-- DI0 goes from SHORT to class 2 of 20 ms while its timer runs, and DO3 becomes a MANUAL output. -/
theorem witness_CommitsActOnTheShop_contact :
    let m := Image.writeAll (Image.writeAll contactMap 3 (bs [0x32])) 76 (bs [5])
    let s := committing .contact contactMap m
    let w := ({ s with contacts := { s.contacts with persistence := s.contacts.persistence.set 0 (.running 0) } } : State)
    s.pinLow = false ∧ s.mgmt.validator.validating = some .contact ∧ s.validate .contact = none
      ∧ w.contacts.persistence[(0 : InputNo)] = .running 0
      ∧ persistenceTime (inputEntry m 0).filter ≤ (s.time + 20 - 0).toNat
      ∧ (s.time + 19 - 0).toNat < persistenceTime (inputEntry m 0).filter
      ∧ ((outputEntry m 3).function = fnManual ∧ (s.output 3).function ≠ fnManual) := by
  decide +kernel

end Sys2Proof.Tests
end

section
/-! SUPPORT. The arbiter (R16, R17) and the placements (R12 to R15), each said once: what a furnace search finds, when
nothing waits, what a take leaves, and what the blocks' own placements can do to the loop port (`Inserted`). -/

namespace Sys2Proof.Machine

/-! ### Searches among the furnaces -/

/-- The furnaces below a furnace stand before it. -/
theorem furnaces_split (f : Furnace) : furnaces = furnaces.take f ++ f :: furnaces.drop (f + 1) := by
  revert f; decide

theorem mem_furnaces_take (f g : Furnace) : g ∈ furnaces.take f ↔ g < f := by revert f g; decide

theorem furnaces_find? {p : Furnace → Bool} {f : Furnace} (h : p f = true) (lt : ∀ g < f, p g = false) :
    furnaces.find? p = some f := by
  have before : (furnaces.take f).find? p = none :=
    List.find?_eq_none.2 fun g hg => by simp [lt g ((mem_furnaces_take f g).1 hg)]
  rw [furnaces_split f, List.find?_append, before]
  simp [h]

theorem furnaces_find?_none {p : Furnace → Bool} : furnaces.find? p = none ↔ ∀ f, p f = false := by
  simp [List.find?_eq_none, mem_furnaces]

theorem furnaces_findSome? {α : Type} {p : Furnace → Option α} {f : Furnace} {x : α} (h : p f = some x)
    (lt : ∀ g < f, p g = none) : furnaces.findSome? p = some x := by
  have before : (furnaces.take f).findSome? p = none :=
    List.findSome?_eq_none_iff.2 fun g hg => lt g ((mem_furnaces_take f g).1 hg)
  rw [furnaces_split f, List.findSome?_append, before]
  simp [h]

/-! ### What the arbiter picks -/

variable (l : LoopPort)

theorem LoopPort.insertPick_eq_none_iff : l.insertPick = none ↔
    (∀ f : Furnace, l.orders[f] = none) ∧ (∀ f : Furnace, l.permits[f] = none) ∧ l.reply = none
      ∧ l.statuses = [] ∧ l.reports = [] := by
  have ho := furnaces_find?_none (p := fun f => (l.orders[f]).isSome)
  have hp := furnaces_find?_none (p := fun f => (l.permits[f]).isSome)
  simp only [Option.isSome_eq_false_iff, Option.isNone_iff_eq_none] at ho hp
  rw [← ho, ← hp]
  unfold LoopPort.insertPick
  cases furnaces.find? (fun f => (l.orders[f]).isSome)
  · cases furnaces.find? (fun f => (l.permits[f]).isSome)
    · cases l.reply <;> by_cases hs : l.statuses = [] <;> by_cases hr : l.reports = [] <;> simp [hs, hr]
    · simp
  · simp

theorem LoopPort.waits_eq_false_iff : l.waits = false ↔ l.transit = [] ∧ l.insertPick = none := by
  simp [LoopPort.waits]

theorem LoopPort.safetyPick_eq_none_iff :
    l.safetyPick = none ↔ ∀ f, l.safetyOrder f = false ∧ l.withdrawal f = false := by
  unfold LoopPort.safetyPick
  simp only [List.findSome?_eq_none_iff, mem_furnaces, true_implies]
  refine forall_congr' fun f => ?_
  cases l.safetyOrder f <;> cases l.withdrawal f <;> simp

/-- Nothing of the safety class waits where nothing of the insertion path does. -/
theorem LoopPort.safetyPick_none {l : LoopPort} (h : l.insertPick = none) : l.safetyPick = none := by
  obtain ⟨orders, permits, _⟩ := (l.insertPick_eq_none_iff).1 h
  exact (l.safetyPick_eq_none_iff).2 fun f => by
    simp only [LoopPort.safetyOrder, LoopPort.withdrawal, orders f, permits f, and_self]

/-- The place that a pick names holds a record. -/
def LoopPort.holds : Pick → Prop
  | .order f => l.orders[f] ≠ none
  | .permit f => l.permits[f] ≠ none
  | .reply => l.reply ≠ none
  | .status => l.statuses ≠ []
  | .report => l.reports ≠ []

theorem LoopPort.safetyPick_holds {p : Pick} (h : l.safetyPick = some p) : l.holds p := by
  obtain ⟨f, _, hf⟩ := List.exists_of_findSome?_eq_some h
  by_cases so : l.safetyOrder f = true
  · obtain rfl : Pick.order f = p := by simpa [so] using hf
    intro e
    have e' : l.orders[f] = none := e
    simp only [LoopPort.safetyOrder, e'] at so
    cases so
  · by_cases w : l.withdrawal f = true
    · obtain rfl : Pick.permit f = p := by simpa [so, w] using hf
      intro e
      have e' : l.permits[f] = none := e
      simp only [LoopPort.withdrawal, e'] at w
      cases w
    · simp [so, w] at hf

theorem LoopPort.insertPick_holds {p : Pick} (h : l.insertPick = some p) : l.holds p := by
  unfold LoopPort.insertPick at h
  split at h
  next f hf =>
    obtain rfl := Option.some.inj h
    exact Option.isSome_iff_ne_none.1 (by simpa using List.find?_some hf)
  next =>
    split at h
    next f hf =>
      obtain rfl := Option.some.inj h
      exact Option.isSome_iff_ne_none.1 (by simpa using List.find?_some hf)
    next =>
      split_ifs at h with hr hs hp
      · obtain rfl := Option.some.inj h; exact Option.isSome_iff_ne_none.1 hr
      · obtain rfl := Option.some.inj h; exact hs
      · obtain rfl := Option.some.inj h; exact hp

/-! ### What a take leaves -/

/-- A frame taken from a place that holds a record is originated by the loop port without that record (R17). -/
theorem LoopPort.takeInsert_originates {p : Pick} (h : l.holds p) :
    ∃ (l' : LoopPort) (dest kind : Byte) (body : List Byte), l.takeInsert p = l'.originate dest kind body
      ∧ (l.bounded → l'.bounded) ∧ (l.reply = none → l'.reply = none) := by
  unfold LoopPort.takeInsert
  cases p with
  | order f =>
    obtain ⟨r, hr⟩ := Option.ne_none_iff_exists'.1 h
    dsimp only
    rw [hr]
    exact ⟨_, _, _, _, rfl, id, id⟩
  | permit f =>
    obtain ⟨r, hr⟩ := Option.ne_none_iff_exists'.1 h
    dsimp only
    rw [hr]
    exact ⟨_, _, _, _, rfl, id, id⟩
  | reply =>
    obtain ⟨r, hr⟩ := Option.ne_none_iff_exists'.1 h
    dsimp only
    rw [hr]
    exact ⟨_, _, _, _, rfl, id, fun _ => rfl⟩
  | status =>
    obtain ⟨x, rest, hx⟩ := List.exists_cons_of_ne_nil h
    dsimp only
    rw [hx]
    refine ⟨_, _, _, _, rfl, fun ⟨transit, reports, statuses⟩ => ⟨transit, reports, ?_⟩, id⟩
    rw [hx, List.length_cons] at statuses
    exact Nat.le_of_succ_le statuses
  | report =>
    obtain ⟨x, rest, hx⟩ := List.exists_cons_of_ne_nil h
    dsimp only
    rw [hx]
    refine ⟨_, _, _, _, rfl, fun ⟨transit, reports, statuses⟩ => ⟨transit, ?_, statuses⟩, id⟩
    rw [hx, List.length_cons] at reports
    exact Nat.le_of_succ_le reports

theorem LoopPort.takeInsert_link {p : Pick} (h : l.holds p) : (l.takeInsert p).link ≠ .idle := by
  obtain ⟨l', dest, kind, body, e, _⟩ := l.takeInsert_originates h
  rw [e]
  exact nofun

theorem LoopPort.takeInsert_bounded {p : Pick} (hp : l.holds p) (h : l.bounded) : (l.takeInsert p).bounded := by
  obtain ⟨l', dest, kind, body, e, bounded, _⟩ := l.takeInsert_originates hp
  rw [e]
  exact bounded h

theorem LoopPort.takeInsert_reply {p : Pick} (hp : l.holds p) (h : l.reply = none) : (l.takeInsert p).reply = none := by
  obtain ⟨l', dest, kind, body, e, _, reply⟩ := l.takeInsert_originates hp
  rw [e]
  exact reply h

/-- What a take can do: a frame of the insertion path goes, or the head of the transit FIFO, or nothing waits. -/
theorem LoopPort.take_cases :
    (∃ p turn, l.holds p ∧ l.take = { l.takeInsert p with turn := turn })
    ∨ (∃ x rest, l.transit = x :: rest ∧ l.take = { l with transit := rest, link := .sending x, turn := .insert })
    ∨ (l.waits = false ∧ l.take = { l with link := .idle }) := by
  unfold LoopPort.take
  cases hs : l.safetyPick with
  | some p => exact .inl ⟨p, _, l.safetyPick_holds hs, rfl⟩
  | none =>
    cases ht : l.transit with
    | nil =>
      cases hp : l.insertPick with
      | none => exact .inr (.inr ⟨(l.waits_eq_false_iff).2 ⟨ht, hp⟩, rfl⟩)
      | some p => exact .inl ⟨p, _, l.insertPick_holds hp, rfl⟩
    | cons x rest =>
      cases hp : l.insertPick with
      | none => exact .inr (.inl ⟨x, rest, rfl, rfl⟩)
      | some p =>
        cases l.turn with
        | transit => exact .inr (.inl ⟨x, rest, rfl, rfl⟩)
        | insert => exact .inl ⟨p, _, l.insertPick_holds hp, rfl⟩

theorem LoopPort.take_bounded (h : l.bounded) : l.take.bounded := by
  obtain ⟨p, turn, hp, e⟩ | ⟨x, rest, ht, e⟩ | ⟨_, e⟩ := l.take_cases <;> rw [e]
  · exact l.takeInsert_bounded hp h
  · obtain ⟨transit, reports, statuses⟩ := h
    rw [ht, List.length_cons] at transit
    exact ⟨Nat.le_of_succ_le transit, reports, statuses⟩
  · exact h

theorem LoopPort.take_reply (h : l.reply = none) : l.take.reply = none := by
  obtain ⟨p, turn, hp, e⟩ | ⟨x, rest, _, e⟩ | ⟨_, e⟩ := l.take_cases <;> rw [e]
  · exact l.takeInsert_reply hp h
  · exact h
  · exact h

/-- The link is IDLE after a take only where nothing waited (R16). -/
theorem LoopPort.take_idle (h : l.take.link = .idle) : l.waits = false ∧ l.take = { l with link := .idle } := by
  obtain ⟨p, turn, hp, e⟩ | ⟨x, rest, _, e⟩ | last := l.take_cases
  · rw [e] at h; exact absurd h (l.takeInsert_link hp)
  · rw [e] at h; cases h
  · exact last

/-! ### What the blocks' own placements do -/

/-- The FIFOs are within their depths, and nothing waits on an IDLE link (R12, R15, R16). -/
def LoopPort.safe (l : LoopPort) : Prop := l.bounded ∧ (l.link = .idle → l.waits = false)

/-- What the blocks' own placements and counts make of the loop port `l`: they keep the FIFOs within their depths, a
busy link and what passes by it, the reply slot; from a link with nothing waiting they either start a frame or leave
nothing waiting. -/
structure Inserted (l l' : LoopPort) : Prop where
  station : l'.station = l.station
  bounded : l.bounded → l'.bounded
  busy : ∀ x, l.link = .sending x →
    l'.link = .sending x ∧ l'.reply = l.reply ∧ l'.seq = l.seq ∧ l'.transit = l.transit
  free : l.link = .idle → l.waits = false →
    l'.reply = none ∧ (l'.link = .idle → l'.waits = false ∧ l'.seq = l.seq)

variable {l}

theorem LoopPort.reply_none (h : l.waits = false) : l.reply = none := by
  obtain ⟨_, _, reply, _⟩ := (l.insertPick_eq_none_iff).1 ((l.waits_eq_false_iff).1 h).2
  exact reply

theorem Inserted.refl (l : LoopPort) : Inserted l l :=
  ⟨rfl, id, fun _ h => ⟨h, rfl, rfl, rfl⟩, fun _ h => ⟨LoopPort.reply_none h, fun _ => ⟨h, rfl⟩⟩⟩

theorem Inserted.trans {a b c : LoopPort} (h : Inserted a b) (k : Inserted b c) : Inserted a c where
  station := k.station.trans h.station
  bounded hb := k.bounded (h.bounded hb)
  busy x hx := by
    obtain ⟨link, reply, seq, transit⟩ := h.busy x hx
    obtain ⟨link', reply', seq', transit'⟩ := k.busy x link
    exact ⟨link', reply'.trans reply, seq'.trans seq, transit'.trans transit⟩
  free hi hw := by
    obtain ⟨reply, still⟩ := h.free hi hw
    cases hb : b.link with
    | idle =>
      obtain ⟨waits, seq⟩ := still hb
      obtain ⟨reply', still'⟩ := k.free hb waits
      exact ⟨reply', fun hc => ⟨(still' hc).1, (still' hc).2.trans seq⟩⟩
    | sending x =>
      obtain ⟨link', reply', _⟩ := k.busy x hb
      exact ⟨reply'.trans reply, fun hc => by rw [hc] at link'; cases link'⟩

theorem Inserted.safe {l' : LoopPort} (h : Inserted l l') (hs : l.safe) : l'.safe := by
  refine ⟨h.bounded hs.1, fun hi => ?_⟩
  cases hl : l.link with
  | idle => exact (((h.free hl (hs.2 hl)).2) hi).1
  | sending x => rw [(h.busy x hl).1] at hi; cases hi

/-- A placement in the slots and FIFOs of the insertion path but the reply slot, and a count. -/
theorem Inserted.kicked {a b : LoopPort} (station : b.station = a.station) (bounded : a.bounded → b.bounded)
    (link : b.link = a.link) (reply : b.reply = a.reply) (seq : b.seq = a.seq) (transit : b.transit = a.transit) :
    Inserted a b.kick where
  station := by rw [(kick_fixed b).1, station]
  bounded h := by
    unfold LoopPort.kick
    split
    · exact b.take_bounded (bounded h)
    · exact bounded h
  busy x hx := by
    have busy : b.link ≠ .idle := by rw [link, hx]; exact nofun
    rw [kick_busy b busy]
    exact ⟨link.trans hx, reply, seq, transit⟩
  free hi hw := by
    have idle : b.kick = b.take := by unfold LoopPort.kick; rw [link, hi]
    rw [idle]
    refine ⟨b.take_reply (reply.trans (LoopPort.reply_none hw)), fun hc => ?_⟩
    obtain ⟨waits, e⟩ := b.take_idle hc
    exact ⟨by rw [e]; exact waits, by rw [e]; exact seq⟩

/-- A count, or another mark that no rule of the arbiter reads. -/
theorem Inserted.marked (a : LoopPort) (receiver : Receiver) (live : Live) (lastValid : Time)
    (counters : LoopCounters) :
    Inserted a { a with receiver := receiver, live := live, lastValid := lastValid, counters := counters } :=
  ⟨rfl, id, fun _ h => ⟨h, rfl, rfl, rfl⟩, fun _ h => ⟨LoopPort.reply_none h, fun _ => ⟨h, rfl⟩⟩⟩

/-! The placements of the blocks. -/

theorem placeOrder_inserted (a : LoopPort) (f : Furnace) (r : OrderRec) : Inserted a (a.placeOrder f r) :=
  Inserted.kicked rfl id rfl rfl rfl rfl

theorem placePermit_inserted (a : LoopPort) (f : Furnace) (r : PermitRec) : Inserted a (a.placePermit f r) :=
  Inserted.kicked rfl id rfl rfl rfl rfl

theorem placeReport_inserted (a : LoopPort) (r : Report) : Inserted a (a.placeReport r) := by
  unfold LoopPort.placeReport
  split
  next room =>
    refine Inserted.kicked rfl (fun ⟨transit, _, statuses⟩ => ⟨transit, ?_, statuses⟩) rfl rfl rfl rfl
    simpa using room
  next => exact Inserted.marked a _ _ _ _

theorem placeStatus_inserted (a : LoopPort) (x : Status) : Inserted a (a.placeStatus x) := by
  unfold LoopPort.placeStatus
  split
  next room =>
    refine Inserted.kicked rfl (fun ⟨transit, reports, _⟩ => ⟨transit, reports, ?_⟩) rfl rfl rfl rfl
    simpa using room
  next full =>
    refine Inserted.kicked rfl (fun ⟨transit, reports, statuses⟩ => ⟨transit, reports, ?_⟩) rfl rfl rfl rfl
    unfold statusDepth at full statuses ⊢
    simp
    omega

/-! The placements of arriving frames and of replies, which keep the loop port safe. -/

theorem LoopPort.kick_safe (h : l.bounded) : l.kick.safe := by
  unfold LoopPort.kick
  split
  · exact ⟨l.take_bounded h, fun hi => by
      obtain ⟨waits, e⟩ := l.take_idle hi
      rw [e]; exact waits⟩
  next x hx => exact ⟨h, fun hi => by rw [hx] at hi; cases hi⟩

theorem placeTransit_safe (frame : List Byte) (h : l.safe) : (l.placeTransit frame).safe := by
  unfold LoopPort.placeTransit
  split
  next room =>
    obtain ⟨_, reports, statuses⟩ := h.1
    exact LoopPort.kick_safe ⟨by simpa using room, reports, statuses⟩
  next => exact (Inserted.marked l _ _ _ _ : Inserted l _).safe h

theorem placeReply_safe (r : ReplyRec) (h : l.safe) : (l.placeReply r).safe := LoopPort.kick_safe h.1

end Sys2Proof.Machine
end

section
/-! SUPPORT. What each operation of the blocks does to the loop port (`Inserted`), in the order of the operations'
definitions; an operation that `Laws/Frames.lean` says leaves the loop port alone has no lemma here. -/

namespace Sys2Proof.Machine

variable {l : LoopPort} {s : State}

/-- A fold of operations that keep to placements of the blocks. -/
theorem foldl_inserted {β : Type} {g : State → β → State}
    (step : ∀ (s : State) (b : β), Inserted l s.loop → Inserted l (g s b).loop) (bs : List β) (h : Inserted l s.loop) :
    Inserted l (bs.foldl g s).loop := by
  induction bs generalizing s with
  | nil => exact h
  | cons b bs ih => exact ih (step s b h)

/-! ### The loop port, the conditions and the heats -/

theorem State.placeStatus_inserted {k : StatusKind} {d : Option Byte} {f : Option Furnace}
    {p : Option Nat} (h : Inserted l s.loop) : Inserted l (s.placeStatus k d f p).loop :=
  h.trans (Machine.placeStatus_inserted _ _)

theorem State.placeReport_inserted {b : ReportBody} (h : Inserted l s.loop) : Inserted l (s.placeReport b).loop :=
  h.trans (Machine.placeReport_inserted _ _)

theorem State.raise_inserted {k : Kind} {n : Nat} (h : Inserted l s.loop) : Inserted l (s.raise k n).loop :=
  h.trans (Machine.placeReport_inserted _ _)

theorem State.overcharge_inserted {f : Furnace} {old m : Nat} (h : Inserted l s.loop) :
    Inserted l (s.overcharge f old m).loop := by
  unfold State.overcharge
  split
  · exact raise_inserted h
  · exact h

theorem State.charge_inserted {f : Furnace} {m : Nat} (h : Inserted l s.loop) : Inserted l (s.charge f m).loop := by
  unfold State.charge State.firstCharge State.furtherCharge
  split
  · exact h
  · split
    · exact raise_inserted h
    · split
      · exact overcharge_inserted h
      · exact overcharge_inserted h
      · exact overcharge_inserted h
      · exact overcharge_inserted h
      · exact raise_inserted h
      · exact raise_inserted h

theorem State.dip_inserted {f : Furnace} {t : Int} (h : Inserted l s.loop) : Inserted l (s.dip f t).loop := by
  unfold State.dip State.anchor
  dsimp only
  split
  · exact h
  · split
    · split
      · exact raise_inserted h
      · exact h
    · exact h

theorem State.overheld_inserted {f : Furnace} (h : Inserted l s.loop) : Inserted l (s.overheld f).loop :=
  raise_inserted h

theorem State.tiltFault_inserted {f : Furnace} (h : Inserted l s.loop) : Inserted l (s.tiltFault f).loop :=
  raise_inserted h

/-! ### The allocator -/

theorem State.placeOrder_inserted {f : Furnace} {c : OrderClass} (h : Inserted l s.loop) :
    Inserted l (s.placeOrder f c).loop := by
  unfold State.placeOrder
  split
  · exact h.trans (Machine.placeOrder_inserted _ _ _)
  · exact h

theorem State.setIssued_inserted {f : Furnace} {v : Nat} {c : OrderClass} (h : Inserted l s.loop) :
    Inserted l (s.setIssued f v c).loop := placeOrder_inserted h

theorem State.applyGrant_inserted {f : Furnace} {d g : Nat} (h : Inserted l s.loop) :
    Inserted l (s.applyGrant f d g).loop := by
  unfold State.applyGrant
  dsimp only
  split
  · exact setIssued_inserted h
  · split <;> exact h

theorem State.remake_inserted (h : Inserted l s.loop) : Inserted l s.remake.loop :=
  foldl_inserted (fun _ _ h => applyGrant_inserted h) _ h

theorem State.rampExpire_inserted {f : Furnace} (h : Inserted l s.loop) : Inserted l (s.rampExpire f).loop := by
  unfold State.rampExpire
  dsimp only
  split
  · exact h
  · exact setIssued_inserted h

theorem State.placeZeros_inserted (h : Inserted l s.loop) : Inserted l s.placeZeros.loop :=
  foldl_inserted (fun _ _ h => placeOrder_inserted h) _ h

/-! ### The tap coordinator -/

theorem State.withdraw_inserted {r : Pour} (h : Inserted l s.loop) : Inserted l (s.withdraw r).loop :=
  h.trans (placePermit_inserted _ _ _)

theorem State.completePour_inserted {r : Pour} (h : Inserted l s.loop) : Inserted l (s.completePour r).loop := by
  refine placeStatus_inserted ?_
  simpa using h

theorem State.completionTest_inserted (h : Inserted l s.loop) : Inserted l s.completionTest.loop := by
  unfold State.completionTest
  split
  · split
    · exact completePour_inserted h
    · exact h
  · exact h

theorem State.startReturn_inserted {r : Pour} (h : Inserted l s.loop) : Inserted l (s.startReturn r).loop :=
  withdraw_inserted h

theorem State.endPour_inserted {r : Pour} (h : Inserted l s.loop) : Inserted l (s.endPour r).loop :=
  completionTest_inserted (startReturn_inserted h)

theorem State.interruptPour_inserted {r : Pour} {a : Bool} (h : Inserted l s.loop) :
    Inserted l (s.interruptPour r a).loop := by
  unfold State.interruptPour
  refine completionTest_inserted ?_
  dsimp only
  split
  · exact raise_inserted (startReturn_inserted h)
  · exact startReturn_inserted h

theorem State.releaseFurnace_inserted {r : Pour} (h : Inserted l s.loop) : Inserted l (s.releaseFurnace r).loop := by
  unfold State.releaseFurnace
  dsimp only
  split
  · exact withdraw_inserted h
  · exact h

theorem State.abandon_inserted {r : Pour} {a : Bool} (h : Inserted l s.loop) : Inserted l (s.abandon r a).loop := by
  unfold State.abandon
  dsimp only
  split
  · exact raise_inserted (placeStatus_inserted (releaseFurnace_inserted h))
  · exact placeStatus_inserted (releaseFurnace_inserted h)

theorem State.abandonOn_inserted {p : Furnace → Bool} (h : Inserted l s.loop) : Inserted l (s.abandonOn p).loop := by
  unfold State.abandonOn
  split
  · split
    · exact abandon_inserted h
    · exact h
  · split
    · exact abandon_inserted h
    · exact h
  · exact h

theorem State.tapOnTrip_inserted {c : CircuitNo} (h : Inserted l s.loop) : Inserted l (s.tapOnTrip c).loop :=
  abandonOn_inserted h

theorem State.tapOnFollow_inserted {f : Furnace} (h : Inserted l s.loop) : Inserted l (s.tapOnFollow f).loop :=
  abandonOn_inserted h

theorem State.tapOnProfile_inserted (h : Inserted l s.loop) : Inserted l s.tapOnProfile.loop := abandonOn_inserted h

theorem State.tapOnExpired_inserted (h : Inserted l s.loop) : Inserted l s.tapOnExpired.loop := by
  unfold State.tapOnExpired
  split
  · exact abandon_inserted h
  · exact h

theorem State.tapOnAllStop_inserted (h : Inserted l s.loop) : Inserted l s.tapOnAllStop.loop := by
  unfold State.tapOnAllStop
  split
  · exact abandon_inserted h
  · exact abandon_inserted h
  · exact interruptPour_inserted h
  · exact h

theorem State.ladleValue_inserted {v : Nat} (h : Inserted l s.loop) : Inserted l (s.ladleValue v).loop := by
  unfold State.ladleValue
  dsimp only
  split
  · split
    · exact endPour_inserted h
    · exact h
  · exact h
  · exact h

theorem State.startPour_inserted {r : Pour} (h : Inserted l s.loop) : Inserted l (s.startPour r).loop := by
  unfold State.startPour
  dsimp only
  split
  · exact interruptPour_inserted h
  · exact h

theorem State.tiltValue_inserted {f : Furnace} {v : Nat} (h : Inserted l s.loop) :
    Inserted l (s.tiltValue f v).loop := by
  unfold State.tiltValue
  dsimp only
  split
  · split
    · exact startPour_inserted h
    · exact h
  · split
    · exact endPour_inserted h
    · exact h
  · split
    · exact completionTest_inserted h
    · exact h
  · exact h

theorem State.tiltHomeNotice_inserted {f : Furnace} (h : Inserted l s.loop) :
    Inserted l (s.tiltHomeNotice f).loop := by
  unfold State.tiltHomeNotice
  split
  · split
    · exact completionTest_inserted h
    · exact h
  · exact h

theorem State.ladleStale_inserted (h : Inserted l s.loop) : Inserted l s.ladleStale.loop := by
  unfold State.ladleStale
  split
  · exact interruptPour_inserted h
  · exact h

theorem State.tiltStale_inserted {f : Furnace} (h : Inserted l s.loop) : Inserted l (s.tiltStale f).loop := by
  have faulted := tiltFault_inserted (f := f) h
  unfold State.tiltStale
  split
  · split
    · exact abandon_inserted faulted
    · exact h
  · split
    · exact interruptPour_inserted faulted
    · exact h
  · split
    · exact completePour_inserted faulted
    · exact h
  · exact h

theorem State.tiltStartExpire_inserted (h : Inserted l s.loop) : Inserted l s.tiltStartExpire.loop := by
  unfold State.tiltStartExpire
  split
  · exact abandon_inserted h
  · exact h

theorem State.pourExpire_inserted (h : Inserted l s.loop) : Inserted l s.pourExpire.loop := by
  unfold State.pourExpire
  split
  · exact interruptPour_inserted h
  · exact h

theorem State.queueDemand_inserted {d : Demand} {held : Nat} (h : Inserted l s.loop) :
    Inserted l (s.queueDemand d held).loop := by
  unfold State.queueDemand
  split
  · exact placeStatus_inserted h
  · split <;> exact placeStatus_inserted h

theorem State.demand_inserted {d : Demand} (h : Inserted l s.loop) : Inserted l (s.demand d).loop := by
  unfold State.demand
  split
  · exact placeStatus_inserted h
  · split
    · split
      · exact placeStatus_inserted h
      · exact queueDemand_inserted h
    · exact queueDemand_inserted h

theorem State.cancelHeld_inserted {r : Pour} (h : Inserted l s.loop) : Inserted l (s.cancelHeld r).loop := by
  unfold State.cancelHeld
  split
  · exact placeStatus_inserted (releaseFurnace_inserted h)
  · exact placeStatus_inserted (releaseFurnace_inserted h)
  · exact endPour_inserted h
  · exact h
  · exact h

theorem State.cancel_inserted {i : Byte} (h : Inserted l s.loop) : Inserted l (s.cancel i).loop := by
  unfold State.cancel
  split
  · exact placeStatus_inserted h
  · split
    · split
      · exact cancelHeld_inserted h
      · exact placeStatus_inserted h
    · exact placeStatus_inserted h

/-! ### The cooling monitor and the watchdog -/

theorem State.enterTrip_inserted {c : CircuitNo} {x : TripCause} (h : Inserted l s.loop) :
    Inserted l (s.enterTrip c x).loop := by
  unfold State.enterTrip
  refine tapOnTrip_inserted ?_
  simp only [State.waterTest_frame]
  exact raise_inserted h

theorem State.settleCircuit_inserted {c : CircuitNo} (h : Inserted l s.loop) :
    Inserted l (s.settleCircuit c).loop := by
  unfold State.settleCircuit
  split
  · exact enterTrip_inserted h
  · exact h

theorem State.circuitTest_inserted {c : CircuitNo} (h : Inserted l s.loop) : Inserted l (s.circuitTest c).loop := by
  unfold State.circuitTest
  split
  · exact settleCircuit_inserted h
  · exact settleCircuit_inserted h
  · exact settleCircuit_inserted h
  · split
    · exact enterTrip_inserted h
    · exact h
  · exact h
  · exact h

theorem State.startingTest_inserted {c : CircuitNo} (h : Inserted l s.loop) :
    Inserted l (s.startingTest c).loop := by
  unfold State.startingTest
  dsimp only
  split
  · exact settleCircuit_inserted h
  · exact h

theorem State.evaluate_inserted {c : CircuitNo} {q : QuantityNo} {v : Int} (h : Inserted l s.loop) :
    Inserted l (s.evaluate c q v).loop := circuitTest_inserted h

theorem State.coolingValue_inserted {k : CoolingKind} {c : CircuitNo} {v : Int} (h : Inserted l s.loop) :
    Inserted l (s.coolingValue k c v).loop := by
  unfold State.coolingValue
  split
  · exact h
  · cases k with
    | flow => exact evaluate_inserted h
    | pressure => exact evaluate_inserted h
    | supply => exact h
    | ret =>
      dsimp only
      split
      · exact evaluate_inserted (evaluate_inserted h)
      · exact evaluate_inserted h

theorem State.dropQuantity_inserted {c : CircuitNo} {q : QuantityNo} {kept : Bool} (h : Inserted l s.loop) :
    Inserted l (s.dropQuantity c q kept).loop := by
  unfold State.dropQuantity
  split
  · exact h
  · exact circuitTest_inserted h

theorem State.recheckPoints_inserted {c : CircuitNo} (h : Inserted l s.loop) :
    Inserted l (s.recheckPoints c).loop := by
  unfold State.recheckPoints
  split
  · exact h
  · exact dropQuantity_inserted (dropQuantity_inserted (dropQuantity_inserted (dropQuantity_inserted h)))

theorem State.recommitCircuit_inserted {m : Image} {c : CircuitNo} (h : Inserted l s.loop) :
    Inserted l (s.recommitCircuit m c).loop := by
  unfold State.recommitCircuit
  split
  · exact h
  · exact circuitTest_inserted h
  · exact h
  · split
    · exact startingTest_inserted h
    · exact h

theorem State.enterExpired_inserted (h : Inserted l s.loop) : Inserted l s.enterExpired.loop := by
  unfold State.enterExpired
  refine tapOnExpired_inserted ?_
  simp only [State.applySafeModes_frame]
  exact raise_inserted h

theorem State.enterAllStop_inserted {c : StopCause} {n : Byte} (h : Inserted l s.loop) :
    Inserted l (s.enterAllStop c n).loop := by
  unfold State.enterAllStop
  split
  · exact h
  · refine tapOnAllStop_inserted (placeZeros_inserted (remake_inserted ?_))
    simp only [State.zeroOrders_frame]
    exact raise_inserted h

/-! ### The contact unit -/

theorem State.edge_inserted {i : InputNo} {rising : Bool} (h : Inserted l s.loop) :
    Inserted l (s.edge i rising).loop := by
  unfold State.edge
  dsimp only
  split
  · split
    · exact raise_inserted (placeReport_inserted h)
    · exact placeReport_inserted h
  · exact h

theorem State.estopNotice_inserted (h : Inserted l s.loop) : Inserted l s.estopNotice.loop := by
  unfold State.estopNotice
  split
  · exact enterAllStop_inserted h
  · exact h

/-- A notice is sent only where an indication changed. -/
theorem ite_inserted {p : Prop} [Decidable p] {u : State} (h : Inserted l s.loop) (k : Inserted l u.loop) :
    Inserted l (if p then s else u).loop := by
  split
  · exact h
  · exact k

theorem State.sendNotices_inserted {old : Indications} (h : Inserted l s.loop) :
    Inserted l (s.sendNotices old).loop := by
  unfold State.sendNotices
  refine foldl_inserted (fun _ _ h => ite_inserted h (tiltHomeNotice_inserted h)) _ ?_
  refine foldl_inserted (fun _ _ h => ite_inserted h (startingTest_inserted h)) _ ?_
  refine foldl_inserted (fun _ _ h => ite_inserted h (circuitTest_inserted h)) _ ?_
  refine foldl_inserted (fun _ _ h => ite_inserted h (circuitTest_inserted h)) _ ?_
  exact ite_inserted h (estopNotice_inserted h)

theorem State.refreshIndications_inserted (h : Inserted l s.loop) : Inserted l s.refreshIndications.loop :=
  sendNotices_inserted h

theorem State.filteredChange_inserted {i : InputNo} (h : Inserted l s.loop) :
    Inserted l (s.filteredChange i).loop := edge_inserted (refreshIndications_inserted h)

theorem State.rawChange_inserted {i : InputNo} {closed : Bool} (h : Inserted l s.loop) :
    Inserted l (s.rawChange i closed).loop := by
  unfold State.rawChange
  dsimp only
  split
  · exact h
  · split
    · exact h
    · split
      · exact filteredChange_inserted h
      · exact h

theorem State.recommitInput_inserted {i : InputNo} (h : Inserted l s.loop) :
    Inserted l (s.recommitInput i).loop := by
  unfold State.recommitInput
  split
  · exact edge_inserted h
  · exact h

theorem State.recommitContacts_inserted {m : Image} (h : Inserted l s.loop) :
    Inserted l (s.recommitContacts m).loop := by
  have inputs : Inserted l (inputNos.foldl (fun s i => s.recommitInput i) s).loop :=
    foldl_inserted (fun _ _ h => recommitInput_inserted h) _ h
  unfold State.recommitContacts
  simp only [State.recommitOutputs_frame]
  exact refreshIndications_inserted inputs

/-! ### The end of an event -/

/-- What the end of an event places: the cut orders, ASSIGNED and the GRANT. -/
theorem TapEnd.inserted {s u t : State} {m : Option (Demand × Furnace)} {g : Option Pour} (h : TapEnd s u t m g) :
    Inserted u.loop t.loop := by
  have cut : ∀ (a : LoopPort) (f : Furnace), Inserted a (cutOrder u t a f) := by
    intro a f
    unfold cutOrder
    dsimp only
    split
    · exact Machine.placeOrder_inserted _ _ _
    · exact Inserted.refl _
  have cuts : ∀ (fs : List Furnace) (a : LoopPort), Inserted a (fs.foldl (cutOrder u t) a) := by
    intro fs
    induction fs with
    | nil => exact Inserted.refl
    | cons f fs ih => exact fun a => (cut a f).trans (ih _)
  have told : ∀ a : LoopPort, Inserted a (u.assignedTold a m) := by
    intro a
    cases m with
    | none => exact Inserted.refl _
    | some y => exact Machine.placeStatus_inserted _ _
  have granted : ∀ a : LoopPort, Inserted a (t.grantTold a g) := by
    intro a
    cases g with
    | none => exact Inserted.refl _
    | some r => exact placePermit_inserted _ _ _
  rw [h.loop]
  exact ((cuts _ _).trans (told _)).trans (granted _)

theorem EventEnd.inserted {s u t : State} {x : Causes} (h : EventEnd s u t x) : Inserted u.loop t.loop := by
  obtain ⟨m, g, _, _, ends⟩ := h.tap
  exact ends.inserted

theorem State.settle_inserted {s0 : State} {x : Causes} (h : Inserted l s.loop) : Inserted l (s0.settle s x).loop :=
  h.trans (State.settle_end s0 s x).inserted

/-! ### Point intake -/

theorem State.staleNotice_inserted {key : StaleKey} (h : Inserted l s.loop) : Inserted l (s.staleNotice key).loop := by
  cases key with
  | power f => simpa [State.staleNotice] using h
  | cooling c k => exact circuitTest_inserted h
  | ladle => exact ladleStale_inserted h
  | tilt f => exact tiltStale_inserted h

theorem State.freshToOwner_inserted {key : StaleKey} (h : Inserted l s.loop) :
    Inserted l (s.freshToOwner key).loop := by
  cases key with
  | power f => exact h
  | cooling c k => exact circuitTest_inserted h
  | ladle => exact h
  | tilt f => exact h

theorem State.turnPointStale_inserted {i : PointNo} {on : Bool} (h : Inserted l s.loop) :
    Inserted l (s.turnPointStale i on).loop := by
  unfold State.turnPointStale State.turnStale
  dsimp only
  split
  · split
    · exact h
    · split
      · exact staleNotice_inserted h
      · exact freshToOwner_inserted h
  · exact h

theorem State.flagStale_inserted {i : PointNo} (h : Inserted l s.loop) : Inserted l (s.flagStale i).loop := by
  unfold State.flagStale
  split
  · exact raise_inserted h
  · exact h

theorem State.deliver_inserted {e : PointEntry} {v : Int} {n : Nat} (h : Inserted l s.loop) :
    Inserted l (s.deliver e v n).loop := by
  unfold State.deliver
  dsimp only
  split
  · simpa using h
  · simpa using h
  · exact dip_inserted h
  · exact charge_inserted h
  · exact ladleValue_inserted h
  · exact tiltValue_inserted h
  · exact coolingValue_inserted h
  · exact coolingValue_inserted h
  · exact coolingValue_inserted h
  · exact coolingValue_inserted h
  · exact h

theorem State.acceptItem_inserted {i : PointNo} {p : PointLive} {seq : Byte} {it : SampleItem}
    (h : Inserted l s.loop) : Inserted l (s.acceptItem i p seq it).loop := by
  unfold State.acceptItem
  refine deliver_inserted ?_
  dsimp only
  split
  · refine turnPointStale_inserted ?_
    split <;> exact h
  · split <;> exact h

theorem State.matchedItem_inserted {i : PointNo} {seq : Byte} {it : SampleItem} (h : Inserted l s.loop) :
    Inserted l (s.matchedItem i seq it).loop := by
  unfold State.matchedItem
  dsimp only
  split
  · exact h
  · split
    · exact settle_inserted (by simpa using h)
    · exact settle_inserted (acceptItem_inserted h)

theorem State.item_inserted {station seq : Byte} {order : Bool} {it : SampleItem} (h : Inserted l s.loop) :
    Inserted l (s.item station seq order it).loop := by
  unfold State.item
  split
  · exact matchedItem_inserted h
  · exact h

theorem State.items_inserted {station seq : Byte} {order : Bool} {body : List Byte} (h : Inserted l s.loop) :
    Inserted l (s.items station seq order body).loop := by
  have all : Inserted l ((sampleItems body).foldl (fun s it => s.item station seq order it) s).loop :=
    foldl_inserted (fun _ _ h => item_inserted h) _ h
  unfold State.items
  exact ite_inserted all all

theorem State.recommitPoints_inserted {m : Image} (h : Inserted l s.loop) : Inserted l (s.recommitPoints m).loop := by
  unfold State.recommitPoints
  dsimp only
  refine foldl_inserted (fun _ _ h => recheckPoints_inserted h) _ ?_
  refine foldl_inserted (fun _ _ h => ?_) _ ?_
  · unfold State.recommitNotice
    split
    · exact staleNotice_inserted h
    · exact freshToOwner_inserted h
    · exact h
  · rw [State.withStale_loop]
    exact foldl_inserted (fun _ _ h => ite_inserted (flagStale_inserted h) h) _ h

/-! ### The commits of the tables -/

theorem State.followExpire_inserted {f : Furnace} (h : Inserted l s.loop) : Inserted l (s.followExpire f).loop :=
  tapOnFollow_inserted (raise_inserted h)

theorem State.recommitProfiles_inserted {s0 : State} (h : Inserted l s.loop) :
    Inserted l (s0.recommitProfiles s).loop := by
  unfold State.recommitProfiles
  simp only [State.driveOutputs_frame]
  refine foldl_inserted (fun s f h => ?_) _ ?_
  · unfold State.replaceOrder
    split
    · exact placeOrder_inserted h
    · exact h
  refine foldl_inserted (fun s f h => ?_) _ ?_
  · unfold State.rampAtCommit
    split
    · exact settle_inserted (rampExpire_inserted h)
    · exact h
  refine foldl_inserted (fun s f h => ?_) _ ?_
  · unfold State.followAtCommit
    split
    · exact settle_inserted (followExpire_inserted h)
    · exact h
  refine settle_inserted ?_
  refine foldl_inserted (fun s f h => by simpa using h) _ ?_
  refine foldl_inserted (fun s f h => by simpa using h) _ ?_
  refine tapOnProfile_inserted ?_
  simp only [State.compareAll_frame]
  refine foldl_inserted (fun s f h => ?_) _ ?_
  · unfold State.holdAtCommit
    split
    · exact overheld_inserted h
    · exact h
  exact foldl_inserted (fun s f h => by simpa using h) _ h

theorem State.completeValidation_inserted {t : TableNo} (h : Inserted l s.loop) :
    Inserted l (s.completeValidation t).loop := by
  unfold State.completeValidation
  split
  · exact raise_inserted h
  · unfold State.commitEffects
    cases t with
    | point => exact settle_inserted (recommitPoints_inserted h)
    | profile => exact recommitProfiles_inserted h
    | cooling => exact settle_inserted (foldl_inserted (fun _ _ h => recommitCircuit_inserted h) _ h)
    | contact => exact settle_inserted (recommitContacts_inserted h)

end Sys2Proof.Machine
end

section
/-! SUPPORT. The items of a MGMT frame: what each leaves of the loop port, of its frame, and how much data it returns
(R188, R189); the warm restart's placements (R202); and what an item's command is outside a frame (log entry 2). -/

namespace Sys2Proof.Machine

variable {l : LoopPort} {s : State}

/-! ### The loop port -/

theorem State.paramWritten_inserted {n : Nat} (h : Inserted l s.loop) : Inserted l (s.paramWritten n).loop := by
  unfold State.paramWritten
  split
  · split
    · exact raise_inserted (h.trans (Inserted.marked _ _ _ _ _))
    · exact h
  · split
    · exact enterExpired_inserted h
    · exact h
  · refine foldl_inserted (fun _ _ h => ?_) _ h
    unfold State.remeasureDipAge
    split <;> exact h
  · exact h

theorem State.itemSetParameter_inserted {n : Byte} {v : BitVec 32} (h : Inserted l s.loop) :
    Inserted l (s.itemSetParameter n v).state.loop := by
  unfold State.itemSetParameter
  dsimp only
  split
  · exact h
  · split_ifs
    · exact h
    · exact h
    · exact h
    · exact h
    · exact settle_inserted (paramWritten_inserted h)

/-- A command on a furnace number. -/
theorem State.onFurnace_inserted {n : Byte} {k : Furnace → ItemOut} (h : Inserted l s.loop)
    (hk : ∀ f, Inserted l (k f).state.loop) : Inserted l (s.onFurnace n k).state.loop := by
  unfold State.onFurnace
  split
  · exact h
  · exact hk _

/-- A refused item and a taken one. -/
theorem ite_item_inserted {p : Prop} [Decidable p] {a b : ItemOut} (ha : Inserted l a.state.loop)
    (hb : Inserted l b.state.loop) : Inserted l (if p then a else b).state.loop := by
  split
  · exact ha
  · exact hb

theorem State.itemOpenHeat_inserted {n : Byte} {id : BitVec 32} (h : Inserted l s.loop) :
    Inserted l (s.itemOpenHeat n id).state.loop :=
  onFurnace_inserted h fun _ => ite_item_inserted h (ite_item_inserted h (settle_inserted h))

theorem State.itemDrain_inserted {n : Byte} (h : Inserted l s.loop) : Inserted l (s.itemDrain n).state.loop :=
  onFurnace_inserted h fun _ => ite_item_inserted h (settle_inserted h)

theorem State.itemSetMass_inserted {n : Byte} {m : BitVec 32} (h : Inserted l s.loop) :
    Inserted l (s.itemSetMass n m).state.loop :=
  onFurnace_inserted h fun _ => ite_item_inserted h (ite_item_inserted h (settle_inserted (by simpa using h)))

theorem State.itemSetBand_inserted {n : Byte} {a b c d : BitVec 16} (h : Inserted l s.loop) :
    Inserted l (s.itemSetBand n a b c d).state.loop :=
  onFurnace_inserted h fun _ => ite_item_inserted h (ite_item_inserted h (settle_inserted (by simpa using h)))

theorem State.itemApprove_inserted {n : Byte} {id : BitVec 32} {m : Byte} (h : Inserted l s.loop) :
    Inserted l (s.itemApprove n id m).state.loop :=
  onFurnace_inserted h fun _ =>
    ite_item_inserted h (ite_item_inserted h (ite_item_inserted h (settle_inserted h)))

theorem State.itemRevoke_inserted {n : Byte} (h : Inserted l s.loop) : Inserted l (s.itemRevoke n).state.loop :=
  onFurnace_inserted h fun _ => settle_inserted h

theorem State.itemResetFurnace_inserted {n : Byte} (h : Inserted l s.loop) :
    Inserted l (s.itemResetFurnace n).state.loop :=
  onFurnace_inserted h fun _ => ite_item_inserted h (ite_item_inserted h (settle_inserted h))

theorem State.itemResetCircuit_inserted {n : Byte} (h : Inserted l s.loop) :
    Inserted l (s.itemResetCircuit n).state.loop := by
  unfold State.itemResetCircuit
  split
  · exact h
  · exact ite_item_inserted (ite_item_inserted h (settle_inserted h)) h

theorem State.itemWdStart_inserted (h : Inserted l s.loop) : Inserted l s.itemWdStart.state.loop := by
  unfold State.itemWdStart
  split
  · exact settle_inserted h
  · exact settle_inserted h
  · exact h
  · exact h
  · exact h

theorem State.itemHeartbeat_inserted {t : BitVec 16} (h : Inserted l s.loop) :
    Inserted l (s.itemHeartbeat t).state.loop := by
  unfold State.itemHeartbeat
  refine ite_item_inserted (ite_item_inserted ?_ (settle_inserted (enterExpired_inserted h))) h
  simpa using h

theorem State.itemWdPause_inserted (h : Inserted l s.loop) : Inserted l s.itemWdPause.state.loop :=
  ite_item_inserted h (ite_item_inserted h (settle_inserted h))

theorem State.itemWdForce_inserted (h : Inserted l s.loop) : Inserted l s.itemWdForce.state.loop := by
  unfold State.itemWdForce
  split
  · exact settle_inserted (enterExpired_inserted h)
  · exact settle_inserted (enterExpired_inserted h)
  · exact settle_inserted (enterExpired_inserted h)
  · exact settle_inserted (enterExpired_inserted h)
  · exact h

theorem State.itemWdRestart_inserted (h : Inserted l s.loop) : Inserted l s.itemWdRestart.state.loop := by
  unfold State.itemWdRestart
  split
  · exact settle_inserted h
  · exact h
  · exact h
  · exact h
  · exact h

theorem State.itemAllStop_inserted {b : Bool} {source : Byte} (h : Inserted l s.loop) :
    Inserted l (s.itemAllStop b source).state.loop := by
  unfold State.itemAllStop
  split
  · exact settle_inserted (enterAllStop_inserted h)
  · exact h

theorem State.itemResume_inserted (h : Inserted l s.loop) : Inserted l s.itemResume.state.loop :=
  ite_item_inserted h (ite_item_inserted h (settle_inserted h))

theorem State.itemReleaseTaps_inserted (h : Inserted l s.loop) : Inserted l s.itemReleaseTaps.state.loop :=
  ite_item_inserted (settle_inserted h) h

theorem State.itemClearCounters_inserted (h : Inserted l s.loop) : Inserted l s.itemClearCounters.state.loop :=
  h.trans (Inserted.marked _ _ _ _ _)

/-- No item but RESTART places more than the blocks' own frames. -/
theorem State.runCommand_inserted {i : Instr} (h : Inserted l s.loop) : Inserted l (s.runCommand i).state.loop := by
  cases i
  case setParameter => exact itemSetParameter_inserted h
  case openHeat => exact itemOpenHeat_inserted h
  case drain => exact itemDrain_inserted h
  case setMass => exact itemSetMass_inserted h
  case setBand => exact itemSetBand_inserted h
  case approve => exact itemApprove_inserted h
  case revoke => exact itemRevoke_inserted h
  case resetCircuit => exact itemResetCircuit_inserted h
  case resetFurnace => exact itemResetFurnace_inserted h
  case wdStart => exact itemWdStart_inserted h
  case heartbeat => exact itemHeartbeat_inserted h
  case wdPause => exact itemWdPause_inserted h
  case wdForce => exact itemWdForce_inserted h
  case wdRestart => exact itemWdRestart_inserted h
  case allStop => exact itemAllStop_inserted h
  case resume => exact itemResume_inserted h
  case releaseTaps => exact itemReleaseTaps_inserted h
  case clearCounters => exact itemClearCounters_inserted h
  all_goals simpa [State.runCommand] using h

theorem ItemOut.recorded_inserted {o : ItemOut} (h : Inserted l o.state.loop) : Inserted l o.recorded.loop := h

/-! ### The warm restart -/

theorem State.restartLoop_inserted (s : State) : Inserted s.loop s.restartLoop.loop where
  station := rfl
  bounded h := ⟨h.1, Nat.zero_le _, Nat.zero_le _⟩
  busy _ hx := ⟨hx, rfl, rfl, rfl⟩
  free _ hw := by
    rw [LoopPort.waits_eq_false_iff, LoopPort.insertPick_eq_none_iff] at *
    obtain ⟨transit, _, _, reply, _⟩ := hw
    exact ⟨reply, fun _ => ⟨⟨transit, by simp [State.restartLoop, reply]⟩, rfl⟩⟩

theorem State.restartTaps_inserted (h : Inserted l s.loop) : Inserted l s.restartTaps.loop := by
  have permit : Inserted l s.restartPermit.loop := by
    unfold State.restartPermit
    split
    · exact withdraw_inserted h
    · exact withdraw_inserted h
    · exact h
  refine placeStatus_inserted ?_
  simpa using permit

theorem State.reraise_inserted (h : Inserted l s.loop) : Inserted l s.reraise.loop := by
  unfold State.reraise
  refine foldl_inserted (fun _ _ h => ?_) _ (foldl_inserted (fun _ _ h => ?_) _ ?_)
  · unfold State.reraiseLockout
    split
    · exact raise_inserted h
    · exact raise_inserted h
    · exact h
  · exact ite_inserted (raise_inserted h) h
  · exact ite_inserted (raise_inserted h) h

theorem State.warmRestart_inserted (h : Inserted l s.loop) : Inserted l s.warmRestart.loop := by
  unfold State.warmRestart
  simp only [State.driveOutputs_frame]
  refine reraise_inserted ?_
  simp only [State.waterTests_frame]
  refine remake_inserted ?_
  simp only [State.compareAll_frame]
  refine restartTaps_inserted (placeZeros_inserted ?_)
  simp only [State.restartWatch_frame, State.restartContacts_frame, State.withIntakeCounters_loop]
  refine Inserted.trans ?_ (restartLoop_inserted _)
  simpa using h

/-! ### An item's frame and data -/

theorem State.runCommand_keeps_frame (s : State) (i : Instr) : (s.runCommand i).state.mgmt.frame = s.mgmt.frame := by
  cases i <;> simp [State.runCommand]

/-- Read data never passes the room that is left (R189). -/
theorem State.answer_data (s t : State) (d : List Byte) : (s.answer t d).data.length ≤ s.room := by
  unfold State.answer
  split
  · assumption
  · exact Nat.zero_le _

theorem State.readPart_data (s : State) (fields : List (List Byte)) (part : Byte) :
    (s.readPart fields part).data.length ≤ s.room := by
  unfold State.readPart
  split
  · exact Nat.zero_le _
  · exact State.answer_data _ _ _

theorem State.onFurnace_data {n : Byte} {k : Furnace → ItemOut} (s : State) (hk : ∀ f, (k f).data.length ≤ s.room) :
    (s.onFurnace n k).data.length ≤ s.room := by
  unfold State.onFurnace
  split
  · exact Nat.zero_le _
  · exact hk _

theorem State.itemReadTable_data (s : State) (n : Byte) : (s.itemReadTable n).data.length ≤ s.room := by
  unfold State.itemReadTable
  split
  · exact Nat.zero_le _
  · split
    · exact Nat.zero_le _
    · exact State.answer_data _ _ _

theorem State.itemReadParameter_data (s : State) (n : Byte) : (s.itemReadParameter n).data.length ≤ s.room := by
  unfold State.itemReadParameter
  split
  · exact Nat.zero_le _
  · exact State.answer_data _ _ _

theorem State.itemReadCircuit_data (s : State) (n part : Byte) : (s.itemReadCircuit n part).data.length ≤ s.room := by
  unfold State.itemReadCircuit
  split
  · exact Nat.zero_le _
  · exact State.readPart_data _ _ _

theorem State.itemReadPoint_data (s : State) (n part : Byte) : (s.itemReadPoint n part).data.length ≤ s.room := by
  unfold State.itemReadPoint
  split
  · exact Nat.zero_le _
  · split
    · exact State.readPart_data _ _ _
    · exact Nat.zero_le _

/-- An item returns no more data than there is room for; most return none. -/
theorem State.runCommand_data (s : State) (i : Instr) : (s.runCommand i).data.length ≤ s.room := by
  cases i
  case readTable => exact s.itemReadTable_data _
  case readParameter => exact s.itemReadParameter_data _
  case readFurnace => exact s.onFurnace_data fun _ => s.readPart_data _ _
  case readCircuit => exact s.itemReadCircuit_data _ _
  case readPoint => exact s.itemReadPoint_data _ _
  case readQueues => exact s.readPart_data _ _
  case readConditions => exact s.readPart_data _ _
  case readCounters => exact s.readPart_data _ _
  case ackChange => exact s.answer_data _ _
  all_goals
    simp only [State.runCommand, State.itemSelectTable, State.itemTableData, State.itemCommitTable,
      State.itemReloadStaging, State.itemSetParameter, State.itemUnlock, State.itemOpenHeat, State.itemDrain,
      State.itemSetMass, State.itemSetBand, State.itemApprove, State.itemRevoke, State.itemResetFurnace,
      State.itemResetCircuit, State.itemWdStart, State.itemHeartbeat, State.itemWdPause, State.itemWdForce,
      State.itemWdRestart, State.itemAllStop, State.itemResume, State.itemReleaseTaps, State.itemSetOutput,
      State.itemClearCondition, State.onFurnace]
    (repeat' split) <;> exact Nat.zero_le _

/-! ### The items of a frame -/

/-- What an item's record leaves. -/
theorem ItemOut.recorded_frame (o : ItemOut) : o.recorded.mgmt.frame =
    { o.state.mgmt.frame with
      results := o.state.mgmt.frame.results ++ [o.result], data := o.state.mgmt.frame.data ++ o.data } := rfl

/-- The frame under execution: it has `k` items, and its data fits beside their results (R189). -/
def State.runs (s : State) (k : Nat) : Prop :=
  s.mgmt.frame.items = k ∧ s.mgmt.frame.data.length ≤ 46 - (k + 1) / 2

theorem State.runs_recorded {k : Nat} (h : s.runs k) (i : Instr) :
    (s.runCommand i).recorded.runs k
    ∧ (s.runCommand i).recorded.mgmt.frame.results.length = s.mgmt.frame.results.length + 1 := by
  obtain ⟨items, data⟩ := h
  have more := s.runCommand_data i
  unfold State.room at more
  rw [items] at more
  simp only [State.runs, ItemOut.recorded_frame, State.runCommand_keeps_frame, List.length_append]
  exact ⟨⟨items, by omega⟩, by simp⟩

/-- What the execution of a frame's items leaves: `k` results and data that fits, and, but for the reply that a RESTART
places, placements of the blocks alone. -/
structure FrameRun (s : State) (source seq : Byte) (k : Nat) (r : State × Bool) : Prop where
  runs : r.1.runs k
  results : r.1.mgmt.frame.results.length = k
  unanswered : r.2 = false → Inserted s.loop r.1.loop
  restarted : r.2 = true → ∃ l, Inserted s.loop l
    ∧ Inserted (l.placeReply { dest := source, body := replyBody seq r.1.mgmt.frame }) r.1.loop

/-- The items after one that kept to placements of the blocks. -/
theorem FrameRun.after {s t : State} {source seq : Byte} {k : Nat} {r : State × Bool} (h : Inserted s.loop t.loop)
    (run : FrameRun t source seq k r) : FrameRun s source seq k r where
  runs := run.runs
  results := run.results
  unanswered hr := h.trans (run.unanswered hr)
  restarted hr := by
    obtain ⟨l, before, after⟩ := run.restarted hr
    exact ⟨l, h.trans before, after⟩

theorem State.stopItems_run {source seq : Byte} {k n : Nat} (h : s.runs k)
    (hk : s.mgmt.frame.results.length + (n + 1) = k) : FrameRun s source seq k (s.stopItems n, false) where
  runs := h
  results := by simpa [State.stopItems] using hk
  unanswered _ := Inserted.refl _
  restarted hr := nomatch hr

theorem State.restartCommand_run {source seq : Byte} {k n : Nat} (h : s.runs k)
    (hk : s.mgmt.frame.results.length + (n + 1) = k) : FrameRun s source seq k (s.restartCommand source seq, true) := by
  have frame : (s.restartCommand source seq).mgmt.frame = s.restartResults.mgmt.frame := by
    simp [State.restartCommand]
  obtain ⟨items, data⟩ := h
  refine ⟨?_, ?_, nofun, fun _ => ⟨_, Inserted.refl _, ?_⟩⟩
  · rw [State.runs, frame]
    exact ⟨items, data⟩
  · rw [frame]
    simp [State.restartResults, items]
    omega
  · rw [frame]
    exact warmRestart_inserted (Inserted.refl _)

theorem State.runItems_run (source seq : Byte) (broadcast : Bool) (items : List MgmtItem) {k : Nat} (h : s.runs k)
    (hk : s.mgmt.frame.results.length + items.length = k) :
    FrameRun s source seq k (State.runItems source seq broadcast items s) := by
  induction items generalizing s with
  | nil => exact ⟨h, hk, fun _ => Inserted.refl _, nofun⟩
  | cons item rest ih =>
    have next : ∀ i, FrameRun s source seq k (State.runItems source seq broadcast rest (s.runCommand i).recorded) := by
      intro i
      obtain ⟨runs, results⟩ := State.runs_recorded h i
      rw [List.length_cons] at hk
      exact (ih runs (by omega)).after (ItemOut.recorded_inserted (runCommand_inserted (Inserted.refl _)))
    cases item with
    | truncated => exact stopItems_run h hk
    | data bytes => exact next (.tableData 0 bytes)
    | command bytes =>
      unfold State.runItems
      split
      · exact stopItems_run h hk
      · exact restartCommand_run h hk
      · exact next _

/-- An opened frame has all its room. -/
theorem State.openFrame_runs (s : State) (k : Nat) : (s.openFrame k).runs k := ⟨rfl, Nat.zero_le _⟩

/-- An addressed frame leaves one reply, whose body is made of the frame it leaves. -/
theorem State.mgmtFrame_run (s : State) (source seq : Byte) (body : List Byte) :
    (s.mgmtFrame source seq body).runs (divide body).length
    ∧ (s.mgmtFrame source seq body).mgmt.frame.results.length = (divide body).length
    ∧ ∃ l, Inserted s.loop l ∧ Inserted
      (l.placeReply { dest := source, body := replyBody seq (s.mgmtFrame source seq body).mgmt.frame })
      (s.mgmtFrame source seq body).loop := by
  have run := State.runItems_run source seq false (divide body) (s.openFrame_runs (divide body).length)
    (by simp [State.openFrame])
  unfold State.mgmtFrame
  dsimp only
  generalize State.runItems source seq false (divide body) (s.openFrame (divide body).length) = r at run
  cases hr : r.2 with
  | true =>
    rw [if_pos rfl]
    exact ⟨run.runs, run.results, run.restarted hr⟩
  | false =>
    rw [if_neg Bool.false_ne_true]
    exact ⟨run.runs, run.results, _, run.unanswered hr, Inserted.refl _⟩

/-! ### A command outside a frame -/

/-- A management command but RESTART is the frame of its one item (R188; log entry 2). -/
theorem exec_command {i : Instr} (hi : (encodeCommand i).isSome = true) :
    (∃ dt source seq, i = .restart dt source seq)
    ∨ ∃ dt, elapsed i = some dt ∧ ∀ s, exec i s = .next (s.single dt (·.runCommand i)) := by
  cases i
  case restart dt source seq => exact .inl ⟨dt, source, seq, rfl⟩
  all_goals first | exact absurd hi Bool.false_ne_true | exact .inr ⟨_, rfl, fun _ => rfl⟩

end Sys2Proof.Machine
end

section
/-! O6. Every command keeps the loop port safe: the FIFOs within their depths, and nothing waiting on an IDLE link. -/

namespace Sys2Proof.Machine

variable {l : LoopPort} {s : State}

/-- A safe loop port is one of a safe state. -/
theorem LoopPort.safe.loopSafe (h : s.loop.safe) : s.loopSafe := ⟨h.1, fun _ => h.2⟩

theorem State.loopSafe.safe (h : s.loopSafe) (pin : s.pinLow = false) : s.loop.safe := ⟨h.1, h.2 pin⟩

/-! ### Arrivals -/

theorem State.mgmtFrame_safe {source seq : Byte} {body : List Byte} (h : s.loop.safe) :
    (s.mgmtFrame source seq body).loop.safe := by
  obtain ⟨_, _, l, before, after⟩ := s.mgmtFrame_run source seq body
  exact after.safe (placeReply_safe _ (before.safe h))

theorem State.broadcastFrame_safe {source seq : Byte} {body : List Byte} (h : s.loop.safe) :
    (s.broadcastFrame source seq body).loop.safe := by
  unfold State.broadcastFrame
  dsimp only
  split
  · have run := State.runItems_run source seq true (divide body) (s.openFrame_runs (divide body).length)
      (by simp [State.openFrame])
    generalize State.runItems source seq true (divide body) (s.openFrame (divide body).length) = r at run ⊢
    cases hr : r.2 with
    | true =>
      obtain ⟨l, before, after⟩ := run.restarted hr
      exact after.safe (placeReply_safe _ (before.safe h))
    | false => exact (run.unanswered hr).safe h
  · exact h

theorem State.forward_safe {f : Frame} (h : s.loop.safe) : (s.forward f).loop.safe := placeTransit_safe _ h

theorem State.countLoop_inserted {c : LoopCounters} (h : Inserted l s.loop) : Inserted l (s.countLoop c).loop :=
  h.trans (Inserted.marked _ _ _ _ _)

theorem State.takeMgmt_safe {f : Frame} (h : s.loop.safe) : (s.takeMgmt f).loop.safe := by
  unfold State.takeMgmt
  split
  · exact (countLoop_inserted (Inserted.refl _)).safe h
  · split
    · exact (raise_inserted (countLoop_inserted (Inserted.refl _))).safe h
    · exact mgmtFrame_safe h

theorem State.takeBroadcast_safe {f : Frame} (h : s.loop.safe) : (s.takeBroadcast f).loop.safe := by
  unfold State.takeBroadcast
  dsimp only
  split
  · exact broadcastFrame_safe (forward_safe h)
  · exact (countLoop_inserted (Inserted.refl _)).safe (forward_safe h)

theorem State.takePouring_inserted {f : Frame} (h : Inserted l s.loop) : Inserted l (s.takePouring f).loop := by
  unfold State.takePouring
  split
  · exact countLoop_inserted h
  · split
    · unfold State.takeDemand
      split
      · exact settle_inserted (demand_inserted h)
      · exact h
    · unfold State.takeCancel
      split
      · exact settle_inserted (cancel_inserted h)
      · exact h

theorem State.takeOrder_inserted {f : Frame} (h : Inserted l s.loop) : Inserted l (s.takeOrder f).loop :=
  ite_inserted (items_inserted h) (countLoop_inserted h)

theorem State.takeSample_safe {f : Frame} (h : s.loop.safe) : (s.takeSample f).loop.safe :=
  (items_inserted (Inserted.refl _)).safe (forward_safe h)

theorem State.classify_safe {f : Frame} (h : s.loop.safe) : (s.classify f).loop.safe := by
  unfold State.classify
  split_ifs
  · exact takeMgmt_safe h
  · exact takeBroadcast_safe h
  · exact forward_safe h
  · exact (takePouring_inserted (Inserted.refl _)).safe h
  · exact forward_safe h
  · exact (takeOrder_inserted (Inserted.refl _)).safe h
  · exact forward_safe h
  · exact takeSample_safe h
  · exact forward_safe h

theorem State.validFrame_safe {f : Frame} (h : s.loop.safe) : (s.validFrame f).loop.safe := by
  unfold State.validFrame
  dsimp only
  split_ifs
  · exact h
  · exact h
  · exact classify_safe h

theorem State.arrive_safe {bytes : List Byte} (h : s.loop.safe) : (s.arrive bytes).loop.safe := by
  unfold State.arrive
  dsimp only
  refine (Inserted.marked _ _ _ _ _).safe (l := State.loop _) ?_
  split
  · exact h
  · exact validFrame_safe h

/-! ### Commands -/

/-- While the reset pin is not held low an event acts. -/
theorem State.event_high {dt : Time} {k : State → State} (pin : s.pinLow = false) :
    s.event dt k = k (s.advance dt) := by
  unfold State.event
  rw [pin]
  rfl

/-- An event that keeps the loop port safe: with the reset pin held low it leaves the state as it is. -/
theorem State.event_loopSafe {dt : Time} {k : State → State} (h : s.loopSafe)
    (hk : ∀ u : State, u.loop.safe → (k u).loop.safe) : (s.event dt k).loopSafe := by
  cases pin : s.pinLow with
  | true =>
    unfold State.event
    rw [pin]
    exact h
  | false =>
    rw [s.event_high pin]
    exact (hk (s.advance dt) (h.safe pin)).loopSafe

/-- An event that keeps to placements of the blocks. -/
theorem State.event_inserted {dt : Time} {k : State → State} (h : s.loopSafe)
    (hk : ∀ u : State, Inserted u.loop (k u).loop) : (s.event dt k).loopSafe :=
  s.event_loopSafe h fun u hu => (hk u).safe hu

theorem State.expire_inserted {due : Bool} {k : State → State} (hk : ∀ u : State, Inserted u.loop (k u).loop) :
    Inserted s.loop (s.expire due k).loop :=
  ite_inserted (settle_inserted (hk s)) (Inserted.refl _)

theorem State.completeLink_safe (h : s.loop.safe) : s.completeLink.loop.safe := by
  unfold State.completeLink
  split
  · refine ⟨LoopPort.take_bounded _ h.1, fun idle => ?_⟩
    obtain ⟨waits, e⟩ := LoopPort.take_idle _ idle
    simp only [State.withLoop_loop, e]
    exact waits
  · exact h

theorem State.finishValidation_inserted (h : Inserted l s.loop) : Inserted l s.finishValidation.loop := by
  unfold State.finishValidation
  split
  · exact completeValidation_inserted h
  · exact h

theorem State.staleExpire_inserted {i : PointNo} (h : Inserted l s.loop) : Inserted l (s.staleExpire i).loop :=
  turnPointStale_inserted (flagStale_inserted h)

theorem State.silenceExpire_inserted (h : Inserted l s.loop) : Inserted l s.silenceExpire.loop :=
  raise_inserted (h.trans (Inserted.marked _ _ _ _ _))

theorem State.returnExpire_inserted (h : Inserted l s.loop) : Inserted l s.returnExpire.loop := by
  unfold State.returnExpire
  split
  · refine placeStatus_inserted (settle_inserted ?_)
    rw [(State.accountPour_frame _ _).2.2.2.1]
    exact tiltFault_inserted h
  · exact settle_inserted h

theorem State.single_loopSafe {dt : Time} {i : Instr} (h : s.loopSafe) : (s.single dt (·.runCommand i)).loopSafe :=
  s.event_inserted h fun u => runCommand_inserted (s := u.openFrame 1) (Inserted.refl _)

theorem State.restartCommand_safe {source seq : Byte} (h : s.loop.safe) : (s.restartCommand source seq).loop.safe :=
  (warmRestart_inserted (Inserted.refl _)).safe (placeReply_safe _ h)

theorem LoopPort.cold_safe (a : BitVec 3) (r : BitVec 2) : (LoopPort.cold a r).safe := by
  refine ⟨⟨Nat.zero_le _, Nat.zero_le _, Nat.zero_le _⟩, fun _ => ?_⟩
  rw [LoopPort.waits_eq_false_iff, LoopPort.insertPick_eq_none_iff]
  simp [LoopPort.cold]

/-- Every command keeps the loop port safe. -/
theorem State.exec_loopSafe {c : Instr} {t : State} (h : s.loopSafe) (ht : exec c s = .next t) : t.loopSafe := by
  by_cases hc : (encodeCommand c).isSome = true
  · obtain ⟨dt, source, seq, rfl⟩ | ⟨dt, _, he⟩ := exec_command hc
    · obtain rfl := Host.Outcome.next.inj ht
      exact s.event_loopSafe h fun u hu => restartCommand_safe (s := u.openFrame 1) hu
    · rw [he s] at ht
      obtain rfl := Host.Outcome.next.inj ht
      exact s.single_loopSafe h
  cases c
  all_goals first | exact absurd rfl hc | obtain rfl := Host.Outcome.next.inj ht
  case coldReset => exact LoopPort.safe.loopSafe (LoopPort.cold_safe _ _)
  case resetPinHeldLow => exact ⟨h.1, nofun⟩
  case frameArrival => exact s.event_loopSafe h fun _ => State.arrive_safe
  case linkCompletion => exact s.event_loopSafe h fun _ => completeLink_safe
  case validationComplete => exact s.event_inserted h fun _ => finishValidation_inserted (Inserted.refl _)
  case rawLevelChange => exact s.event_inserted h fun _ => settle_inserted (rawChange_inserted (Inserted.refl _))
  case persistenceTimerExpiry =>
    exact s.event_inserted h fun _ => expire_inserted fun _ => filteredChange_inserted (Inserted.refl _)
  case staleTimerExpiry =>
    exact s.event_inserted h fun _ => expire_inserted fun _ => staleExpire_inserted (Inserted.refl _)
  case loopSilenceExpiry =>
    exact s.event_inserted h fun _ => ite_inserted (silenceExpire_inserted (Inserted.refl _)) (Inserted.refl _)
  case approvalTimerExpiry => exact s.event_inserted h fun _ => expire_inserted fun u => Inserted.refl u.loop
  case holdTimerExpiry =>
    exact s.event_inserted h fun _ => expire_inserted fun _ => overheld_inserted (Inserted.refl _)
  case rampTimerExpiry =>
    exact s.event_inserted h fun _ => expire_inserted fun _ => rampExpire_inserted (Inserted.refl _)
  case refreshTimerExpiry =>
    exact s.event_inserted h fun _ => ite_inserted (State.placeOrder_inserted (Inserted.refl _)) (Inserted.refl _)
  case followTimerExpiry =>
    exact s.event_inserted h fun _ => expire_inserted fun _ => followExpire_inserted (Inserted.refl _)
  case startTimerExpiry =>
    exact s.event_inserted h fun _ => expire_inserted fun _ => startingTest_inserted (Inserted.refl _)
  case dipAgeTimerExpiry => exact s.event_inserted h fun _ => expire_inserted fun u => Inserted.refl u.loop
  case tiltStartTimerExpiry =>
    exact s.event_inserted h fun _ => expire_inserted fun _ => tiltStartExpire_inserted (Inserted.refl _)
  case pourTimerExpiry =>
    exact s.event_inserted h fun _ => expire_inserted fun _ => pourExpire_inserted (Inserted.refl _)
  case returnTimerExpiry =>
    exact s.event_inserted h fun _ => ite_inserted (returnExpire_inserted (Inserted.refl _)) (Inserted.refl _)
  case watchdogTimerExpiry =>
    exact s.event_inserted h fun _ => expire_inserted fun _ => enterExpired_inserted (Inserted.refl _)
  case tableData dt bytes => exact s.single_loopSafe (i := .tableData dt bytes) h

/-- Settles O6: each command keeps to placements, counts and takes that keep the loop port safe. -/
theorem nothingWaitsOnAnIdleLink : Obligations.NothingWaitsOnAnIdleLink := by
  unfold Obligations.NothingWaitsOnAnIdleLink
  intro s t h ht
  unfold step at ht
  split at ht
  · obtain rfl := Host.Outcome.next.inj ht
    exact h
  next c rest _ => exact State.exec_loopSafe (s := s.withPending rest) h ht

end Sys2Proof.Machine
end

section
/-! O13, O14, O15, O21. The receiver (R2, R204), and the frames that the part does not take or discards (R3 to R12). -/

namespace Sys2Proof.Machine

variable {l : LoopPort} {s : State}

/-! ### The receiver -/

theorem withCheck_length (bytes : List Byte) : (withCheck bytes).length = bytes.length + 2 := by
  simp [withCheck, bytes16]

theorem withCheck_cons (header body : List Byte) :
    withCheck (header ++ body) = header ++ (body ++ bytes16 (crc16 (header ++ body))) := by
  simp [withCheck]

/-- What fits the receiver is stored whole. -/
theorem Receiver.store_short {bytes : List Byte} (h : bytes.length ≤ 56) :
    Receiver.store bytes = { bytes := bytes, overLong := false } := by
  unfold Receiver.store
  rw [List.take_of_length_le h, decide_eq_false (by omega)]

/-- A receiver holds a valid frame exactly where it holds, whole, the bytes of a frame built with a destination other
than 0 and a body of at most 48 bytes. -/
theorem Receiver.frame_eq_some_iff (r : Receiver) (f : Frame) : r.frame = some f ↔
    r.overLong = false ∧ r.bytes = buildFrame f.dest f.source f.kind f.hop f.seq f.body ∧ f.dest ≠ 0
      ∧ f.body.length ≤ 48 := by
  constructor
  · intro h
    unfold Receiver.frame at h
    split at h
    next dest source kind hop seq len rest hb =>
      dsimp only at h
      split at h
      next ok =>
        obtain ⟨notLong, short, length, built, hd⟩ := ok
        obtain rfl := Option.some.inj h
        have body : (rest.take len.toNat).length = len.toNat := by rw [List.length_take]; omega
        refine ⟨notLong, ?_, hd, body.trans_le short⟩
        rw [built]
        simp [buildFrame, body]
      next => cases h
    next => cases h
  · rintro ⟨notLong, built, hd, short⟩
    have len : (BitVec.ofNat 8 f.body.length).toNat = f.body.length := by
      rw [BitVec.toNat_ofNat]; omega
    unfold buildFrame at built
    unfold Receiver.frame
    rw [built, withCheck_cons]
    simp only [List.cons_append, List.nil_append, len]
    rw [if_pos]
    · simp
    · refine ⟨notLong, short, by simp [bytes16], ?_, hd⟩
      simp [withCheck]

/-- Settles O13: the receiver reads back what `buildFrame` makes, and takes nothing else. -/
theorem builtFramesAreReceived : Obligations.BuiltFramesAreReceived := by
  unfold Obligations.BuiltFramesAreReceived
  refine ⟨fun dest source kind hop seq body hd hb => ?_, fun bytes f h => ?_⟩
  · have length : (buildFrame dest source kind hop seq body).length ≤ 56 := by
      simp [buildFrame, withCheck_length]; omega
    rw [Receiver.frame_eq_some_iff, Receiver.store_short length]
    exact ⟨rfl, rfl, hd, hb⟩
  · obtain ⟨notLong, built, hd, hb⟩ := (Receiver.frame_eq_some_iff _ f).1 h
    have whole : (Receiver.store bytes).bytes = bytes :=
      List.take_of_length_le (by simpa [Receiver.store] using notLong)
    exact ⟨whole ▸ built, hd, hb⟩

/-! ### Placements do not read the receiver -/

/-- The loop port with another receiver. -/
def LoopPort.withReceiver (l : LoopPort) (r : Receiver) : LoopPort := { l with receiver := r }

theorem State.withReceiver_eq (s : State) (r : Receiver) : s.withReceiver r = s.withLoop (s.loop.withReceiver r) := rfl

theorem LoopPort.takeInsert_withReceiver (l : LoopPort) (r : Receiver) (p : Pick) :
    (l.withReceiver r).takeInsert p = (l.takeInsert p).withReceiver r := by
  have orders : (l.withReceiver r).orders = l.orders := rfl
  have permits : (l.withReceiver r).permits = l.permits := rfl
  have reply : (l.withReceiver r).reply = l.reply := rfl
  have statuses : (l.withReceiver r).statuses = l.statuses := rfl
  have reports : (l.withReceiver r).reports = l.reports := rfl
  unfold LoopPort.takeInsert
  cases p with
  | order f => dsimp only; rw [orders]; cases l.orders[f] <;> rfl
  | permit f => dsimp only; rw [permits]; cases l.permits[f] <;> rfl
  | reply => dsimp only; rw [reply]; cases l.reply <;> rfl
  | status => dsimp only; rw [statuses]; cases l.statuses <;> rfl
  | report => dsimp only; rw [reports]; cases l.reports <;> rfl

theorem LoopPort.take_withReceiver (l : LoopPort) (r : Receiver) :
    (l.withReceiver r).take = l.take.withReceiver r := by
  have safety : (l.withReceiver r).safetyPick = l.safetyPick := rfl
  have insert : (l.withReceiver r).insertPick = l.insertPick := rfl
  have transit : (l.withReceiver r).transit = l.transit := rfl
  have turn : (l.withReceiver r).turn = l.turn := rfl
  unfold LoopPort.take
  rw [safety, insert, transit, turn]
  cases l.safetyPick with
  | some p => exact l.takeInsert_withReceiver r p
  | none =>
    cases l.transit <;> cases l.insertPick <;> dsimp only
    · rfl
    · rw [l.takeInsert_withReceiver r]; rfl
    · rfl
    · cases l.turn <;> dsimp only
      · rfl
      · rw [l.takeInsert_withReceiver r]; rfl

theorem LoopPort.kick_withReceiver {a l : LoopPort} {r : Receiver} (h : a = l.withReceiver r) :
    a.kick = l.kick.withReceiver r := by
  subst h
  have link : (l.withReceiver r).link = l.link := rfl
  unfold LoopPort.kick
  rw [link]
  cases l.link with
  | idle => exact l.take_withReceiver r
  | sending x => rfl

theorem LoopPort.placeOrder_withReceiver (l : LoopPort) (r : Receiver) (f : Furnace) (x : OrderRec) :
    (l.withReceiver r).placeOrder f x = (l.placeOrder f x).withReceiver r := LoopPort.kick_withReceiver rfl

theorem LoopPort.placePermit_withReceiver (l : LoopPort) (r : Receiver) (f : Furnace) (x : PermitRec) :
    (l.withReceiver r).placePermit f x = (l.placePermit f x).withReceiver r := LoopPort.kick_withReceiver rfl

theorem LoopPort.placeStatus_withReceiver (l : LoopPort) (r : Receiver) (x : Status) :
    (l.withReceiver r).placeStatus x = (l.placeStatus x).withReceiver r := by
  unfold LoopPort.placeStatus
  rw [apply_ite (LoopPort.withReceiver · r)]
  exact if_congr Iff.rfl (LoopPort.kick_withReceiver rfl) (LoopPort.kick_withReceiver rfl)

theorem LoopPort.placeReport_withReceiver (l : LoopPort) (r : Receiver) (x : Report) :
    (l.withReceiver r).placeReport x = (l.placeReport x).withReceiver r := by
  unfold LoopPort.placeReport
  rw [apply_ite (LoopPort.withReceiver · r)]
  exact if_congr Iff.rfl (LoopPort.kick_withReceiver rfl) rfl

theorem LoopPort.placeTransit_withReceiver (l : LoopPort) (r : Receiver) (x : List Byte) :
    (l.withReceiver r).placeTransit x = (l.placeTransit x).withReceiver r := by
  unfold LoopPort.placeTransit
  rw [apply_ite (LoopPort.withReceiver · r)]
  exact if_congr Iff.rfl (LoopPort.kick_withReceiver rfl) rfl

/-! ### Forwarding -/

theorem LoopPort.placeTransit_busy {x : List Byte} (h : l.link = .sending x) (room : l.transit.length < 4)
    (frame : List Byte) : l.placeTransit frame = { l with transit := l.transit ++ [frame] } := by
  unfold LoopPort.placeTransit
  rw [if_pos (show l.transit.length < transitDepth from room)]
  exact kick_busy _ (by rw [h]; exact nofun)

theorem LoopPort.placeTransit_full (full : 4 ≤ l.transit.length) (frame : List Byte) : l.placeTransit frame =
    { l with counters := { l.counters with transitOverrun := bump l.counters.transitOverrun } } := by
  unfold LoopPort.placeTransit
  exact if_neg (Nat.not_lt.2 full)

/-- A frame placed where nothing waits goes onto an IDLE link at once. -/
theorem LoopPort.placeTransit_idle (h : l.link = .idle) (free : l.waits = false) (frame : List Byte) :
    l.placeTransit frame = { l with link := .sending frame, turn := .insert } := by
  obtain ⟨transit, insert⟩ := (l.waits_eq_false_iff).1 free
  have safety := LoopPort.safetyPick_none insert
  unfold LoopPort.placeTransit LoopPort.kick LoopPort.take
  rw [transit, if_pos (by decide)]
  dsimp only [List.nil_append]
  rw [h]
  have safety' : ({ l with transit := [frame] } : LoopPort).safetyPick = none := safety
  have insert' : ({ l with transit := [frame] } : LoopPort).insertPick = none := insert
  simp only [h] at safety' insert'
  rw [safety', insert', ← transit]

/-! ### Arrivals -/

/-- The state in which a valid frame that is not discarded is classified (R2, R18). -/
def State.marked (s : State) (dt : Time) (bytes : List Byte) : State :=
  { s with time := s.time + dt, loop := { heard s dt with receiver := Receiver.store bytes } }

theorem exec_frameArrival (dt : Time) (bytes : List Byte) (pin : s.pinLow = false) :
    exec (.frameArrival dt bytes) s = .next ((s.advance dt).arrive bytes) := by
  show Host.Outcome.next (s.event dt fun s => s.arrive bytes) = _
  rw [s.event_high pin]

theorem State.validFrame_classify {f : Frame} (hop : f.hop ≠ 0) (source : f.source ≠ s.loop.station) :
    s.validFrame f = (s.withLoop { s.loop with
      live := .up, lastValid := s.time
      counters := { s.loop.counters with valid := bump s.loop.counters.valid } }).classify f :=
  (if_neg hop).trans (if_neg source)

/-- A valid frame with hops left, from another station, is classified. -/
theorem exec_classified {dt : Time} {bytes : List Byte} {f : Frame} (pin : s.pinLow = false)
    (hf : (Receiver.store bytes).frame = some f) (hop : f.hop ≠ 0) (source : f.source ≠ s.loop.station) :
    exec (.frameArrival dt bytes) s = .next (((s.marked dt bytes).classify f).withReceiver Receiver.empty) := by
  rw [exec_frameArrival dt bytes pin]
  unfold State.arrive
  simp only [hf]
  rw [State.validFrame_classify hop (by exact source)]
  rfl

theorem State.forward_marked (s : State) (dt : Time) (bytes : List Byte) (f : Frame) :
    ((s.marked dt bytes).forward f).withReceiver Receiver.empty =
      { s with time := s.time + dt, loop := (heard s dt).placeTransit f.forwarded } := by
  have stored := (heard s dt).placeTransit_withReceiver (Receiver.store bytes) f.forwarded
  have receiver := (heard s dt).placeTransit_withReceiver Receiver.empty f.forwarded
  show ({ s with time := s.time + dt, loop := (LoopPort.placeTransit _ _).withReceiver _ } : State) = _
  congr 1
  exact (congrArg (LoopPort.withReceiver · Receiver.empty) stored).trans receiver.symm

/-- A frame that no rule of R6 to R10 takes is forwarded (R11). -/
theorem State.classify_passing {f : Frame} (mgmt : f.kind = kindMgmt → f.dest ≠ s.loop.station ∧ f.dest ≠ 255)
    (pouring : f.kind = kindDemand ∨ f.kind = kindCancel → f.dest ≠ s.loop.station)
    (order : f.kind = kindOrder → s.mgmt.params.inWindow f.dest = false) (sample : f.kind ≠ kindSample) :
    s.classify f = s.forward f := by
  unfold State.classify
  split
  next k => rw [if_neg (mgmt k).1, if_neg (mgmt k).2]
  next =>
    split
    next k => rw [if_neg (pouring k)]
    next =>
      split
      next k => rw [order k, if_neg Bool.false_ne_true]
      next => rfl

/-- Settles O15: a passing frame is forwarded, and a placement in the transit FIFO has its three outcomes. -/
theorem passingFramesAreForwarded : Obligations.PassingFramesAreForwarded := by
  unfold Obligations.PassingFramesAreForwarded
  intro dt bytes f s pin hf hop source mgmt pouring order sample
  have passes : exec (.frameArrival dt bytes) s =
      .next { s with time := s.time + dt, loop := (heard s dt).placeTransit f.forwarded } := by
    rw [exec_classified pin hf hop source, State.classify_passing (s := s.marked dt bytes) mgmt pouring order sample,
       State.forward_marked]
  simp only [passes]
  refine ⟨fun x link room => ?_, fun full => ?_, fun link free => ?_⟩
  · rw [LoopPort.placeTransit_busy (l := heard s dt) link room]; rfl
  · rw [LoopPort.placeTransit_full (l := heard s dt) full]
  · rw [LoopPort.placeTransit_idle (l := heard s dt) link free]; rfl

/-! ### Discards -/

theorem State.classify_mgmt {f : Frame} (kind : f.kind = kindMgmt) (dest : f.dest = s.loop.station) :
    s.classify f = s.takeMgmt f := by
  unfold State.classify
  rw [if_pos kind, if_pos dest]

theorem State.classify_pouring {f : Frame} (kind : f.kind = kindDemand ∨ f.kind = kindCancel)
    (dest : f.dest = s.loop.station) : s.classify f = s.takePouring f := by
  unfold State.classify
  rw [if_neg (by rcases kind with k | k <;> rw [k] <;> decide), if_pos kind, if_pos dest]

theorem State.classify_order {f : Frame} (kind : f.kind = kindOrder) (window : s.mgmt.params.inWindow f.dest = true) :
    s.classify f = s.takeOrder f := by
  unfold State.classify
  rw [kind, if_neg (by decide), if_neg (by decide), if_pos rfl, if_pos window]

theorem State.classify_sample {f : Frame} (kind : f.kind = kindSample) : s.classify f = s.takeSample f := by
  unfold State.classify
  rw [kind, if_neg (by decide), if_neg (by decide), if_neg (by decide), if_pos rfl]

theorem State.takeMgmt_rejected {f : Frame} (h : admits s.mgmt.params.supervisor f.source = false) :
    s.takeMgmt f = s.rejectMgmt := by
  unfold State.takeMgmt
  rw [h]; rfl

theorem State.takePouring_rejected {f : Frame} (h : admits s.mgmt.params.pouringLine f.source = false) :
    s.takePouring f =
      s.countLoop { s.loop.counters with rejectedDemands := bump s.loop.counters.rejectedDemands } := by
  unfold State.takePouring
  rw [h]; rfl

theorem State.takeOrder_rejected {f : Frame} (h : admits s.mgmt.params.supervisor f.source = false) :
    s.takeOrder f =
      s.countLoop { s.loop.counters with foreignOrders := bump s.loop.counters.foreignOrders } := by
  unfold State.takeOrder
  rw [h]; rfl

/-- Settles O14: each discard counts, and the receiver is free again. -/
theorem discardedFramesAreCounted : Obligations.DiscardedFramesAreCounted := by
  unfold Obligations.DiscardedFramesAreCounted
  intro dt bytes s pin
  refine ⟨fun hf => ?_, fun f hf hop => ?_, fun f hf hop => ⟨fun source => ?_, ?_, ?_, ?_⟩⟩
  · rw [exec_frameArrival dt bytes pin]
    unfold State.arrive
    simp only [hf]
    rfl
  · rw [exec_frameArrival dt bytes pin]
    unfold State.arrive State.validFrame
    simp only [hf]
    rw [if_pos hop]
    rfl
  · rw [exec_frameArrival dt bytes pin]
    unfold State.arrive State.validFrame
    simp only [hf]
    rw [if_neg hop, if_pos (by exact source)]
    rfl
  · intro source kind dest rejected
    rw [exec_classified pin hf hop source, State.classify_mgmt (s := s.marked dt bytes) kind dest,
      State.takeMgmt_rejected (s := s.marked dt bytes) rejected]
    rfl
  · intro source kind dest rejected
    rw [exec_classified pin hf hop source, State.classify_pouring (s := s.marked dt bytes) kind dest,
      State.takePouring_rejected (s := s.marked dt bytes) rejected]
    rfl
  · intro source kind window rejected
    rw [exec_classified pin hf hop source, State.classify_order (s := s.marked dt bytes) kind window,
      State.takeOrder_rejected (s := s.marked dt bytes) rejected]
    rfl

/-! ### Samples that only count -/

theorem State.items_one {station seq ch st hi lo : Byte} {order : Bool} : s.items station seq order [ch, st, hi, lo] =
    s.item station seq order { channel := ch, questionable := st.getLsbD 7, raw := (word16 hi lo).toInt } := by
  simp [State.items, sampleItems]

theorem State.item_unmatched {station seq : Byte} {order : Bool} {it : SampleItem}
    (h : findKey s.tables.point.active station it.channel order = none) : s.item station seq order it =
      s.withIntakeCounters { s.intake.counters with unmatched := bump s.intake.counters.unmatched } := by
  unfold State.item
  rw [h]

theorem State.item_matched {station seq : Byte} {order : Bool} {it : SampleItem} {i : PointNo}
    (h : findKey s.tables.point.active station it.channel order = some i) :
    s.item station seq order it = s.matchedItem i seq it := by
  unfold State.item
  rw [h]

theorem State.matchedItem_duplicate {seq : Byte} {it : SampleItem} {i : PointNo} {p : PointLive}
    (live : s.intake.live[i] = some p) (h : p.seq = some seq) : s.matchedItem i seq it =
      s.withIntakeCounters { s.intake.counters with duplicates := bump s.intake.counters.duplicates } := by
  unfold State.matchedItem
  rw [live]
  exact if_pos h

/-- A sample's frame is forwarded before its items are taken (log entry 17). -/
theorem exec_sample {dt : Time} {bytes : List Byte} {f : Frame} (pin : s.pinLow = false)
    (hf : (Receiver.store bytes).frame = some f) (hop : f.hop ≠ 0) (source : f.source ≠ s.loop.station)
    (kind : f.kind = kindSample) : exec (.frameArrival dt bytes) s =
      .next ((((s.marked dt bytes).forward f).items f.source f.seq false f.body).withReceiver Receiver.empty) := by
  rw [exec_classified pin hf hop source, State.classify_sample kind]
  rfl

/-- Settles O21: an unmatched and a duplicate item count, on the state that has forwarded the sample. -/
theorem duplicateAndUnmatchedItems : Obligations.DuplicateAndUnmatchedItems := by
  unfold Obligations.DuplicateAndUnmatchedItems
  intro dt bytes f ch st hi lo s pin hf hop source kind body
  have counted : ∀ c, (((s.marked dt bytes).forward f).withIntakeCounters c).withReceiver Receiver.empty =
      { s with
        time := s.time + dt, loop := (heard s dt).placeTransit f.forwarded
        intake := { s.intake with counters := c } } := fun c =>
    congrArg (State.withIntakeCounters · c) (s.forward_marked dt bytes f)
  have sample := exec_sample (dt := dt) pin hf hop source kind
  rw [body, State.items_one] at sample
  refine ⟨fun key => sample.trans ?_, fun i p key live seq => sample.trans ?_⟩
  · rw [State.item_unmatched (by exact key)]
    exact congrArg _ (counted _)
  · rw [State.item_matched (by exact key), State.matchedItem_duplicate (by exact live) seq]
    exact congrArg _ (counted _)

end Sys2Proof.Machine
end

section
/-! O18, O38, O19. The arbiter at a completion (R16, R17), the refresh of an order (R110, R111), and the raise of a
condition (R197, R198). -/

namespace Sys2Proof.Machine

variable {l : LoopPort} {s : State}

/-! ### What the insertion path offers -/

theorem LoopPort.insertPick_order {f : Furnace} {r : OrderRec} (h : l.orders[f] = some r)
    (lt : ∀ g < f, l.orders[g] = none) : l.insertPick = some (.order f) := by
  unfold LoopPort.insertPick
  rw [furnaces_find? (f := f) (by rw [h]; rfl) fun g hg => by rw [lt g hg]; rfl]

theorem LoopPort.insertPick_permit {f : Furnace} {r : PermitRec} (orders : ∀ g : Furnace, l.orders[g] = none)
    (h : l.permits[f] = some r) (lt : ∀ g < f, l.permits[g] = none) : l.insertPick = some (.permit f) := by
  unfold LoopPort.insertPick
  rw [furnaces_find?_none.2 fun g => by rw [orders g]; rfl,
    furnaces_find? (f := f) (by rw [h]; rfl) fun g hg => by rw [lt g hg]; rfl]

/-- With every slot of the furnaces empty, the reply goes, then a status, then a report. -/
theorem LoopPort.insertPick_rest (orders : ∀ g : Furnace, l.orders[g] = none)
    (permits : ∀ g : Furnace, l.permits[g] = none) : l.insertPick =
      if l.reply.isSome then some .reply else if l.statuses ≠ [] then some .status
      else if l.reports ≠ [] then some .report else none := by
  unfold LoopPort.insertPick
  rw [furnaces_find?_none.2 fun g => by rw [orders g]; rfl, furnaces_find?_none.2 fun g => by rw [permits g]; rfl]

theorem LoopPort.safetyPick_order {f : Furnace} (h : l.safetyOrder f = true)
    (lt : ∀ g < f, l.safetyOrder g = false ∧ l.withdrawal g = false) : l.safetyPick = some (.order f) := by
  refine furnaces_findSome? (f := f) (by rw [h]; rfl) fun g hg => ?_
  rw [(lt g hg).1, (lt g hg).2]; rfl

theorem LoopPort.safetyPick_permit {f : Furnace} (order : l.safetyOrder f = false) (h : l.withdrawal f = true)
    (lt : ∀ g < f, l.safetyOrder g = false ∧ l.withdrawal g = false) : l.safetyPick = some (.permit f) := by
  refine furnaces_findSome? (f := f) (by rw [order, h]; rfl) fun g hg => ?_
  rw [(lt g hg).1, (lt g hg).2]; rfl

/-! ### What the arbiter takes -/

theorem LoopPort.take_free (h : l.waits = false) : l.take = { l with link := .idle } := by
  obtain ⟨transit, insert⟩ := (l.waits_eq_false_iff).1 h
  unfold LoopPort.take
  rw [LoopPort.safetyPick_none insert, transit, insert]

theorem LoopPort.take_safety {p : Pick} (h : l.safetyPick = some p) : l.take = l.takeInsert p := by
  unfold LoopPort.take
  rw [h]

theorem LoopPort.take_transit {y : List Byte} {rest : List (List Byte)} (safety : l.safetyPick = none)
    (h : l.transit = y :: rest) (turn : l.insertPick = none ∨ l.turn = .transit) :
    l.take = { l with transit := rest, link := .sending y, turn := .insert } := by
  unfold LoopPort.take
  rw [safety, h]
  cases hp : l.insertPick with
  | none => rfl
  | some p => rw [turn.resolve_left (by rw [hp]; exact nofun)]

theorem LoopPort.take_insert {p : Pick} (safety : l.safetyPick = none) (h : l.insertPick = some p)
    (turn : l.transit = [] ∨ l.turn = .insert) : l.take = { l.takeInsert p with turn := .transit } := by
  unfold LoopPort.take
  rw [safety, h]
  cases ht : l.transit with
  | nil => rfl
  | cons y rest => rw [turn.resolve_left (by rw [ht]; exact nofun)]

theorem LoopPort.takeInsert_order {f : Furnace} {r : OrderRec} (h : l.orders[f] = some r) : l.takeInsert (.order f) =
    { l with orders := l.orders.set f none }.originate r.station kindOrder (orderBody r) := by
  unfold LoopPort.takeInsert; dsimp only; rw [h]

theorem LoopPort.takeInsert_permit {f : Furnace} {r : PermitRec} (h : l.permits[f] = some r) :
    l.takeInsert (.permit f) =
      { l with permits := l.permits.set f none }.originate r.drive kindPermit (permitBody f r) := by
  unfold LoopPort.takeInsert; dsimp only; rw [h]

theorem LoopPort.takeInsert_reply_eq {r : ReplyRec} (h : l.reply = some r) :
    l.takeInsert .reply = { l with reply := none }.originate r.dest kindReply r.body := by
  unfold LoopPort.takeInsert; dsimp only; rw [h]

theorem LoopPort.takeInsert_status {r : Status} {rest : List Status} (h : l.statuses = r :: rest) :
    l.takeInsert .status = { l with statuses := rest }.originate r.dest kindDemandStatus (statusBody r) := by
  unfold LoopPort.takeInsert; dsimp only; rw [h]

theorem LoopPort.takeInsert_report {r : Report} {rest : List Report} (h : l.reports = r :: rest) :
    l.takeInsert .report = { l with reports := rest }.originate r.dest kindReport (reportBody r.body) := by
  unfold LoopPort.takeInsert; dsimp only; rw [h]

/-! ### Completions -/

/-- The loop port whose frame has just been counted as transmitted (R16). -/
def LoopPort.transmitted (l : LoopPort) : LoopPort :=
  { l with counters := { l.counters with transmitted := bump l.counters.transmitted } }

theorem exec_linkCompletion {dt : Time} {x : List Byte} (pin : s.pinLow = false) (h : s.loop.link = .sending x) :
    exec (.linkCompletion dt) s = .next { s with time := s.time + dt, loop := s.loop.transmitted.take } := by
  show Host.Outcome.next (s.event dt State.completeLink) = _
  rw [s.event_high pin, State.completeLink, State.advance_loop, h]
  rfl

/-- Settles O18: the safety class, the transit FIFO by turn, and the insertion path in its order. -/
theorem linkCompletionTakesTheNextFrame : Obligations.LinkCompletionTakesTheNextFrame := by
  unfold Obligations.LinkCompletionTakesTheNextFrame
  intro dt s pin
  refine ⟨fun idle => ?_, fun x sending => ?_⟩
  · show Host.Outcome.next (s.event dt State.completeLink) = _
    rw [s.event_high pin, State.completeLink, State.advance_loop, idle]
    rfl
  have next : ∀ l', s.loop.transmitted.take = l' →
      exec (.linkCompletion dt) s = .next { s with time := s.time + dt, loop := l' } := fun l' e => by
    rw [exec_linkCompletion pin sending, e]
  have safe : ∀ {p l'}, s.loop.transmitted.safetyPick = some p → s.loop.transmitted.takeInsert p = l' →
      exec (.linkCompletion dt) s = .next { s with time := s.time + dt, loop := l' } := fun hp e =>
    next _ ((LoopPort.take_safety hp).trans e)
  refine ⟨fun free => next _ (LoopPort.take_free free),
    fun f r order safety lt => safe ?_ (LoopPort.takeInsert_order order),
    fun f r permit withdraw order lt => safe ?_ (LoopPort.takeInsert_permit permit), fun calm => ?_⟩
  · refine LoopPort.safetyPick_order ?_ lt
    unfold LoopPort.safetyOrder
    rw [show s.loop.transmitted.orders[f] = some r from order]
    simpa using safety
  · refine LoopPort.safetyPick_permit order ?_ lt
    unfold LoopPort.withdrawal
    rw [show s.loop.transmitted.permits[f] = some r from permit]
    simpa using withdraw
  have none : s.loop.transmitted.safetyPick = none := (LoopPort.safetyPick_eq_none_iff _).2 calm
  refine ⟨fun y rest transit turn => next _ (LoopPort.take_transit none transit turn), fun turn => ?_⟩
  have insert : ∀ {p l'}, s.loop.transmitted.insertPick = some p → s.loop.transmitted.takeInsert p = l' →
      exec (.linkCompletion dt) s =
        .next { s with time := s.time + dt, loop := { l' with turn := .transit } } := fun hp e => by
    rw [← e]
    exact next _ (LoopPort.take_insert none hp turn)
  refine ⟨fun f r order lt => insert (LoopPort.insertPick_order order lt) (LoopPort.takeInsert_order order),
    fun orders => ⟨fun f r permit lt =>
      insert (LoopPort.insertPick_permit orders permit lt) (LoopPort.takeInsert_permit permit), fun permits => ?_⟩⟩
  have pick := LoopPort.insertPick_rest (l := s.loop.transmitted) orders permits
  refine ⟨fun r reply => insert ?_ (LoopPort.takeInsert_reply_eq reply),
    fun r rest reply statuses => insert ?_ (LoopPort.takeInsert_status statuses),
    fun r rest reply statuses reports => insert ?_ (LoopPort.takeInsert_report reports)⟩
  · rw [pick, show s.loop.transmitted.reply = some r from reply]; rfl
  · rw [pick, show s.loop.transmitted.reply = .none from reply,
      show s.loop.transmitted.statuses = r :: rest from statuses]; rfl
  · rw [pick, show s.loop.transmitted.reply = .none from reply, show s.loop.transmitted.statuses = [] from statuses,
      show s.loop.transmitted.reports = r :: rest from reports]; rfl

/-! ### Refreshes -/

theorem LoopPort.placeOrder_busy {x : List Byte} (h : l.link = .sending x) (f : Furnace) (r : OrderRec) :
    l.placeOrder f r = { l with orders := l.orders.set f (some (mergeOrder l.orders[f] r)) } :=
  kick_busy _ (by rw [h]; exact nofun)

/-- A NORMAL order keeps the class of a SAFETY zero that it repeats (R13). -/
theorem mergeOrder_normal (old : Option OrderRec) (v : Nat) (station channel : Byte) :
    mergeOrder old { value := v, station := station, channel := channel, cls := .normal } =
      { value := v, station := station, channel := channel
        cls := if (decide (v = 0) && old.any fun o => decide (o.cls = .safety ∧ o.value = 0)) then .safety
          else .normal } := by
  unfold mergeOrder
  cases old with
  | none => simp
  | some o =>
    dsimp only [Option.any_some]
    by_cases h : v = 0 ∧ o.cls = .safety ∧ o.value = 0
    · simp [h]
    · have off : (decide (v = 0) && decide (o.cls = .safety ∧ o.value = 0)) = false := by simpa using h
      simp only [off, h, and_false, if_false, Bool.false_eq_true]

/-- An order with the present I on a busy link. -/
theorem State.placeOrder_busy {f : Furnace} {c : OrderClass} {b : List Byte} (rated : 0 < (s.profile f).rated)
    (link : s.loop.link = .sending b) : s.placeOrder f c = { s with
      power := s.power.set f { s.power[f] with refresh := .running s.time s.mgmt.params.orderRefresh }
      loop := { s.loop with orders := s.loop.orders.set f (some (mergeOrder s.loop.orders[f]
        { value := s.power[f].issued, station := (s.profile f).inverter, channel := (s.profile f).channel
          cls := c })) } } := by
  have on : s.rated f = true := decide_eq_true rated
  unfold State.placeOrder
  rw [if_pos on]
  dsimp only
  rw [State.setPower_same, State.setPower_loop, LoopPort.placeOrder_busy link]
  rfl

theorem exec_refreshTimerExpiry {dt : Time} {f : Furnace} (pin : s.pinLow = false) :
    exec (.refreshTimerExpiry dt f) s = .next (if (s.power[f].refresh).due (s.time + dt) then
      (s.advance dt).placeOrder f .normal else s.advance dt) := by
  show Host.Outcome.next (s.event dt _) = _
  rw [s.event_high pin]
  rfl

theorem FixedTimer.due_running (now t : Time) (ms : Nat) :
    (FixedTimer.running t ms).due now = true ↔ ms ≤ (now - t).toNat := decide_eq_true_iff

/-- Settles O38: a due timer places the order and starts anew, and another lets time pass. -/
theorem refreshExpiryRepeatsTheOrder : Obligations.RefreshExpiryRepeatsTheOrder := by
  unfold Obligations.RefreshExpiryRepeatsTheOrder
  intro dt f s pin
  refine ⟨fun t0 ms b running => ⟨fun due rated link => ?_, fun early => ?_⟩, fun idle => ?_⟩
  · rw [exec_refreshTimerExpiry pin, running, if_pos ((FixedTimer.due_running _ _ _).2 due),
      State.placeOrder_busy (s := s.advance dt) rated link, mergeOrder_normal]
    rfl
  · rw [exec_refreshTimerExpiry pin, running, if_neg]
    rw [FixedTimer.due_running]
    exact Nat.not_le.2 early
  · rw [exec_refreshTimerExpiry pin, idle]
    rfl

/-! ### Raises -/

theorem Kind.code_injective {a b : Kind} (h : a.code = b.code) : a = b := by
  cases a <;> cases b <;> first | rfl | cases h

theorem latchBefore_iff (a b : Latched) : latchBefore a b = true ↔
    a.kind.code < b.kind.code ∨ a.kind = b.kind ∧ a.subject < b.subject := by
  have kinds : a.kind.code = b.kind.code ↔ a.kind = b.kind := ⟨Kind.code_injective, congrArg _⟩
  simp [latchBefore, kinds]

/-- No pair stands before itself. -/
theorem latchBefore_pair {a b : Latched} (h : latchBefore a b = true) : ¬(a.kind = b.kind ∧ a.subject = b.subject) := by
  rintro ⟨kind, subject⟩
  rw [latchBefore_iff, kind, subject] at h
  omega

/-- The raised pair stands in the set once, with its new time, and no other pair moves. -/
theorem latchInsert_spec (x : Latched) {set : List Latched} (h : set.Pairwise fun a b => latchBefore a b = true) :
    (latchInsert x set).filter (fun y => decide (y.kind = x.kind ∧ y.subject = x.subject)) = [x]
    ∧ ∀ y : Latched, ¬(y.kind = x.kind ∧ y.subject = x.subject) → (y ∈ latchInsert x set ↔ y ∈ set) := by
  induction set with
  | nil =>
    refine ⟨by simp [latchInsert], fun y hy => ?_⟩
    have ny : y ≠ x := by rintro rfl; exact hy ⟨rfl, rfl⟩
    simp [latchInsert, ny]
  | cons y rest ih =>
    obtain ⟨first, later⟩ := List.pairwise_cons.1 h
    /- Nothing at or after a pair that `x` stands before, or that bears `x`'s name, is the pair of `x`. -/
    have clear : ∀ zs : List Latched, (∀ z ∈ zs, ¬(z.kind = x.kind ∧ z.subject = x.subject)) →
        (x :: zs).filter (fun y => decide (y.kind = x.kind ∧ y.subject = x.subject)) = [x] := by
      intro zs hz
      rw [List.filter_cons_of_pos (by simp), List.filter_eq_nil_iff.2 fun z hm => by simpa using hz z hm]
    unfold latchInsert
    split
    next same =>
      refine ⟨clear rest fun z hz k => latchBefore_pair (first z hz) ⟨?_, ?_⟩, fun z hz => ?_⟩
      · rw [← same.1, k.1]
      · rw [← same.2, k.2]
      · have nx : z ≠ x := by rintro rfl; exact hz ⟨rfl, rfl⟩
        have ny : z ≠ y := by rintro rfl; exact hz ⟨same.1.symm, same.2.symm⟩
        simp [nx, ny]
    next differs =>
      split
      next before =>
        refine ⟨clear (y :: rest) fun z hz k => ?_, fun z hz => ?_⟩
        · obtain rfl | hz := List.mem_cons.1 hz
          · exact differs ⟨k.1.symm, k.2.symm⟩
          · have after := first z hz
            rw [latchBefore_iff] at before after
            rw [k.1, k.2] at after
            rcases before with b | ⟨b, b'⟩ <;> rcases after with a | ⟨a, a'⟩
            · omega
            · rw [a] at b; omega
            · rw [b] at a; omega
            · omega
        · have nx : z ≠ x := by rintro rfl; exact hz ⟨rfl, rfl⟩
          simp [nx]
      next =>
        obtain ⟨once, others⟩ := ih later
        have ny : ¬(y.kind = x.kind ∧ y.subject = x.subject) := fun k => differs ⟨k.1.symm, k.2.symm⟩
        refine ⟨?_, fun z hz => by rw [List.mem_cons, List.mem_cons, others z hz]⟩
        rw [List.filter_cons_of_neg (by simpa using ny), once]

theorem latchInsert_ne_nil (x : Latched) (set : List Latched) : latchInsert x set ≠ [] := by
  cases set with
  | nil => exact nofun
  | cons y rest => unfold latchInsert; split_ifs <;> exact nofun

theorem LoopPort.placeReport_busy {x : List Byte} (h : l.link = .sending x) (r : Report)
    (room : l.reports.length < 12) : l.placeReport r = { l with reports := l.reports ++ [r] } := by
  unfold LoopPort.placeReport
  rw [if_pos (show l.reports.length < reportDepth from room)]
  exact kick_busy _ (by rw [h]; exact nofun)

theorem LoopPort.placeReport_full (r : Report) (full : 12 ≤ l.reports.length) : l.placeReport r =
    { l with counters := { l.counters with reportDrops := bump l.counters.reportDrops } } := by
  unfold LoopPort.placeReport
  exact if_neg (Nat.not_lt.2 full)

theorem State.raise_latched (s : State) (k : Kind) (n : Nat) :
    (s.raise k n).mgmt.latched = latchInsert { kind := k, subject := n, time := s.time } s.mgmt.latched := rfl

/-- A raise places one report of the set that it leaves (R198). -/
theorem State.raise_loop (s : State) (k : Kind) (n : Nat) : (s.raise k n).loop = s.loop.placeReport
    { dest := destOr255 s.mgmt.params.supervisor
      body := conditionReport k n s.time (s.raise k n).mgmt.latched } := rfl

theorem exec_loopSilenceExpiry {dt : Time} (pin : s.pinLow = false) : exec (.loopSilenceExpiry dt) s =
    .next (if (s.advance dt).silenceDue then (s.advance dt).silenceExpire else s.advance dt) := by
  show Host.Outcome.next (s.event dt _) = _
  rw [s.event_high pin]

theorem State.silenceDue_iff (s : State) : s.silenceDue = true ↔
    s.loop.live = .up ∧ s.mgmt.params.loopSilence ≤ (s.time - s.loop.lastValid).toNat := by
  unfold State.silenceDue reached age
  rw [Bool.and_eq_true, decide_eq_true_iff, decide_eq_true_iff]

/-- Settles O19: a raise inserts its pair in the ordered set and places one report; the silence raises LOOP_DOWN. -/
theorem loopSilenceRaisesLoopDown : Obligations.LoopSilenceRaisesLoopDown := by
  unfold Obligations.LoopSilenceRaisesLoopDown
  refine ⟨fun k n s safe => ?_, fun dt s pin => ⟨fun due => ?_, fun early => ?_⟩⟩
  · obtain ⟨once, others⟩ := latchInsert_spec { kind := k, subject := n, time := s.time } safe.1
    refine ⟨once, others, rfl, ?_⟩
    obtain ⟨top, rest, set⟩ := List.exists_cons_of_ne_nil
      (latchInsert_ne_nil { kind := k, subject := n, time := s.time } s.mgmt.latched)
    refine ⟨top, rest, set, fun x link => ⟨fun room => ?_, fun full => ?_⟩⟩
    · rw [State.raise_loop, LoopPort.placeReport_busy link _ room, State.raise_latched, set]
      rfl
    · rw [State.raise_loop, LoopPort.placeReport_full _ full]
  · rw [exec_loopSilenceExpiry pin, if_pos ((s.advance dt).silenceDue_iff.2 due)]
    rfl
  · rw [exec_loopSilenceExpiry pin, if_neg]
    rw [State.silenceDue_iff]
    rintro ⟨up, past⟩
    rcases early with down | early
    · rw [State.advance_loop, down] at up; cases up
    · exact absurd past (Nat.not_le.2 early)

end Sys2Proof.Machine
end

section
/-! O3, O4. What the reset pin leaves (R20, R42, R55, R79, R121, R132, R153, R174, R186, R203). -/

namespace Sys2Proof.Machine

theorem StaleInd.off_get (key : StaleKey) : StaleInd.off.get key = false := by
  cases key with
  | power f => simp [StaleInd.off, StaleInd.get]
  | cooling c k => cases k <;> simp [StaleInd.off, StaleInd.get, CoolingStale.of]
  | ladle => rfl
  | tilt f => simp [StaleInd.off, StaleInd.get]

/-- Settles O3: each field of `State.cold` is the value that its block's rule states. -/
theorem resetPinValues : Obligations.ResetPinValues := by
  unfold Obligations.ResetPinValues
  refine ⟨fun s => rfl, fun a r raw s => ⟨_, rfl, ?_⟩⟩
  have copies : ∀ n, (Tables.empty.copies n).staging = [] ∧ (Tables.empty.copies n).active = [] := by
    intro n; cases n <;> exact ⟨rfl, rfl⟩
  refine ⟨rfl, rfl, rfl, rfl, rfl, rfl, ?_, rfl, rfl, rfl, rfl, rfl, rfl, rfl, rfl, rfl, rfl, ?_, StaleInd.off_get,
    copies, ?_, rfl, ?_, ?_, rfl, rfl, rfl, ?_, ?_, rfl, ?_, rfl, rfl, rfl, rfl, rfl, rfl, rfl, rfl, rfl, rfl, rfl,
    rfl, rfl⟩
  all_goals intro i
  all_goals simp [State.cold, LoopPort.cold, Intake.cold, Contacts.cold, Indications.unmapped]

/-- Nothing is written in an empty table. -/
theorem State.cold_output (a : BitVec 3) (r : BitVec 2) (raw : BitVec 16) (o : OutputNo) :
    (State.cold a r raw).outputLevel o = false := by
  have function : ((State.cold a r raw).output o).function = 0 := rfl
  unfold State.outputLevel
  dsimp only
  rw [function]
  rfl

theorem State.cold_power (a : BitVec 3) (r : BitVec 2) (raw : BitVec 16) (f : Furnace) :
    (State.cold a r raw).power[f] = Power.cold := by simp [State.cold]

/-- Settles O4: nothing is rated, ready, queued, latched or driven after a cold reset. -/
theorem coldResetMeetsInvariants : Obligations.ColdResetMeetsInvariants := by
  unfold Obligations.ColdResetMeetsInvariants
  intro a r raw s
  have power := State.cold_power a r raw
  refine ⟨_, rfl, rfl, (LoopPort.cold_safe a r).loopSafe (s := { State.cold a r raw with pending := s.pending }),
    ⟨fun f => ?_, ?_, nofun⟩, ⟨List.nodup_nil, fun f => ?_⟩,
    ⟨Nat.zero_le _, List.nodup_nil, nofun, fun k => absurd rfl k⟩, fun _ o => ?_, fun f _ => ?_,
    ⟨List.Pairwise.nil, nofun⟩⟩
  · dsimp only
    rw [power f]
    exact ⟨Nat.le_refl _, Nat.le_refl _, Nat.zero_le _⟩
  · have none : ({ State.cold a r raw with pending := s.pending } : State).grantSum = 0 := by
      simp [State.grantSum, State.cold, Power.cold, furnaces]
    rw [none]
    exact Nat.zero_le _
  · have idle : ({ State.cold a r raw with pending := s.pending } : State).isReady f = false := by
      simp [State.isReady, State.cold, Heat.cold]
    rw [idle]
    exact ⟨nofun, nofun⟩
  · have off : (State.cold a r raw).contacts.driven[o] = false := by simp [State.cold, Contacts.cold]
    exact off.trans (State.cold_output a r raw o).symm
  · simp [State.cold]

end Sys2Proof.Machine
end

section
/-! O17, O16. MGMT frames: the division of a body (R187), the execution of its items (R188), and the reply (R6, R14). -/

namespace Sys2Proof.Machine

variable {l : LoopPort} {s : State}

/-! ### The items of a body -/

theorem State.advance_zero (s : State) : s.advance 0 = s := by
  show { s with time := s.time + 0#32 } = s
  rw [BitVec.add_zero]

/-- What the bytes of a command item spell is a management command, and RESTART is spelled by 3Fh alone. -/
theorem decodeCommand_spells {source seq : Byte} {broadcast : Bool} {bytes : List Byte} {i : Instr}
    (h : decodeCommand source seq broadcast bytes = some i) :
    (encodeCommand i).isSome = true ∧ elapsed i = some 0
      ∧ ∀ dt src q, i = .restart dt src q → bytes = [0x3F] := by
  unfold decodeCommand at h
  split at h
  next c =>
    unfold decodeBare at h
    split at h
    case h_15 => cases h
    all_goals obtain rfl := Option.some.inj h
    case h_14 code => exact ⟨rfl, rfl, fun _ _ _ _ => by rw [BitVec.eq_of_toNat_eq (y := 0x3F) code]⟩
    all_goals exact ⟨rfl, rfl, nofun⟩
  next c a =>
    unfold decodeOne at h
    split at h
    case h_11 => cases h
    all_goals obtain rfl := Option.some.inj h
    all_goals exact ⟨rfl, rfl, nofun⟩
  next c a b =>
    unfold decodeTwo at h
    split at h
    case h_7 => cases h
    all_goals obtain rfl := Option.some.inj h
    all_goals exact ⟨rfl, rfl, nofun⟩
  case h_8 => cases h
  all_goals
    split_ifs at h
    all_goals
      obtain rfl := Option.some.inj h
      exact ⟨rfl, rfl, nofun⟩

theorem State.runItems_command {source seq : Byte} {broadcast : Bool} {bytes : List Byte} {i : Instr}
    (h : decodeCommand source seq broadcast bytes = some i) (hr : ∀ dt src q, i ≠ .restart dt src q)
    (rest : List MgmtItem) : State.runItems source seq broadcast (.command bytes :: rest) s =
      State.runItems source seq broadcast rest (s.runCommand i).recorded := by
  rw [State.runItems]
  split
  next e => rw [h] at e; cases e
  next e => rw [h] at e; exact absurd (Option.some.inj e) (hr _ _ _)
  next e => rw [h] at e; rw [Option.some.inj e]

/-- A body of one command item, its length in the control byte. -/
theorem divide_command {bytes : List Byte} (h : bytes.length ≤ 47) :
    divide (BitVec.ofNat 8 bytes.length :: bytes) = [.command bytes] := by
  have len : ((BitVec.ofNat 8 bytes.length).extractLsb' 0 6).toNat = bytes.length := by
    simp; omega
  have bit (i : Nat) (h6 : 6 ≤ i) : (BitVec.ofNat 8 bytes.length).getLsbD i = false := by
    rw [BitVec.getLsbD_ofNat, Nat.testBit_lt_two_pow (Nat.lt_of_lt_of_le (by omega) (Nat.pow_le_pow_right two_pos h6)),
      Bool.and_false]
  unfold divide divideFrom
  simp only [len, bit 6 (le_refl 6), bit 7 (by decide)]
  simp [trailing]

theorem trailing_length (body : List Byte) : (trailing body).length ≤ 1 := by
  cases body <;> simp [trailing]

theorem divideFrom_length (fuel : Nat) (body : List Byte) : (divideFrom fuel body).length ≤ body.length + 1 := by
  induction fuel generalizing body with
  | zero => simp [divideFrom]
  | succ fuel ih =>
    cases body with
    | nil => simp [divideFrom]
    | cons ctl rest =>
      unfold divideFrom
      dsimp only
      split
      · simp
      · have tail : (rest.drop (ctl.extractLsb' 0 6).toNat).length ≤ rest.length := by simp
        split
        · have := ih (rest.drop (ctl.extractLsb' 0 6).toNat)
          rw [List.length_cons, List.length_cons]
          omega
        · have := trailing_length (rest.drop (ctl.extractLsb' 0 6).toNat)
          rw [List.length_cons, List.length_cons]
          omega

theorem divide_length (body : List Byte) : (divide body).length ≤ body.length + 1 := by
  cases body with
  | nil => simp [divide]
  | cons b rest => exact divideFrom_length _ _

/-! ### One command -/

theorem State.takeMgmt_taken {f : Frame} (admitted : admits s.mgmt.params.supervisor f.source = true)
    (free : s.loop.reply = none) : s.takeMgmt f = s.mgmtFrame f.source f.seq f.body := by
  unfold State.takeMgmt
  rw [admitted, free]
  rfl

/-- Settles O17: the frame's one item runs as the command does, and its reply is placed. -/
theorem oneCommandFrameDoesItsCommand : Obligations.OneCommandFrameDoesItsCommand := by
  unfold Obligations.OneCommandFrameDoesItsCommand
  intro dt source hop seq bytes i s pin short hhop hsource station admitted free decoded notRestart
  obtain ⟨spelled, time, restart⟩ := decodeCommand_spells decoded
  have other : ∀ dt src q, i ≠ .restart dt src q := fun dt src q e => notRestart (restart dt src q e)
  obtain ⟨dt', src, q, rfl⟩ | ⟨dt', time', alone⟩ := exec_command spelled
  · exact absurd rfl (other dt' src q)
  obtain rfl : dt' = 0 := Option.some.inj (time'.symm.trans time)
  refine ⟨_, alone _, ?_⟩
  rw [exec_classified (f := ⟨s.loop.station, source, kindMgmt, hop, seq, BitVec.ofNat 8 bytes.length :: bytes⟩) pin
    (builtFramesAreReceived.1 _ _ _ _ _ _ station (by simpa using by omega)) hhop hsource]
  rw [State.classify_mgmt rfl (by rfl), State.takeMgmt_taken (by exact admitted) (by exact free)]
  unfold State.mgmtFrame
  dsimp only
  rw [divide_command short, State.runItems_command decoded other, State.single, State.event_high (by exact pin),
    State.advance_zero]
  rfl

end Sys2Proof.Machine
end

section
/-! O16. The answers to MGMT frames (R6, R7, R14, R188, R189). -/

namespace Sys2Proof.Machine

variable {l : LoopPort} {s : State}

/-! ### The reply slot -/

theorem LoopPort.placeReply_busy {x : List Byte} (h : l.link = .sending x) (r : ReplyRec) :
    l.placeReply r = { l with reply := some r } :=
  kick_busy _ (by show l.link ≠ .idle; rw [h]; exact nofun)

/-- A reply placed where nothing waits goes onto an IDLE link at once. -/
theorem LoopPort.placeReply_free (h : l.link = .idle) (free : l.waits = false) (r : ReplyRec) : l.placeReply r =
    { l with
      reply := none, link := .sending (buildFrame r.dest l.station kindReply 63 l.seq r.body), seq := l.seq + 1
      turn := .transit } := by
  obtain ⟨transit, insert⟩ := (l.waits_eq_false_iff).1 free
  obtain ⟨orders, permits, _⟩ := (l.insertPick_eq_none_iff).1 insert
  have pick : ({ l with reply := some r } : LoopPort).insertPick = some .reply :=
    (LoopPort.insertPick_rest (l := { l with reply := some r }) orders permits).trans rfl
  have safety : ({ l with reply := some r } : LoopPort).safetyPick = none := LoopPort.safetyPick_none (l := l) insert
  have kick : l.placeReply r = ({ l with reply := some r } : LoopPort).take := by
    unfold LoopPort.placeReply LoopPort.kick
    rw [h]
  rw [kick, LoopPort.take_insert safety pick (.inl transit), LoopPort.takeInsert_reply_eq rfl]
  rfl

/-- What an answered frame leaves on the loop: its reply waits behind the frame on the link; from an IDLE link it
starts at once, unless an item started another frame before it. -/
theorem Inserted.replied {a b t : LoopPort} {r : ReplyRec} (before : Inserted a b)
    (after : Inserted (b.placeReply r) t) :
    (∀ x, a.link = .sending x → t.link = .sending x ∧ t.reply = some r)
    ∧ (a.link = .idle → a.waits = false →
      (t.reply = none ∧ t.seq = a.seq + 1
        ∧ t.link = .sending (buildFrame r.dest a.station kindReply 63 a.seq r.body))
      ∨ (t.reply = some r ∧ t.link ≠ .idle)) := by
  have waits : ∀ x, b.link = .sending x → t.link = .sending x ∧ t.reply = some r := fun x hx => by
    rw [LoopPort.placeReply_busy hx] at after
    obtain ⟨link, reply, _⟩ := after.busy x hx
    exact ⟨link, reply⟩
  refine ⟨fun x hx => waits x (before.busy x hx).1, fun idle free => ?_⟩
  obtain ⟨_, still⟩ := before.free idle free
  cases hb : b.link with
  | sending x =>
    obtain ⟨link, reply⟩ := waits x hb
    exact .inr ⟨reply, by rw [link]; exact nofun⟩
  | idle =>
    obtain ⟨none, seq⟩ := still hb
    rw [LoopPort.placeReply_free hb none] at after
    obtain ⟨link, reply, advanced, _⟩ := after.busy _ rfl
    rw [seq, before.station] at link
    exact .inl ⟨reply, advanced.trans (congrArg (· + 1) seq), link⟩

/-! ### Reports at an arrival -/

theorem State.raise_withReceiver (s : State) (r : Receiver) (k : Kind) (n : Nat) :
    (s.raise k n).withReceiver r = (s.withReceiver r).raise k n := by
  have placed (l : LoopPort) (x : Report) :
      (l.placeReport x).withReceiver r = (l.withReceiver r).placeReport x := (l.placeReport_withReceiver r x).symm
  unfold State.raise State.placeReport
  simp only [State.withReceiver_eq]
  exact congrArg (fun l => (s.withMgmt _).withLoop l) (placed _ _)

/-! ### Broadcasts -/

theorem placeTransit_keeps (l : LoopPort) (x : List Byte) :
    (l.placeTransit x).counters.rejectedMgmt = l.counters.rejectedMgmt
    ∧ ∀ y, l.link = .sending y → (l.placeTransit x).link = .sending y ∧ (l.placeTransit x).reply = l.reply := by
  unfold LoopPort.placeTransit
  split
  · refine ⟨by rw [(kick_fixed _).2.2.2.2.2], fun y hy => ?_⟩
    rw [kick_busy _ (by show l.link ≠ .idle; rw [hy]; exact nofun)]
    exact ⟨hy, rfl⟩
  · exact ⟨rfl, fun y hy => ⟨hy, rfl⟩⟩

theorem State.classify_broadcast {f : Frame} (kind : f.kind = kindMgmt) (dest : f.dest = 255)
    (other : s.loop.station ≠ 255) : s.classify f = s.takeBroadcast f := by
  unfold State.classify
  rw [if_pos kind, if_neg (by rw [dest]; exact other.symm), if_pos dest]

theorem State.takeBroadcast_rejected {f : Frame} (h : admits s.mgmt.params.supervisor f.source = false) :
    s.takeBroadcast f = (s.forward f).rejectMgmt := by
  exact if_neg (by show ¬ admits s.mgmt.params.supervisor f.source = true; rw [h]; exact nofun)

theorem State.takeBroadcast_admitted {f : Frame} (h : admits s.mgmt.params.supervisor f.source = true) :
    s.takeBroadcast f = (s.forward f).broadcastFrame f.source f.seq f.body := by
  exact if_pos h

theorem MgmtItem.isAllStop_iff (x : MgmtItem) : x.isAllStop = true ↔ x = .command [0x28] := decide_eq_true_iff

/-- Items that are ALL STOP alone leave the shop in ALL_STOP, and none of them is a RESTART. -/
theorem State.runItems_allStop {source seq : Byte} {items : List MgmtItem} (h : ∀ x ∈ items, x = .command [0x28]) :
    (State.runItems source seq true items s).2 = false
    ∧ (items ≠ [] ∨ s.watch.run = .allStop → (State.runItems source seq true items s).1.watch.run = .allStop) := by
  induction items generalizing s with
  | nil => exact ⟨rfl, fun hs => hs.resolve_left (· rfl)⟩
  | cons x rest ih =>
    obtain ⟨rfl, others⟩ := List.forall_mem_cons.1 h
    rw [State.runItems_command (i := .allStop 0 true source) rfl nofun]
    have stopped : (s.runCommand (.allStop 0 true source)).recorded.watch.run = .allStop := by
      show (s.itemAllStop true source).state.watch.run = .allStop
      unfold State.itemAllStop
      split
      · simp [State.enterAllStop, *]
      · assumption
    exact ⟨(ih others).1, fun _ => (ih others).2 (.inr stopped)⟩

theorem State.broadcastFrame_executed {source seq : Byte} {body : List Byte}
    (h : ∀ x ∈ divide body, x = .command [0x28]) : s.broadcastFrame source seq body =
      (State.runItems source seq true (divide body) (s.openFrame (divide body).length)).1 := by
  unfold State.broadcastFrame
  exact if_pos (List.all_eq_true.2 fun x hx => x.isAllStop_iff.2 (h x hx))

theorem State.broadcastFrame_ignored {source seq : Byte} {body : List Byte}
    (h : ∃ x ∈ divide body, x ≠ .command [0x28]) : s.broadcastFrame source seq body = s := by
  unfold State.broadcastFrame
  obtain ⟨x, hx, other⟩ := h
  exact if_neg fun all => other (x.isAllStop_iff.1 (List.all_eq_true.1 all x hx))

/-! ### The arrival -/

theorem State.takeMgmt_occupied {f : Frame} (admitted : admits s.mgmt.params.supervisor f.source = true)
    (occupied : s.loop.reply ≠ none) : s.takeMgmt f = s.overrunMgmt := by
  unfold State.takeMgmt
  rw [admitted, Option.isSome_iff_ne_none.2 occupied]
  rfl

/-- An answered frame's reply, in the statement's terms (R188, R189). -/
theorem State.mgmtFrame_answered {source seq : Byte} {body : List Byte} {t : State}
    (t_eq : t = s.mgmtFrame source seq body) (short : body.length ≤ 48) :
    t.mgmt.frame.results.length = (divide body).length
    ∧ 2 + ((divide body).length + 1) / 2 + t.mgmt.frame.data.length ≤ 48
    ∧ ∃ l, Inserted s.loop l ∧ Inserted (l.placeReply
      ⟨source, [seq] ++ enc8 (divide body).length ++ halfBytes t.mgmt.frame.results ++ t.mgmt.frame.data⟩) t.loop := by
  obtain ⟨⟨_, data⟩, results, l, before, after⟩ := s.mgmtFrame_run source seq body
  rw [← t_eq] at data results after
  have items := divide_length body
  unfold replyBody at after
  rw [results] at after
  exact ⟨results, by omega, l, before, after⟩

/-- Settles O16: the reply of an addressed frame, the overrun, and a broadcast's execution. -/
theorem mgmtFramesAreAnswered : Obligations.MgmtFramesAreAnswered := by
  unfold Obligations.MgmtFramesAreAnswered
  intro dt bytes f s pin hf hop source kind
  have arrival := exec_classified (dt := dt) pin hf hop source
  have short : f.body.length ≤ 48 := by
    obtain ⟨_, _, _, short⟩ := (Receiver.frame_eq_some_iff _ f).1 hf
    exact short
  refine ⟨fun dest admitted free link => ?_, fun dest admitted occupied => ?_, fun dest station => ?_⟩
  · rw [State.classify_mgmt kind (by exact dest), State.takeMgmt_taken (by exact admitted) (by exact free)] at arrival
    obtain ⟨results, room, l, before, after⟩ := State.mgmtFrame_answered (s := s.marked dt bytes)
      (source := f.source) (seq := f.seq) rfl short
    obtain ⟨busy, idle⟩ := before.replied after
    refine ⟨_, arrival, results, room, fun x hx => (busy x hx).imp id id, fun hi => ?_, fun hi empty => ?_⟩
    · exact idle hi (link.resolve_left fun other => other hi)
    · rw [empty]
      have started := LoopPort.placeReply_free (l := (s.marked dt bytes).loop) hi
        (link.resolve_left fun other => other hi) ⟨f.source, replyBody f.seq ⟨0, [], []⟩⟩
      have loop : ((s.marked dt bytes).mgmtFrame f.source f.seq []).loop =
        (s.marked dt bytes).loop.placeReply ⟨f.source, replyBody f.seq ⟨0, [], []⟩⟩ := rfl
      rw [started] at loop
      refine ⟨?_, ?_, ?_⟩
      · exact congrArg (·.reply) loop
      · exact congrArg (·.seq) loop
      · exact congrArg (·.link) loop
  · rw [State.classify_mgmt kind (by exact dest), State.takeMgmt_occupied (by exact admitted) (by exact occupied),
      State.overrunMgmt, State.raise_withReceiver] at arrival
    exact arrival
  · rw [State.classify_broadcast kind dest (by exact station)] at arrival
    have onward := s.forward_marked dt bytes f
    refine ⟨fun rejected => ?_, fun admitted other => ?_, fun admitted one => ?_, fun admitted all => ?_⟩
    · rw [arrival, State.takeBroadcast_rejected (by exact rejected)]
      refine congrArg Host.Outcome.next ((congrArg State.rejectMgmt onward).trans ?_)
      unfold State.rejectMgmt State.countLoop
      dsimp only
      rw [(placeTransit_keeps _ _).1]
      rfl
    · rw [arrival, State.takeBroadcast_admitted (by exact admitted), State.broadcastFrame_ignored other, onward]
      rfl
    · rw [State.takeBroadcast_admitted (by exact admitted), State.broadcastFrame_executed (by simp [one]), one,
        State.runItems_command (i := .allStop 0 true f.source) rfl nofun] at arrival
      have stored := (heard s dt).placeTransit_withReceiver (Receiver.store bytes) f.forwarded
      have start := congrArg (fun loop => ({ s with time := s.time + dt, loop := loop } : State)) stored.symm
      refine ⟨(((s.marked dt bytes).forward f).openFrame 1 |>.runCommand (.allStop 0 true f.source)).recorded, ?_,
        arrival⟩
      refine (congrArg (exec (.allStop 0 true f.source)) start).trans (congrArg Host.Outcome.next ?_)
      show State.single _ 0 _ = _
      rw [State.single, State.event_high (by exact pin), State.advance_zero]
      rfl
    · rw [State.takeBroadcast_admitted (by exact admitted), State.broadcastFrame_executed all] at arrival
      refine ⟨_, arrival, fun some => (State.runItems_allStop all).2 (.inl some), fun x hx => ?_⟩
      have run := State.runItems_run f.source f.seq true (divide f.body)
        (((s.marked dt bytes).forward f).openFrame_runs (divide f.body).length) (by simp [State.openFrame])
      obtain ⟨link, reply⟩ := (placeTransit_keeps (s.marked dt bytes).loop f.forwarded).2 x hx
      exact ((run.unanswered (State.runItems_allStop all).1).busy x link).2.1.trans reply

end Sys2Proof.Machine
end

section
/-! O22, O20. Accepted and skipped items (R23 to R31, R100), and the end of the event that takes them. -/

namespace Sys2Proof.Machine

variable {s : State}

/-! ### The end of an event in an arrival

The receiver holds the arriving frame until the event's end, and the end of an event reads neither it nor, of the state
the event found, the time and the loop port. -/

section
variable {u t : State} {x : Causes} {m : Option (Demand × Furnace)} {g : Option Pour} {now : Time} {l : LoopPort}
  {r : Receiver}

theorem Matched.received {d : Demand} {f : Furnace} :
    Matched { s with time := now, loop := l } u x d f ↔ Matched s (u.withReceiver r) x d f :=
  ⟨fun ⟨a, b, c, d, e⟩ => ⟨a, b, c, d, e⟩, fun ⟨a, b, c, d, e⟩ => ⟨a, b, c, d, e⟩⟩

theorem Granted.received {p : Pour} : Granted { s with time := now, loop := l } u t x m p ↔
    Granted s (u.withReceiver r) (t.withReceiver r) x m p := by
  cases m <;> exact ⟨fun ⟨a, b, c, d, e, f⟩ => ⟨a, b, c, d, e, f⟩, fun ⟨a, b, c, d, e, f⟩ => ⟨a, b, c, d, e, f⟩⟩

theorem cutOrder_withReceiver (u t : State) (l : LoopPort) (r : Receiver) (f : Furnace) :
    cutOrder u t (l.withReceiver r) f = (cutOrder u t l f).withReceiver r := by
  unfold cutOrder
  rw [apply_ite (LoopPort.withReceiver · r)]
  exact if_congr Iff.rfl (l.placeOrder_withReceiver r _ _) rfl

theorem cutOrders_withReceiver (u t : State) (l : LoopPort) (r : Receiver) (fs : List Furnace) :
    fs.foldl (cutOrder u t) (l.withReceiver r) = (fs.foldl (cutOrder u t) l).withReceiver r := by
  induction fs generalizing l with
  | nil => rfl
  | cons f fs ih => rw [List.foldl_cons, cutOrder_withReceiver, ih, List.foldl_cons]

theorem State.assignedTold_withReceiver (u : State) (l : LoopPort) (r : Receiver) :
    u.assignedTold (l.withReceiver r) m = (u.assignedTold l m).withReceiver r := by
  cases m with
  | none => rfl
  | some p => exact l.placeStatus_withReceiver r _

theorem State.grantTold_withReceiver (t : State) (l : LoopPort) (r : Receiver) :
    t.grantTold (l.withReceiver r) g = (t.grantTold l g).withReceiver r := by
  cases g with
  | none => rfl
  | some p => exact l.placePermit_withReceiver r _ _

theorem TapEnd.received (h : TapEnd { s with time := now, loop := l } u t m g) :
    TapEnd s (u.withReceiver r) (t.withReceiver r) m g where
  heats := by cases m <;> exact h.heats
  queue := h.queue
  listed := h.listed
  waiting := by cases m <;> exact h.waiting
  permitted := h.permitted
  loop := by
    have loop := congrArg (LoopPort.withReceiver · r) h.loop
    simp only [← State.grantTold_withReceiver, ← State.assignedTold_withReceiver, ← cutOrders_withReceiver] at loop
    cases m <;> cases g <;> exact loop

theorem EventEnd.received (h : EventEnd { s with time := now, loop := l } u t x) :
    EventEnd s (u.withReceiver r) (t.withReceiver r) x where
  pending := h.pending
  time := h.time
  pinLow := h.pinLow
  intake := h.intake
  tables := h.tables
  orderClamps := h.orderClamps
  watch := h.watch
  mgmt := h.mgmt
  contacts := h.contacts
  outputs := h.outputs
  water := h.water
  circuits := h.circuits
  ready := h.ready
  taps := h.taps
  tap := by
    obtain ⟨m, g, hm, hg, tap⟩ := h.tap
    exact ⟨m, g, fun d f => (hm d f).trans Matched.received, fun p => (hg p).trans Granted.received, tap.received⟩
  holding := h.holding
  kept := h.kept
  remade := h.remade

end

/-- The end of an event leaves every ordered power (R100). -/
theorem EventEnd.ordered {u t : State} {x : Causes} (h : EventEnd s u t x) (f : Furnace) :
    t.power[f].ordered = u.power[f].ordered := by
  by_cases same : s.allocInputs = t.allocInputs
  · rw [h.kept same]
  · rw [h.remade same f]

/-! ### Accepted items -/

section
variable {i : PointNo} {p : PointLive} {seq : Byte} {it : SampleItem}

theorem State.matchedItem_accepted (live : s.intake.live[i] = some p) (fresh : p.seq ≠ some seq)
    (taken : (it.questionable && (s.point i).skip) = false) :
    s.matchedItem i seq it = s.settle (s.acceptItem i p seq it) (s.point i).causes := by
  unfold State.matchedItem
  rw [live]
  exact (if_neg fresh).trans (if_neg (by rw [taken]; exact nofun))

theorem State.matchedItem_skipped (live : s.intake.live[i] = some p) (fresh : p.seq ≠ some seq)
    (skipped : (it.questionable && (s.point i).skip) = true) :
    s.matchedItem i seq it = s.settle (s.skipItem i p seq) Causes.none := by
  unfold State.matchedItem
  rw [live]
  exact (if_neg fresh).trans (if_pos skipped)

theorem State.turnPointStale_none {b : Bool} (h : (s.point i).staleKey = none) : s.turnPointStale i b = s := by
  unfold State.turnPointStale
  rw [h]

theorem State.orderPower_power (s : State) (f : Furnace) (v : Nat) : (s.orderPower f v).power =
    s.power.set f { s.power[f] with ordered := min v (s.profile f).rated } := by
  unfold State.orderPower
  dsimp only
  split <;> rfl

theorem State.orderPower_clamps (s : State) (f : Furnace) (v : Nat) : (s.orderPower f v).orderClamps =
    if (s.profile f).rated < v then bump s.orderClamps else s.orderClamps := by
  unfold State.orderPower
  dsimp only
  split <;> rfl

/-- An accepted item of a POWER_ORDER point reaches the allocator alone (R28). -/
theorem State.acceptItem_order {g : Furnace} (kind : (s.point i).kind = some .powerOrder)
    (owner : furnaceOf (s.point i).owner.toNat = some g) : ∃ u : State,
      s.acceptItem i p seq it = u.orderPower g ((s.point i).value it.raw).toNat
      ∧ u.power = s.power ∧ u.orderClamps = s.orderClamps ∧ u.tables = s.tables := by
  have quiet : (s.point i).staleKey = none := by
    unfold PointEntry.staleKey
    rw [kind]
    rfl
  unfold State.acceptItem State.deliver
  dsimp only
  rw [kind, owner]
  refine ⟨_, rfl, ?_⟩
  split
  · rw [State.turnPointStale_none (by split <;> exact quiet)]
    split <;> exact ⟨rfl, rfl, rfl⟩
  · split <;> exact ⟨rfl, rfl, rfl⟩

/-- An admitted order of one item sets O of its furnace alone (R100). -/
theorem State.takeOrder_ordered {f : Frame} {ch st hi lo : Byte} {g : Furnace}
    (admitted : admits s.mgmt.params.supervisor f.source = true) (body : f.body = [ch, st, hi, lo])
    (key : findKey s.tables.point.active f.dest ch true = some i) (live : s.intake.live[i] = some p)
    (fresh : p.seq ≠ some f.seq) (taken : (st.getLsbD 7 && (s.point i).skip) = false)
    (kind : (s.point i).kind = some .powerOrder) (owner : furnaceOf (s.point i).owner.toNat = some g) :
    let v := ((s.point i).value (word16 hi lo).toInt).toNat
    (s.takeOrder f).power[g].ordered = min v (s.profile g).rated
    ∧ (∀ k : Furnace, k ≠ g → (s.takeOrder f).power[k].ordered = s.power[k].ordered)
    ∧ (s.takeOrder f).orderClamps = if (s.profile g).rated < v then bump s.orderClamps else s.orderClamps := by
  have item : s.takeOrder f =
      s.settle (s.acceptItem i p f.seq ⟨ch, st.getLsbD 7, (word16 hi lo).toInt⟩) (s.point i).causes := by
    unfold State.takeOrder
    rw [if_pos admitted, body, State.items_one, State.item_matched key, State.matchedItem_accepted live fresh taken]
  obtain ⟨u, accepted, power, clamps, tables⟩ := State.acceptItem_order (s := s) (p := p) (seq := f.seq)
    (it := ⟨ch, st.getLsbD 7, (word16 hi lo).toInt⟩) kind owner
  have ended := s.settle_end (u.orderPower g ((s.point i).value (word16 hi lo).toInt).toNat) (s.point i).causes
  have rated : u.profile g = s.profile g := by unfold State.profile; rw [tables]
  rw [item, accepted]
  refine ⟨?_, fun k other => ?_, ?_⟩
  · refine (ended.ordered g).trans ?_
    simp [State.orderPower_power, rated]
  · refine (ended.ordered k).trans ?_
    simp [State.orderPower_power, power, Ne.symm (Fin.val_ne_of_ne other)]
  · refine ended.orderClamps.trans ?_
    simp [State.orderPower_clamps, rated, clamps]

/-- Settles O22: the order's value reaches O, and the end of the event leaves it. -/
theorem ordersSetTheOrderedPower : Obligations.OrdersSetTheOrderedPower := by
  unfold Obligations.OrdersSetTheOrderedPower
  intro dt bytes f ch st hi lo i p g x s pin hf hop source kind window admitted body key live fresh taken point owner
    link
  have arrival := exec_classified (dt := dt) pin hf hop source
  have passes := State.takeOrder_inserted (f := f) (Inserted.refl (s.marked dt bytes).loop)
  obtain ⟨sending, _, _, transit⟩ := passes.busy x link
  obtain ⟨ordered, others, clamps⟩ := State.takeOrder_ordered (s := s.marked dt bytes) admitted body key live fresh
    taken point owner
  rw [State.classify_order kind (by exact window)] at arrival
  exact ⟨_, arrival, ordered, others, clamps, transit, sending⟩

end

end Sys2Proof.Machine
end

section
/-! O20. The point that takes an item, and the stale indication that it turns off (R24, R26, R27, R31). -/

namespace Sys2Proof.Machine

variable {s : State} {i : PointNo} {p : PointLive} {seq : Byte} {it : SampleItem}

theorem CoolingStale.of_set (x : CoolingStale) (k j : CoolingKind) (b : Bool) :
    (x.set k b).of j = if j = k then b else x.of j := by cases k <;> cases j <;> rfl

theorem StaleInd.get_set (x : StaleInd) (key k : StaleKey) (b : Bool) :
    (x.set key b).get k = if k = key then b else x.get k := by
  cases key with
  | power f =>
    cases k with
    | power g => simp [StaleInd.set, StaleInd.get, Vector.getElem_set, Fin.ext_iff, eq_comm]
    | _ => rfl
  | tilt f =>
    cases k with
    | tilt g => simp [StaleInd.set, StaleInd.get, Vector.getElem_set, Fin.ext_iff, eq_comm]
    | _ => rfl
  | ladle => cases k <;> rfl
  | cooling c j =>
    cases k with
    | cooling d i =>
      by_cases same : d = c
      · simp [StaleInd.set, StaleInd.get, same, CoolingStale.of_set]
      · simp [StaleInd.set, StaleInd.get, same, Vector.getElem_set_ne _ _ (Ne.symm (Fin.val_ne_of_ne same))]
    | _ => rfl

/-- Turning a point's indication off turns off that indication alone. -/
theorem State.turnPointStale_off (s : State) (i : PointNo) (key : StaleKey) :
    (s.turnPointStale i false).intake.stale.get key =
      (s.intake.stale.get key && !decide ((s.point i).staleKey = some key)) := by
  unfold State.turnPointStale
  cases own : (s.point i).staleKey with
  | none => simp
  | some k =>
    unfold State.turnStale
    dsimp only
    split
    next off =>
      by_cases same : k = key
      · rw [← same, off]; rfl
      · simp [same]
    next =>
      by_cases same : k = key
      · simp [State.withStale, StaleInd.get_set, same]
      · simp [State.withStale, StaleInd.get_set, same, Ne.symm same]

/-- An accepted item's point takes its value, its sequence, the time and the marks (R24, R27). -/
theorem State.acceptItem_live (s : State) (i : PointNo) (p : PointLive) (seq : Byte) (it : SampleItem) :
    (s.acceptItem i p seq it).intake.live = s.intake.live.set i (some
      { value := some ((s.point i).value it.raw), seq := some seq, accepted := some s.time, staleRef := s.time,
        clampedLast := (s.point i).clamps it.raw, questionableLast := it.questionable, stale := false }) := by
  unfold State.acceptItem
  dsimp only
  cases p.stale <;> cases (s.point i).clamps it.raw <;> simp [State.withIntakeCounters]

theorem State.acceptItem_counters (s : State) (i : PointNo) (p : PointLive) (seq : Byte) (it : SampleItem) :
    (s.acceptItem i p seq it).intake.counters = { s.intake.counters with
      clamped := if (s.point i).clamps it.raw then bump s.intake.counters.clamped else s.intake.counters.clamped } := by
  unfold State.acceptItem
  dsimp only
  cases p.stale <;> cases (s.point i).clamps it.raw <;> simp [State.withIntakeCounters]

theorem State.acceptItem_stale (s : State) (i : PointNo) (p : PointLive) (seq : Byte) (it : SampleItem)
    (key : StaleKey) : (s.acceptItem i p seq it).intake.stale.get key =
      (s.intake.stale.get key && !(p.stale && decide ((s.point i).staleKey = some key))) := by
  unfold State.acceptItem
  simp only [State.deliver_frame]
  cases p.stale
  · cases (s.point i).clamps it.raw <;> simp [State.withIntakeCounters]
  · refine (State.turnPointStale_off _ _ _).trans ?_
    cases (s.point i).clamps it.raw <;> rfl

/-- A skipped item leaves its sequence and its mark in the point (R26). -/
theorem State.skipItem_intake (s : State) (i : PointNo) (p : PointLive) (seq : Byte) :
    (s.skipItem i p seq).intake = (s.setLive i (some { p with seq := some seq, questionableLast := true })).intake := by
  unfold State.skipItem
  dsimp only
  split <;> simp

theorem State.skipItem_quiet (kind : (s.point i).kind ≠ some .powerActual) :
    s.skipItem i p seq = s.setLive i (some { p with seq := some seq, questionableLast := true }) := by
  unfold State.skipItem
  dsimp only
  split
  next power _ => exact absurd power kind
  next => rfl

theorem PointEntry.clamps_eq (e : PointEntry) (raw : Int) :
    e.clamps raw = decide (e.scaled raw < e.low ∨ e.high < e.scaled raw) := (Bool.decide_or _ _).symm

/-- Settles O20: what the item leaves in intake, which the end of its event keeps. -/
theorem sampleItemsAreAccepted : Obligations.SampleItemsAreAccepted := by
  unfold Obligations.SampleItemsAreAccepted
  intro dt bytes f ch st hi lo i p s pin hf hop source kind body key live fresh
  have sample := exec_sample (dt := dt) pin hf hop source kind
  rw [body, State.items_one, State.item_matched (by exact key)] at sample
  have onward := s.forward_marked dt bytes f
  generalize q_eq : (s.marked dt bytes).forward f = q at sample onward
  have intake : q.intake = s.intake := by rw [← q_eq]; rfl
  have tables : q.tables = s.tables := by rw [← q_eq]; rfl
  have time : q.time = s.time + dt := by rw [← q_eq]; rfl
  have point : q.point i = s.point i := by unfold State.point; rw [tables]
  have qlive : q.intake.live[i] = some p := by rw [intake]; exact live
  have others (x : PointLive) (j : PointNo) (hj : j ≠ i) : (q.intake.live.set i (some x))[j] = s.intake.live[j] := by
    rw [intake]
    exact Vector.getElem_set_ne _ _ (Ne.symm (Fin.val_ne_of_ne hj))
  cases skipped : st.getLsbD 7 && (s.point i).skip with
  | false =>
    rw [State.matchedItem_accepted qlive fresh (by rw [point]; exact skipped)] at sample
    have ended := q.settle_end (q.acceptItem i p f.seq ⟨ch, st.getLsbD 7, (word16 hi lo).toInt⟩) (q.point i).causes
    have left := congrArg Intake.live ended.intake
    have counters := congrArg Intake.counters ended.intake
    have stale (key : StaleKey) := congrArg (fun x : Intake => x.stale.get key) ended.intake
    simp only [State.acceptItem_stale] at stale
    rw [State.acceptItem_live] at left
    rw [State.acceptItem_counters] at counters
    refine ⟨_, sample, fun j hj => ?_, ended.tables.trans ?_, fun _ => ⟨?_, fun key => ?_, ?_⟩,
      fun taken => absurd (skipped.symm.trans taken) Bool.false_ne_true⟩
    · exact (congrArg (·[j]) left).trans (others _ j hj)
    · simpa using tables
    · refine ((congrArg (·[i]) left).trans (Vector.getElem_set_self _)).trans ?_
      rw [point, time, PointEntry.clamps_eq]
      rfl
    · refine (stale key).trans ?_
      rw [intake, point]
    · refine counters.trans ?_
      rw [intake, point, PointEntry.clamps_eq]
      rfl
  | true =>
    rw [State.matchedItem_skipped qlive fresh (by rw [point]; exact skipped)] at sample
    have ended := q.settle_end (q.skipItem i p f.seq) Causes.none
    have left := ended.intake.trans (State.skipItem_intake q i p f.seq)
    refine ⟨_, sample, fun j hj => ?_, ended.tables.trans ?_,
      fun taken => absurd (taken.symm.trans skipped) Bool.false_ne_true,
      fun _ => ⟨?_, fun key => ?_, ?_, fun quiet => ?_⟩⟩
    · exact (congrArg (·.live[j]) left).trans (others _ j hj)
    · simpa using tables
    · exact (congrArg (·.live[i]) left).trans (Vector.getElem_set_self _)
    · exact (congrArg (·.stale.get key) left).trans (congrArg (·.stale.get key) intake)
    · exact (congrArg (·.counters) left).trans (congrArg (·.counters) intake)
    · have taken : (q.skipItem i p f.seq).withReceiver Receiver.empty =
          s.sampled dt f (q.settle (q.skipItem i p f.seq) Causes.none).intake := by
        rw [left, State.skipItem_quiet (by rw [point]; exact quiet)]
        exact congrArg (fun u : State => { u with intake :=
          (q.setLive i (some { p with seq := some f.seq, questionableLast := true })).intake }) onward
      refine Eq.mp (congrArg (EventEnd s · _) taken) ?_
      subst q_eq
      exact EventEnd.received (s := s) ended

end Sys2Proof.Machine
end

section
/-! O44. Demands and cancels (R157, R159), and how a pour ends (R164, R165). -/

namespace Sys2Proof.Machine

variable {s : State}

/-! ### The end of a pour -/

theorem Heat.superheatTest_other {h : Heat} {now : Time} (phase : h.phase ≠ .superheat) : h.superheatTest now = h := by
  unfold Heat.superheatTest
  split
  next superheat _ _ => exact absurd superheat phase
  next => rfl

theorem progressOf_none {p : Profile} {m e : Nat} (light : m < 100) : progressOf p m e = none := if_pos light

theorem tempOf_none {p : Profile} {m e : Nat} (light : m < 100) : tempOf p m e = none := by
  unfold tempOf
  rw [progressOf_none light]
  rfl

/-- A light heat has no estimate, and no estimate moves its phase. -/
theorem State.updateHeat_light {f : Furnace} {h : Heat} (light : h.mass < 100) (melting : h.phase = .melting) :
    s.updateHeat f h = s.setHeat f { h with progress := none, temp := none } := by
  unfold State.updateHeat Heat.estimate Heat.phaseTest
  rw [progressOf_none light, tempOf_none light]
  dsimp only
  rw [if_neg (by simp), Heat.superheatTest_other (by rw [melting]; exact nofun)]

theorem State.updateHeat_holding {f : Furnace} {h : Heat} (holding : h.phase = .holding) :
    s.updateHeat f h = s.setHeat f (h.estimate (s.profile f)) := by
  unfold State.updateHeat Heat.phaseTest
  have phase : (h.estimate (s.profile f)).phase = .holding := holding
  rw [if_neg (by rw [phase]; exact nofun ∘ And.left), Heat.superheatTest_other (by rw [phase]; exact nofun)]

/-- A heat with `left` kg after a pour from it (R165 step 4, with R73, R90 and R92), for the profile `p`. -/
def Heat.poured (h : Heat) (p : Profile) (left : Nat) : Heat :=
  let scaled : Heat := { h with mass := left, energy := h.energy * left / h.mass, residue := 0 }
  if left = 0 then { Heat.cold with lockout := h.lockout }
  else if left < 100 then
    { scaled with
      phase := .melting, progress := none, temp := none, approval := none, holdStart := none, holdTimer := .idle }
  else { scaled.estimate p with phase := .holding }

/-- A pour leaves its heat as `Heat.poured` says; an emptied furnace's dip-age timer stops (R165 step 4). -/
theorem State.pourOff_eq (s : State) (f : Furnace) (m : Nat) :
    let left := s.heats[f].mass - m
    s.pourOff f m = { s with
      heats := s.heats.set f (s.heats[f].poured (s.profile f) left)
      taps := { s.taps with dipAge := if left = 0 then s.taps.dipAge.set f .idle else s.taps.dipAge } } := by
  unfold State.pourOff Heat.poured
  dsimp only
  by_cases empty : s.heats[f].mass - m = 0
  · simp only [if_pos empty]
    rfl
  by_cases light : s.heats[f].mass - m < 100
  · simp only [if_neg empty, if_pos light]
    rw [State.updateHeat_light light rfl]
    rfl
  · simp only [if_neg empty, if_neg light]
    rw [State.updateHeat_holding rfl]
    rfl

theorem State.completePour_eq (s : State) (r : Pour) : s.completePour r = s.afterPour r := by
  unfold State.completePour State.accountPour
  rw [State.pourOff_eq]
  rfl

theorem State.startReturn_eq {r : Pour} (h : s.taps.pour = some r) : s.startReturn r = s.returning r := by
  unfold State.returning
  rw [← h]
  rfl

theorem State.isHome_iff (s : State) (f : Furnace) :
    s.isHome f ↔ (s.tiltHome f && s.contacts.ind.tiltHome[f]) = true := by
  unfold State.isHome State.tiltHome
  cases s.taps.tilt[f] <;> simp

/-- The end of a pour, away from home and at home (R164, R165). -/
theorem State.endPour_cases {r : Pour} (h : s.taps.pour = some r) :
    (¬s.isHome r.furnace → s.endPour r = s.returning r)
    ∧ (s.isHome r.furnace → s.endPour r = (s.returning r).afterPour r) := by
  have test : s.endPour r =
      if s.tiltHome r.furnace && s.contacts.ind.tiltHome[r.furnace] then (s.returning r).completePour r
      else s.returning r := by
    unfold State.endPour
    rw [State.startReturn_eq h]
    rfl
  rw [State.isHome_iff, test, ← State.completePour_eq]
  exact ⟨fun away => if_neg away, fun home => if_pos home⟩

/-! ### The receiver in a pouring event -/

section
variable (s) (r : Receiver)

theorem State.placeStatus_withReceiver (k : StatusKind) (d : Option Byte) (f : Option Furnace) (p : Option Nat) :
    (s.placeStatus k d f p).withReceiver r = (s.withReceiver r).placeStatus k d f p :=
  congrArg s.withLoop (s.loop.placeStatus_withReceiver r _).symm

theorem State.returning_withReceiver (x : Pour) : (s.returning x).withReceiver r = (s.withReceiver r).returning x :=
  congrArg (fun l => { s.returning x with loop := l }) (s.loop.placePermit_withReceiver r _ _).symm

theorem State.afterPour_withReceiver (x : Pour) : (s.afterPour x).withReceiver r = (s.withReceiver r).afterPour x :=
  State.placeStatus_withReceiver _ r _ _ _ _

end

/-! ### Demands -/

theorem Demand.bad_iff (d : Demand) : d.bad = false ↔
    1 ≤ d.mass ∧ d.mass ≤ 200000 ∧ d.low ≤ d.high ∧ d.low ≤ 2000 ∧ d.high ≤ 2000 := by
  simp only [Demand.bad, Bool.or_eq_false_iff, decide_eq_false_iff_not]
  omega

theorem State.demand_bad {d : Demand} (bad : d.bad = true) : s.demand d = s.placeStatus .bad (some d.id) none none := by
  unfold State.demand
  exact if_pos bad

theorem State.demand_busy {d : Demand} {r : Pour} (good : d.bad = false) (pour : s.taps.pour = some r)
    (same : r.demand.id = d.id) : s.demand d = s.placeStatus .busy (some d.id) (some r.furnace) none := by
  unfold State.demand
  rw [good, pour]
  exact if_pos same

theorem State.demand_free {d : Demand} (good : d.bad = false) (free : ∀ r, s.taps.pour = some r → r.demand.id ≠ d.id) :
    s.demand d = s.queueDemand d s.taps.pour.toList.length := by
  unfold State.demand
  rw [good]
  cases pour : s.taps.pour with
  | none => rfl
  | some r => exact if_neg (free r pour)

theorem queued_iff (q : List Demand) (i : Byte) : (q.any fun x => decide (x.id = i)) = true ↔ ∃ x ∈ q, x.id = i := by
  simp

theorem not_queued_iff (q : List Demand) (i : Byte) :
    ¬(q.any fun x => decide (x.id = i)) = true ↔ ∀ x ∈ q, x.id ≠ i := by simp

/-- Steps 3 to 5 of R157. -/
theorem State.queueDemand_cases (d : Demand) (held : Nat) :
    ((∃ x ∈ s.taps.queue, x.id = d.id) → s.queueDemand d held =
      (s.withTaps { s.taps with queue := s.taps.queue.map fun x => if x.id = d.id then d else x }).placeStatus
        .queued (some d.id) none none)
    ∧ ((∀ x ∈ s.taps.queue, x.id ≠ d.id) → 4 ≤ s.taps.queue.length + held →
      s.queueDemand d held = s.placeStatus .full (some d.id) none none)
    ∧ ((∀ x ∈ s.taps.queue, x.id ≠ d.id) → s.taps.queue.length + held < 4 → s.queueDemand d held =
      (s.withTaps { s.taps with queue := s.taps.queue ++ [d] }).placeStatus .queued (some d.id) none none) := by
  unfold State.queueDemand
  refine ⟨fun queued => ?_, fun new full => ?_, fun new room => ?_⟩
  · rw [if_pos ((queued_iff _ _).2 queued)]
  · rw [if_neg ((not_queued_iff _ _).2 new), if_pos (show queueDepth ≤ _ from full)]
  · rw [if_neg ((not_queued_iff _ _).2 new), if_neg (show ¬queueDepth ≤ _ from Nat.not_le.2 room)]

/-! ### Cancels -/

theorem State.cancel_queued {i : Byte} (queued : ∃ x ∈ s.taps.queue, x.id = i) : s.cancel i =
    (s.withTaps { s.taps with queue := s.taps.queue.filter fun x => !decide (x.id = i) }).placeStatus
      .cancelled (some i) none none := by
  unfold State.cancel
  exact if_pos ((queued_iff _ _).2 queued)

theorem State.cancel_unknown {i : Byte} (new : ∀ x ∈ s.taps.queue, x.id ≠ i)
    (free : ∀ r, s.taps.pour = some r → r.demand.id ≠ i) : s.cancel i = s.placeStatus .unknown (some i) none none := by
  unfold State.cancel
  rw [if_neg ((not_queued_iff _ _).2 new)]
  cases pour : s.taps.pour with
  | none => rfl
  | some r => exact if_neg (free r pour)

theorem State.cancel_held {r : Pour} (new : ∀ x ∈ s.taps.queue, x.id ≠ r.demand.id) (pour : s.taps.pour = some r) :
    s.cancel r.demand.id = s.cancelHeld r := by
  unfold State.cancel
  rw [if_neg ((not_queued_iff _ _).2 new), pour]
  exact if_pos rfl

theorem State.releaseFurnace_assigned {r : Pour} (h : s.taps.station = .assigned) :
    s.releaseFurnace r = s.setHeat r.furnace { s.heats[r.furnace] with phase := .holding } := by
  unfold State.releaseFurnace
  rw [if_neg (by rw [h]; exact nofun)]

theorem State.releaseFurnace_permitted {r : Pour} (h : s.taps.station = .permitted) : s.releaseFurnace r =
    ((s.withdraw r).withTaps { s.taps with tiltStart := .idle }).setHeat r.furnace
      { s.heats[r.furnace] with phase := .holding } := by
  unfold State.releaseFurnace
  rw [if_pos h]
  rfl

/-! ### The arrival -/

/-- An event that the arrival of a frame makes ends with the receiver free again. -/
theorem ends_arrival {dt : Time} {bytes : List Byte} {u v : State} {x : Causes}
    (arrival : exec (.frameArrival dt bytes) s =
      .next (((s.marked dt bytes).settle u x).withReceiver Receiver.empty))
    (hv : u.withReceiver Receiver.empty = v) : ∃ t, exec (.frameArrival dt bytes) s = .next t ∧ EventEnd s v t x :=
  ⟨_, arrival, hv ▸ EventEnd.received (s := s) (State.settle_end (s.marked dt bytes) u x)⟩

theorem demandBody_none {body : List Byte} (h : body.length ≠ 9) : demandBody body = none := by
  unfold demandBody
  split
  · exact absurd rfl h
  · rfl

theorem cancelBody_none {body : List Byte} (h : body.length ≠ 1) : cancelBody body = none := by
  unfold cancelBody
  split
  · exact absurd rfl h
  · rfl

theorem State.takePouring_demand {f : Frame} (admitted : admits s.mgmt.params.pouringLine f.source = true)
    (kind : f.kind = kindDemand) : s.takePouring f = s.takeDemand f.body := by
  unfold State.takePouring
  rw [admitted]
  exact if_pos kind

theorem State.takePouring_cancel {f : Frame} (admitted : admits s.mgmt.params.pouringLine f.source = true)
    (kind : f.kind = kindCancel) : s.takePouring f = s.takeCancel f.body := by
  unfold State.takePouring
  rw [admitted]
  exact if_neg (show ¬f.kind = kindDemand by rw [kind]; decide)

/-- Settles O44: one status for each demand and cancel, and the event's end. -/
theorem demandsAndCancelsAreAnswered : Obligations.DemandsAndCancelsAreAnswered := by
  unfold Obligations.DemandsAndCancelsAreAnswered
  intro dt bytes f s pin hf hop source dest admitted
  have arrival := exec_classified (dt := dt) pin hf hop source
  have told (k : StatusKind) (i : Option Byte) (g : Option Furnace) (u : State) :=
    State.placeStatus_withReceiver u Receiver.empty k i g none
  refine ⟨fun kind => ?_, fun kind => ?_⟩
  · rw [State.classify_pouring (.inl kind) (by exact dest), State.takePouring_demand (by exact admitted) kind,
      State.takeDemand] at arrival
    refine ⟨fun long => ?_, fun d body => ?_⟩
    · rw [demandBody_none long] at arrival
      exact arrival
    rw [body] at arrival
    dsimp only at arrival
    rw [← Demand.bad_iff]
    have queue (good : d.bad = false) (free : ∀ r, s.taps.pour = some r → r.demand.id ≠ d.id) :=
      State.demand_free (s := s.marked dt bytes) good free
    obtain ⟨again, full, joins⟩ := State.queueDemand_cases (s := s.marked dt bytes) d s.taps.pour.toList.length
    refine ⟨fun bad => ?_, fun r good pour same => ?_, fun good free queued => ?_, fun good free new some => ?_,
      fun good free new some => ?_⟩
    · rw [State.demand_bad (eq_true_of_ne_false bad)] at arrival
      exact ends_arrival arrival (told _ _ _ _)
    · rw [State.demand_busy good (by exact pour) same] at arrival
      exact ends_arrival arrival (told _ _ _ _)
    · rw [(queue good free).trans (again queued)] at arrival
      exact ends_arrival arrival (told _ _ _ _)
    · rw [(queue good free).trans (full new some)] at arrival
      exact ends_arrival arrival (told _ _ _ _)
    · rw [(queue good free).trans (joins new some)] at arrival
      exact ends_arrival arrival (told _ _ _ _)
  · rw [State.classify_pouring (.inr kind) (by exact dest), State.takePouring_cancel (by exact admitted) kind,
      State.takeCancel] at arrival
    refine ⟨fun long => ?_, fun i body => ?_⟩
    · rw [cancelBody_none long] at arrival
      exact arrival
    rw [body] at arrival
    dsimp only [cancelBody] at arrival
    refine ⟨fun queued => ?_, fun new free => ?_, fun r new pour same => ?_⟩
    · rw [State.cancel_queued (by exact queued)] at arrival
      refine ends_arrival arrival ((told _ _ _ _).trans ?_)
      simp only [decide_not]
      rfl
    · rw [State.cancel_unknown (by exact new) (by exact free)] at arrival
      exact ends_arrival arrival (told _ _ _ _)
    subst same
    rw [State.cancel_held (by exact new) (by exact pour), State.cancelHeld] at arrival
    obtain ⟨away, home⟩ := State.endPour_cases (s := s.marked dt bytes) (by exact pour)
    refine ⟨fun station => ?_, fun station => ?_, fun station notHome => ?_, fun station isHome => ?_,
      fun station => ?_⟩
    all_goals
      have station' : (s.marked dt bytes).taps.station = _ := station
      rw [station'] at arrival
      dsimp only at arrival
    · rw [State.releaseFurnace_assigned station'] at arrival
      exact ends_arrival arrival (told _ _ _ (State.freeStation _))
    · rw [State.releaseFurnace_permitted station'] at arrival
      refine ends_arrival arrival ((told _ _ _ (State.freeStation _)).trans ?_)
      refine congrArg (fun l : LoopPort => State.placeStatus { s with
        time := s.time + dt, loop := l, heats := s.heats.set r.furnace { s.heats[r.furnace] with phase := .holding }
        taps := { s.taps with station := .idle, pour := none, tiltStart := .idle } } _ _ _ _) ?_
      exact ((s.marked dt bytes).loop.placePermit_withReceiver _ _ _).symm
    · rw [away notHome] at arrival
      exact ends_arrival arrival (State.returning_withReceiver _ _ _)
    · rw [home isHome] at arrival
      refine ends_arrival arrival ((State.afterPour_withReceiver _ _ _).trans ?_)
      rw [State.returning_withReceiver]
      rfl
    · exact ends_arrival arrival rfl

end Sys2Proof.Machine
end

section
/-! Several raises in a row (R197, R198), and the parts of a warm restart (R20, R90, R122, R132, R175, R202). -/

namespace Sys2Proof.Machine

variable {s : State}

/-! ### Raises in a row -/

/-- A new pair joins the set. -/
theorem latchInsert_new (x : Latched) {set : List Latched} (h : ∀ y ∈ set, ¬(x.kind = y.kind ∧ x.subject = y.subject)) :
    (latchInsert x set).length = set.length + 1 ∧ ∀ y, y ∈ latchInsert x set ↔ y = x ∨ y ∈ set := by
  induction set with
  | nil => simp [latchInsert]
  | cons z rest ih =>
    obtain ⟨first, later⟩ := List.forall_mem_cons.1 h
    obtain ⟨length, mem⟩ := ih later
    unfold latchInsert
    rw [if_neg first]
    split
    · simp
    · refine ⟨by simp [length], fun y => ?_⟩
      rw [List.mem_cons, mem, List.mem_cons]
      exact or_left_comm

/-- The pairs of a list raised in its order. -/
def State.raises (s : State) (pairs : List (Kind × Nat)) : State := pairs.foldl (fun s p => s.raise p.1 p.2) s

theorem State.raises_append (s : State) (ps qs : List (Kind × Nat)) : s.raises (ps ++ qs) = (s.raises ps).raises qs :=
  List.foldl_append

/-- The reports of a loop port are those of `n` raises since a restart: the first 12 wait, the others are counted as
dropped (R15). -/
def LoopPort.reported (l : LoopPort) (n : Nat) : Prop :=
  l.reports.length = min 12 n ∧ l.counters = { LoopCounters.zero with reportDrops := n - 12 }

theorem bump_small {n : Nat} (h : n < 100) : bump n = n + 1 := by
  unfold bump counterMax
  omega

theorem LoopPort.placeReport_reported {l : LoopPort} {x : List Byte} {n : Nat} (link : l.link = .sending x)
    (h : l.reported n) (small : n < 100) (r : Report) : ∃ reports counters,
      l.placeReport r = { l with reports := reports, counters := counters } ∧ (l.placeReport r).reported (n + 1) := by
  obtain ⟨reports, counters⟩ := h
  by_cases room : l.reports.length < 12
  · rw [LoopPort.placeReport_busy link r room]
    refine ⟨_, _, rfl, ?_, ?_⟩
    · simp; omega
    · rw [counters]; simp; omega
  · rw [LoopPort.placeReport_full r (Nat.not_lt.1 room)]
    refine ⟨_, _, rfl, ?_, ?_⟩
    · simp; omega
    · rw [counters, bump_small (by simp; omega)]; simp; omega

/-- What raising `pairs` makes of a set that holds none of them, on a busy link. -/
theorem State.raises_spec {pairs : List (Kind × Nat)} {x : List Byte} (link : s.loop.link = .sending x)
    (nodup : pairs.Nodup) (new : ∀ y ∈ s.mgmt.latched, (y.kind, y.subject) ∉ pairs)
    (reported : s.loop.reported s.mgmt.latched.length) (small : s.mgmt.latched.length + pairs.length < 100) :
    (∀ y, y ∈ (s.raises pairs).mgmt.latched ↔
      y ∈ s.mgmt.latched ∨ (y.time = s.time ∧ (y.kind, y.subject) ∈ pairs))
    ∧ ∃ reports counters, (s.raises pairs).loop = { s.loop with reports := reports, counters := counters }
      ∧ (s.raises pairs).loop.reported (s.raises pairs).mgmt.latched.length := by
  induction pairs generalizing s with
  | nil => exact ⟨fun y => by simp [State.raises], _, _, rfl, reported⟩
  | cons p rest ih =>
    obtain ⟨fresh, others⟩ := List.nodup_cons.1 nodup
    obtain ⟨k, n⟩ := p
    have absent : ∀ y ∈ s.mgmt.latched, ¬(k = y.kind ∧ n = y.subject) := fun y hy same => by
      refine new y hy (List.mem_cons.2 (.inl ?_))
      rw [← same.1, ← same.2]
    obtain ⟨length, mem⟩ := latchInsert_new { kind := k, subject := n, time := s.time } absent
    rw [← State.raise_latched] at length mem
    rw [List.length_cons] at small
    obtain ⟨reports, counters, loop, reported⟩ := LoopPort.placeReport_reported link reported (by omega)
      { dest := destOr255 s.mgmt.params.supervisor, body := conditionReport k n s.time (s.raise k n).mgmt.latched }
    rw [← State.raise_loop s k n] at loop reported
    rw [← length] at reported
    obtain ⟨members, reports', counters', loop', reported'⟩ := ih (s := s.raise k n) (by rw [loop]; exact link) others
      (fun y hy => by
        rcases (mem y).1 hy with rfl | old
        · exact fresh
        · exact fun later => new y old (List.mem_cons_of_mem _ later))
      reported (by omega)
    refine ⟨fun y => ?_, reports', counters', loop'.trans (by rw [loop]), reported'⟩
    have raised : y = { kind := k, subject := n, time := s.time } ↔ y.time = s.time ∧ (y.kind, y.subject) = (k, n) := by
      obtain ⟨kind, subject, time⟩ := y
      simp only [Latched.mk.injEq, Prod.mk.injEq]
      tauto
    have time : (s.raise k n).time = s.time := by simp
    rw [State.raises, List.foldl_cons, ← State.raises, members, mem, time, raised, List.mem_cons]
    tauto

/-! ### The pairs that a restart raises again -/

/-- The pair of the run state. -/
def State.stopPair (s : State) : List (Kind × Nat) := if s.watch.run = .allStop then [(.allStop, 0)] else []

/-- The pair of a circuit in TRIP. -/
def State.tripPair (s : State) (c : CircuitNo) : List (Kind × Nat) :=
  if s.circuits[c].state = .trip then [(.circuitTrip, numberOf c)] else []

/-- The pair of a furnace's lockout. -/
def State.lockoutPair (s : State) (f : Furnace) : List (Kind × Nat) :=
  match s.heats[f].lockout with
  | some .follow => [(.followFault, numberOf f)]
  | some .tilt => [(.tiltFault, numberOf f)]
  | none => []

/-- The pairs whose causes persist at a restart (R202, step 5). -/
def State.persisting (s : State) : List (Kind × Nat) :=
  s.stopPair ++ circuitNos.flatMap s.tripPair ++ furnaces.flatMap s.lockoutPair

theorem State.raises_frame (s : State) (ps : List (Kind × Nat)) : (s.raises ps).watch = s.watch
    ∧ (s.raises ps).circuits = s.circuits ∧ (s.raises ps).heats = s.heats := by
  unfold State.raises
  refine ⟨?_, ?_, ?_⟩
  · exact foldl_keeps (fun s : State => s.watch) _ (fun s p => by simp) _ _
  · exact foldl_keeps (fun s : State => s.circuits) _ (fun s p => by simp) _ _
  · exact foldl_keeps (fun s : State => s.heats) _ (fun s p => by simp) _ _

/-- A fold that raises, for each subject, pairs that no raise changes. -/
theorem State.foldl_raises {α : Type} {act : State → α → State} {pairs : State → α → List (Kind × Nat)}
    (acts : ∀ s a, act s a = s.raises (pairs s a)) (kept : ∀ s ps, pairs (State.raises s ps) = pairs s) (as : List α)
    (s : State) : as.foldl act s = s.raises (as.flatMap (pairs s)) := by
  induction as generalizing s with
  | nil => rfl
  | cons a as ih => rw [List.foldl_cons, acts, ih, kept, List.flatMap_cons, State.raises_append]

theorem State.tripPair_raises (s : State) (ps : List (Kind × Nat)) : (s.raises ps).tripPair = s.tripPair := by
  unfold State.tripPair
  rw [(s.raises_frame ps).2.1]

theorem State.lockoutPair_raises (s : State) (ps : List (Kind × Nat)) : (s.raises ps).lockoutPair = s.lockoutPair := by
  unfold State.lockoutPair
  rw [(s.raises_frame ps).2.2]

theorem State.reraiseLockout_eq (s : State) (f : Furnace) : s.reraiseLockout f = s.raises (s.lockoutPair f) := by
  unfold State.reraiseLockout State.lockoutPair
  cases s.heats[f].lockout with
  | none => rfl
  | some l => cases l <;> rfl

theorem State.reraise_eq (s : State) : s.reraise = s.raises s.persisting := by
  have stop : (if s.watch.run = .allStop then s.raise .allStop 0 else s) = s.raises s.stopPair := by
    unfold State.stopPair
    split <;> rfl
  have trip (s : State) (c : CircuitNo) :
      (if s.circuits[c].state = .trip then s.raise .circuitTrip (numberOf c) else s) = s.raises (s.tripPair c) := by
    unfold State.tripPair
    split <;> rfl
  unfold State.reraise State.persisting
  dsimp only
  rw [stop, State.foldl_raises trip State.tripPair_raises,
    State.foldl_raises State.reraiseLockout_eq State.lockoutPair_raises, State.tripPair_raises,
    State.lockoutPair_raises, State.lockoutPair_raises, State.raises_append, State.raises_append]

theorem State.mem_stopPair (p : Kind × Nat) : p ∈ s.stopPair ↔ p = (.allStop, 0) ∧ s.watch.run = .allStop := by
  unfold State.stopPair
  split <;> simp [*]

theorem State.mem_tripPair (p : Kind × Nat) (c : CircuitNo) :
    p ∈ s.tripPair c ↔ p = (.circuitTrip, numberOf c) ∧ s.circuits[c].state = .trip := by
  unfold State.tripPair
  split <;> simp_all

theorem State.mem_lockoutPair (p : Kind × Nat) (f : Furnace) : p ∈ s.lockoutPair f ↔
    p = (.followFault, numberOf f) ∧ s.heats[f].lockout = some .follow
    ∨ p = (.tiltFault, numberOf f) ∧ s.heats[f].lockout = some .tilt := by
  unfold State.lockoutPair
  split <;> simp_all

theorem State.mem_persisting (k : Kind) (n : Nat) : (k, n) ∈ s.persisting ↔
    (k = .allStop ∧ n = 0 ∧ s.watch.run = .allStop)
    ∨ (∃ c : CircuitNo, k = .circuitTrip ∧ n = numberOf c ∧ s.circuits[c].state = .trip)
    ∨ (∃ f : Furnace, k = .followFault ∧ n = numberOf f ∧ s.heats[f].lockout = some .follow)
    ∨ ∃ f : Furnace, k = .tiltFault ∧ n = numberOf f ∧ s.heats[f].lockout = some .tilt := by
  simp only [State.persisting, List.mem_append, List.mem_flatMap, mem_circuitNos, mem_furnaces, true_and,
    State.mem_stopPair, State.mem_tripPair, State.mem_lockoutPair, exists_or, Prod.mk.injEq, and_assoc, or_assoc]

theorem numberOf_injective {n : Nat} {i j : Fin n} (h : numberOf i = numberOf j) : i = j :=
  Fin.ext (Nat.succ.inj h)

/-- The pairs of different subjects are different. -/
theorem nodup_pairs {n : Nat} {l : List (Fin n)} (nodup : l.Nodup) {pairs : Fin n → List (Kind × Nat)}
    (one : ∀ i, (pairs i).Nodup) (subject : ∀ i, ∀ p ∈ pairs i, p.2 = numberOf i) : (l.flatMap pairs).Nodup := by
  refine List.nodup_flatMap.2 ⟨fun i _ => one i, nodup.imp fun differ p hi hj => differ ?_⟩
  exact numberOf_injective ((subject _ p hi).symm.trans (subject _ p hj))

/-- Each pair persists once. -/
theorem State.persisting_nodup (s : State) : s.persisting.Nodup := by
  have stop : s.stopPair.Nodup := by unfold State.stopPair; split <;> simp
  have trip : (circuitNos.flatMap s.tripPair).Nodup := nodup_pairs nodup_circuitNos
    (fun c => by unfold State.tripPair; split <;> simp) (fun c p hp => by rw [((s.mem_tripPair p c).1 hp).1])
  have lockout : (furnaces.flatMap s.lockoutPair).Nodup := nodup_pairs nodup_furnaces
    (fun f => by unfold State.lockoutPair; split <;> simp)
    (fun f p hp => by rcases (s.mem_lockoutPair p f).1 hp with ⟨rfl, _⟩ | ⟨rfl, _⟩ <;> rfl)
  unfold State.persisting
  refine (stop.append trip fun p hs ht => ?_).append lockout fun p hs hl => ?_
  · obtain ⟨c, _, hc⟩ := List.mem_flatMap.1 ht
    have := (s.mem_stopPair p).1 hs
    have := (s.mem_tripPair p c).1 hc
    simp_all
  · obtain ⟨f, _, hf⟩ := List.mem_flatMap.1 hl
    rcases List.mem_append.1 hs with hs | ht
    · have := (s.mem_stopPair p).1 hs
      have := (s.mem_lockoutPair p f).1 hf
      simp_all
    · obtain ⟨c, _, hc⟩ := List.mem_flatMap.1 ht
      have := (s.mem_tripPair p c).1 hc
      have := (s.mem_lockoutPair p f).1 hf
      simp_all

theorem length_flatMap_le {α β : Type} {g : α → List β} (one : ∀ a, (g a).length ≤ 1) (l : List α) :
    (l.flatMap g).length ≤ l.length := by
  induction l with
  | nil => simp
  | cons a l ih =>
    have := one a
    simp only [List.flatMap_cons, List.length_append, List.length_cons]
    omega

theorem State.persisting_length (s : State) : s.persisting.length ≤ 15 := by
  have stop : s.stopPair.length ≤ 1 := by unfold State.stopPair; split <;> simp
  have trip := length_flatMap_le (g := s.tripPair) (fun c => by unfold State.tripPair; split <;> simp) circuitNos
  have lockout := length_flatMap_le (g := s.lockoutPair) (fun f => by unfold State.lockoutPair; split <;> simp) furnaces
  have circuits : circuitNos.length = 8 := rfl
  have six : furnaces.length = 6 := rfl
  unfold State.persisting
  simp only [List.length_append]
  omega

end Sys2Proof.Machine
end

section
/-! The parts of a warm restart (R20, R55, R90, R122, R132, R175, R202). -/

namespace Sys2Proof.Machine

variable {s : State}

/-! ### Orders and power -/

/-- The SAFETY zero of a furnace (R118, R122). -/
def Profile.zeroOrder (p : Profile) : OrderRec :=
  { value := 0, station := p.inverter, channel := p.channel, cls := .safety }

theorem mergeOrder_safety (old : Option OrderRec) {r : OrderRec} (h : r.cls = .safety) : mergeOrder old r = r := by
  unfold mergeOrder
  cases old with
  | none => rfl
  | some o => exact if_neg (by rw [h]; exact nofun)

/-- A SAFETY order of an I of 0, on a busy link. -/
theorem State.placeOrder_zero {x : List Byte} (link : s.loop.link = .sending x) (f : Furnace)
    (zero : s.power[f].issued = 0) : ∃ orders, (s.placeOrder f .safety).loop = { s.loop with orders := orders }
      ∧ ∀ g : Furnace, orders[g] =
        if g = f ∧ 0 < (s.profile f).rated then some (s.profile f).zeroOrder else s.loop.orders[g] := by
  by_cases rated : 0 < (s.profile f).rated
  · rw [State.placeOrder_busy rated link]
    refine ⟨_, rfl, fun g => ?_⟩
    rw [mergeOrder_safety _ rfl, zero]
    by_cases same : g = f
    · subst same
      simp [rated, Profile.zeroOrder]
    · simp [same, Vector.getElem_set_ne _ _ (Ne.symm (Fin.val_ne_of_ne same))]
  · have unrated : s.placeOrder f .safety = s := if_neg (by simpa [State.rated] using rated)
    rw [unrated]
    exact ⟨_, rfl, fun g => by simp [rated]⟩

/-- SAFETY zeros for a list of furnaces, on a busy link. -/
theorem State.zeros_loop {x : List Byte} (link : s.loop.link = .sending x) (zero : ∀ f : Furnace, s.power[f].issued = 0)
    (fs : List Furnace) : ∃ orders,
      (fs.foldl (fun s f => s.placeOrder f .safety) s).loop = { s.loop with orders := orders }
      ∧ ∀ g : Furnace, orders[g] =
        if g ∈ fs ∧ 0 < (s.profile g).rated then some (s.profile g).zeroOrder else s.loop.orders[g] := by
  induction fs generalizing s with
  | nil => exact ⟨_, rfl, fun g => by simp⟩
  | cons f fs ih =>
    obtain ⟨orders, loop, first⟩ := State.placeOrder_zero link f (zero f)
    have profile : (s.placeOrder f .safety).profile = s.profile := by funext g; unfold State.profile; simp
    obtain ⟨orders', loop', later⟩ := ih (s := s.placeOrder f .safety) (by rw [loop]; exact link)
      (fun g => by rw [State.placeOrder_power]; exact zero g)
    refine ⟨orders', loop'.trans (by rw [loop]), fun g => ?_⟩
    have before : (s.placeOrder f .safety).loop.orders[g] = orders[g] := by rw [loop]
    rw [later g, profile, before, first g]
    simp only [List.mem_cons]
    by_cases same : g = f
    · subst same
      by_cases rated : 0 < (s.profile g).rated <;> simp [rated]
    · simp [same]

theorem State.placeZeros_power (s : State) (f : Furnace) :
    s.placeZeros.power[f] = { s.power[f] with refresh := s.placeZeros.power[f].refresh } := by
  unfold State.placeZeros
  generalize furnaces = fs
  induction fs generalizing s with
  | nil => rfl
  | cons g fs ih =>
    rw [List.foldl_cons]
    refine (ih _).trans ?_
    rw [State.placeOrder_power]

/-- A remake of furnaces whose I is 0 places no order (R107). -/
theorem State.remake_idle (zero : ∀ f : Furnace, s.power[f].issued = 0) : s.remake.loop = s.loop := by
  rw [State.remake_loop]
  have none (l : LoopPort) (f : Furnace) : cutOrder s s.remake l f = l :=
    if_neg (by rw [zero f]; exact fun h => absurd h.1 (Nat.not_lt_zero _))
  exact foldl_keeps id _ none furnaces s.loop

/-- The allocator after its restart and the remake that follows: every O and I is 0 (R122). -/
theorem State.remake_zero {f : Furnace} (zero : s.power[f].issued = 0) :
    s.remake.power[f].issued = 0 ∧ s.remake.power[f].ordered = s.power[f].ordered := by
  rw [State.remake_power, State.applyGrant_same]
  exact ⟨by show min s.power[f].issued _ = 0; rw [zero, Nat.zero_min], rfl⟩

/-! ### Comparisons and water -/

theorem State.compareAll_holding (s : State) (f : Furnace) :
    s.compareAll.holding[f] = s.holding[f].after s.heats[f] (s.profile f) s.time := by
  unfold State.compareAll
  refine (foldl_subject (get := fun s f => s.holding[f])
    (v := fun s f => s.holding[f].after s.heats[f] (s.profile f) s.time) _ ?_ ?_ ?_ furnaces nodup_furnaces s f).trans
    (if_pos (mem_furnaces f))
  · exact fun s i j h => State.setHolding_other s _ (Ne.symm h)
  · intro s i j h
    have e := State.setHolding_other s (s.holding[i].after s.heats[i] (s.profile i) s.time) (Ne.symm h)
    exact congrArg (fun x : Holding => x.after s.heats[j] (s.profile j) s.time) e
  · exact fun s i => State.setHolding_same s i _

theorem State.waterTest_circuits (s : State) (a c : CircuitNo) :
    ∃ w, (s.waterTest a).circuits[c] = { s.circuits[c] with water := w } := by
  unfold State.waterTest
  dsimp only
  split
  · by_cases same : c = a
    · subst same
      exact ⟨true, State.setCircuit_same s c _⟩
    · exact ⟨_, State.setCircuit_other s _ (Ne.symm same)⟩
  · exact ⟨_, rfl⟩

/-- The water tests move the requests alone (R149). -/
theorem State.waterTests_circuits (s : State) (c : CircuitNo) :
    ∃ w, s.waterTests.circuits[c] = { s.circuits[c] with water := w } := by
  unfold State.waterTests
  generalize circuitNos = cs
  induction cs generalizing s with
  | nil => exact ⟨_, rfl⟩
  | cons a cs ih =>
    obtain ⟨w, later⟩ := ih (s.waterTest a)
    obtain ⟨_, first⟩ := s.waterTest_circuits a c
    exact ⟨w, later.trans (by rw [first])⟩

end Sys2Proof.Machine
end

section
/-! O56. RESTART and the warm restart (R20, R42, R55, R90, R122, R132, R153, R165, R175, R186, R202). -/

namespace Sys2Proof.Machine

variable {s : State}

/-! ### The furnace at the station (R175) -/

theorem Heat.poured_lockout (h : Heat) (p : Profile) (left : Nat) : (h.poured p left).lockout = h.lockout := by
  unfold Heat.poured
  split_ifs <;> rfl

/-- The lockout of a furnace whose pour a restart accounts. -/
def State.lockoutAfter (s : State) (f : Furnace) : Option Lockout :=
  if s.tiltUnsafe f then (if s.heats[f].lockout = some .follow then some .follow else some .tilt)
  else s.heats[f].lockout

theorem State.restartAccount_heats (s : State) (r : Pour) :
    let h := s.heats[r.furnace]
    (s.restartAccount r).heats = s.heats.set r.furnace { h.poured (s.profile r.furnace) (h.mass - s.finalMass r) with
      lockout := s.lockoutAfter r.furnace } := by
  have after := congrArg State.heats (s.pourOff_eq r.furnace (s.finalMass r))
  unfold State.restartAccount State.lockoutAfter
  dsimp only at after ⊢
  split
  · unfold State.lockTilt
    simp only [State.setHeat_heats]
    rw [after]
    simp [Heat.poured_lockout]
  · rw [after, ← Heat.poured_lockout s.heats[r.furnace] (s.profile r.furnace)
      (s.heats[r.furnace].mass - s.finalMass r)]

theorem State.tiltUnsafe_iff (s : State) (f : Furnace) : s.tiltUnsafe f = true ↔
    (∃ a, s.taps.tilt[f] = some a ∧ s.mgmt.params.tiltHome < a) ∨ s.intake.stale.tilt[f] = true := by
  unfold State.tiltUnsafe
  rw [Bool.or_eq_true]
  cases s.taps.tilt[f] <;> simp

/-- A furnace that is not at the station keeps its heat whole. -/
theorem State.restartStation_other {f : Furnace}
    (h : s.taps.station = .idle ∨ ∀ r, s.taps.pour = some r → r.furnace ≠ f) :
    s.restartStation.heats[f] = s.heats[f] := by
  cases pour : s.taps.pour with
  | none =>
    unfold State.restartStation
    cases s.taps.station <;> rw [pour]
  | some r =>
    unfold State.restartStation
    rw [pour]
    cases station : s.taps.station with
    | idle => rfl
    | assigned | permitted =>
      have other := (h.resolve_left (by rw [station]; exact nofun)) r pour
      exact State.setHeat_other s _ other
    | pouring | returning =>
      have other := (h.resolve_left (by rw [station]; exact nofun)) r pour
      exact (congrArg (·[f]) (s.restartAccount_heats r)).trans (Vector.getElem_set_ne _ _ (Fin.val_ne_of_ne other))

theorem State.restartStation_assigned {r : Pour} (pour : s.taps.pour = some r)
    (h : s.taps.station = .assigned ∨ s.taps.station = .permitted) :
    s.restartStation.heats[r.furnace] = { s.heats[r.furnace] with phase := .holding } := by
  unfold State.restartStation
  rw [pour]
  rcases h with h | h <;> rw [h] <;> exact State.setHeat_same s _ _

theorem State.restartStation_pouring {r : Pour} (pour : s.taps.pour = some r)
    (h : s.taps.station = .pouring ∨ s.taps.station = .returning) :
    let x := s.heats[r.furnace]
    s.restartStation.heats[r.furnace] = { x.poured (s.profile r.furnace) (x.mass - s.finalMass r) with
      lockout := s.lockoutAfter r.furnace } := by
  have account : s.restartStation = s.restartAccount r := by
    unfold State.restartStation
    rw [pour]
    rcases h with h | h <;> rw [h]
  rw [account]
  exact (congrArg (·[r.furnace]) (s.restartAccount_heats r)).trans (Vector.getElem_set_self _)

/-! ### The tap coordinator -/

theorem LoopPort.placePermit_busy {l : LoopPort} {x : List Byte} (h : l.link = .sending x) (f : Furnace)
    (r : PermitRec) : l.placePermit f r = { l with permits := l.permits.set f (some r) } :=
  kick_busy _ (by rw [h]; exact nofun)

theorem LoopPort.placeStatus_busy {l : LoopPort} {x : List Byte} (h : l.link = .sending x)
    (room : l.statuses.length < 6) (r : Status) : l.placeStatus r = { l with statuses := l.statuses ++ [r] } := by
  unfold LoopPort.placeStatus
  rw [if_pos (show l.statuses.length < statusDepth from room)]
  exact kick_busy _ (by rw [h]; exact nofun)

/-- The withdrawal of a permit, on a busy link, touches the permit slots alone. -/
theorem State.restartPermit_busy {x : List Byte} (h : s.loop.link = .sending x) :
    ∃ permits, s.restartPermit = s.withLoop { s.loop with permits := permits } := by
  unfold State.restartPermit State.withdraw
  split
  · rw [LoopPort.placePermit_busy h]; exact ⟨_, rfl⟩
  · rw [LoopPort.placePermit_busy h]; exact ⟨_, rfl⟩
  · exact ⟨_, rfl⟩

/-- CLEARED, the one status after a restart (log entry 19). -/
def State.clearedStatus (s : State) : Status :=
  { dest := destOr255 s.mgmt.params.pouringLine, kind := .cleared, demand := none, furnace := none, poured := none }

theorem State.restartTaps_loop {x : List Byte} (h : s.loop.link = .sending x) (empty : s.loop.statuses = []) :
    ∃ permits, s.restartTaps.loop = { s.loop with permits := permits, statuses := [s.clearedStatus] } := by
  obtain ⟨permits, permit⟩ := State.restartPermit_busy h
  have loop : s.restartTaps.loop = s.restartPermit.restartStation.loop.placeStatus
      { s.clearedStatus with dest := destOr255 s.restartPermit.restartStation.mgmt.params.pouringLine } := rfl
  refine ⟨permits, loop.trans ?_⟩
  simp only [State.restartStation_frame, permit, State.withLoop_loop, State.withLoop_mgmt]
  refine (LoopPort.placeStatus_busy (l := { s.loop with permits := permits }) h (by rw [empty]; decide) _).trans ?_
  simp only [empty, List.nil_append]
  rfl

/-! ### The other blocks -/

/-- The state of a warm restart once the blocks before the allocator have made theirs (log entry 12). -/
def State.cleared (s : State) : State :=
  let s := (s.restartMgmt.restartLoop.withIntakeCounters IntakeCounters.zero).restartContacts.restartWatch
  { s with
    power := s.power.map fun x : Power =>
      { x with ordered := 0, demand := 0, grant := 0, issued := 0, ramp := .idle, follow := .idle }
    orderClamps := 0 }

theorem State.warmRestart_eq (s : State) :
    s.warmRestart = s.cleared.placeZeros.restartTaps.compareAll.remake.waterTests.reraise.driveOutputs := rfl

theorem State.cleared_power (s : State) (f : Furnace) :
    s.cleared.power[f].ordered = 0 ∧ s.cleared.power[f].issued = 0 := by
  simp [State.cleared]

/-- The loop port as a warm restart leaves it before the raises, on a busy link. -/
theorem State.restarted_loop {x : List Byte} (h : s.loop.link = .sending x) : ∃ orders permits,
    s.cleared.placeZeros.restartTaps.compareAll.remake.waterTests.loop = { s.cleared.loop with
      orders := orders, permits := permits, statuses := [s.cleared.clearedStatus] }
    ∧ ∀ f : Furnace, orders[f] = if 0 < (s.profile f).rated then some (s.profile f).zeroOrder else none := by
  have zero (f : Furnace) : s.cleared.power[f].issued = 0 := (s.cleared_power f).2
  obtain ⟨orders, placed, each⟩ := State.zeros_loop (s := s.cleared) (by exact h) zero furnaces
  obtain ⟨permits, taps⟩ := State.restartTaps_loop (s := s.cleared.placeZeros) (x := x)
    (by unfold State.placeZeros; rw [placed]; exact h) (by unfold State.placeZeros; rw [placed]; rfl)
  have told : s.cleared.placeZeros.clearedStatus = s.cleared.clearedStatus := by
    unfold State.clearedStatus
    simp only [State.placeZeros_frame]
  refine ⟨orders, permits, ?_, fun f => (each f).trans ?_⟩
  · have idle (f : Furnace) : s.cleared.placeZeros.restartTaps.compareAll.power[f].issued = 0 := by
      simp only [State.compareAll_frame, State.restartTaps_frame]
      rw [State.placeZeros_power]
      exact zero f
    simp only [State.waterTests_frame]
    rw [State.remake_idle idle]
    simp only [State.compareAll_frame]
    rw [taps, told]
    unfold State.placeZeros
    rw [placed]
  · have profile : s.cleared.profile f = s.profile f := rfl
    have none : s.cleared.loop.orders[f] = none := Vector.getElem_replicate _
    simp only [mem_furnaces, true_and, profile, none]

/-! ### The whole restart -/

/-- The state whose causes a warm restart raises again. -/
def State.restarted (s : State) : State := s.cleared.placeZeros.restartTaps.compareAll.remake.waterTests

/-- What a warm restart on a busy link leaves of the loop port and of the latched-condition set. -/
theorem State.warmRestart_reports {x : List Byte} (h : s.loop.link = .sending x) :
    (∀ y, y ∈ s.warmRestart.mgmt.latched ↔ y.time = s.time ∧ (y.kind, y.subject) ∈ s.restarted.persisting)
    ∧ ∃ orders permits reports counters, s.warmRestart.loop = { s.cleared.loop with
        orders := orders, permits := permits, statuses := [s.cleared.clearedStatus], reports := reports
        counters := counters }
      ∧ (∀ f : Furnace, orders[f] = if 0 < (s.profile f).rated then some (s.profile f).zeroOrder else none)
      ∧ reports.length = min 12 s.warmRestart.mgmt.latched.length
      ∧ counters = { LoopCounters.zero with reportDrops := s.warmRestart.mgmt.latched.length - 12 } := by
  obtain ⟨orders, permits, loop, each⟩ := State.restarted_loop h
  have latched : s.restarted.mgmt.latched = [] := by
    unfold State.restarted
    simp only [State.waterTests_frame, State.remake_frame, State.compareAll_frame, State.restartTaps_frame,
      State.placeZeros_frame]
    rfl
  have time : s.restarted.time = s.time := by
    unfold State.restarted
    simp only [State.waterTests_frame, State.remake_frame, State.compareAll_frame, State.restartTaps_frame,
      State.placeZeros_frame]
    rfl
  obtain ⟨members, reports, counters, loop', length, count⟩ := State.raises_spec (s := s.restarted)
    (x := x) (pairs := s.restarted.persisting) (by unfold State.restarted; rw [loop]; exact h)
    s.restarted.persisting_nodup (by rw [latched]; exact nofun)
    (by rw [latched]; unfold State.restarted; rw [loop]; exact ⟨rfl, rfl⟩)
    (by have := s.restarted.persisting_length; rw [latched]; simp; omega)
  rw [← State.reraise_eq] at members loop' length count
  have ended : s.warmRestart = s.restarted.reraise.driveOutputs := s.warmRestart_eq
  rw [ended]
  simp only [State.driveOutputs_frame]
  refine ⟨fun y => ?_, orders, permits, reports, counters, ?_, each, ?_, ?_⟩
  · rw [members, latched, time]
    simp
  · refine loop'.trans ?_
    unfold State.restarted
    rw [loop]
  · rw [← length, loop']
  · rw [← count, loop']

theorem State.driveOutputs_contacts (s : State) :
    s.driveOutputs.contacts = { s.contacts with driven := s.driveOutputs.contacts.driven } := rfl

/-- What a warm restart makes of the management unit, intake, the contact unit, the counts and the watchdog. -/
theorem State.warmRestart_blocks (s : State) :
    s.warmRestart.mgmt.params = s.cleared.mgmt.params ∧ s.warmRestart.mgmt.selection = none
    ∧ s.warmRestart.mgmt.latch = 0 ∧ s.warmRestart.mgmt.validator = s.mgmt.validator.abandon
    ∧ s.warmRestart.intake = { s.intake with counters := IntakeCounters.zero }
    ∧ s.warmRestart.contacts = { s.contacts with
      changePending := false, overrun := false, snapshot := none, driven := s.warmRestart.contacts.driven }
    ∧ s.warmRestart.orderClamps = 0 ∧ s.warmRestart.watch = s.cleared.watch := by
  have contacts : s.restarted.reraise.contacts = s.cleared.contacts := by
    unfold State.restarted
    simp only [State.reraise_frame, State.waterTests_frame, State.remake_frame, State.compareAll_frame,
      State.restartTaps_frame, State.placeZeros_frame]
  refine ⟨?_, ?_, ?_, ?_, ?_, ?_, ?_, ?_⟩
  case refine_6 =>
    have drives := s.restarted.reraise.driveOutputs_contacts
    rw [contacts] at drives
    exact drives
  all_goals
    rw [State.warmRestart_eq]
    simp only [State.driveOutputs_frame, State.reraise_frame, State.waterTests_frame, State.remake_frame,
      State.compareAll_frame, State.restartTaps_frame, State.placeZeros_frame]
  all_goals rfl

/-- CLEARED is the one status that waits after a warm restart (log entry 19). -/
theorem State.warmRestart_statuses {x : List Byte} (h : s.loop.link = .sending x) :
    s.warmRestart.loop.statuses = [s.warmRestart.clearedStatus] := by
  obtain ⟨_, _, _, _, _, loop, _⟩ := State.warmRestart_reports h
  have told : s.warmRestart.clearedStatus = s.cleared.clearedStatus := by
    unfold State.clearedStatus
    rw [s.warmRestart_blocks.1]
  rw [told, loop]

/-- A SAFETY zero waits for every rated furnace after a warm restart (R122). -/
theorem State.warmRestart_orders {x : List Byte} (h : s.loop.link = .sending x) (f : Furnace) :
    s.warmRestart.loop.orders[f] = if 0 < (s.profile f).rated then some (s.profile f).zeroOrder else none := by
  obtain ⟨_, orders, _, _, _, loop, each, _⟩ := State.warmRestart_reports h
  have placed : s.warmRestart.loop.orders = orders := by rw [loop]
  rw [placed, each]

/-- The tap coordinator after a warm restart (R175). -/
theorem State.warmRestart_taps (s : State) : s.warmRestart.taps = { s.warmRestart.taps with
    queue := [], station := .idle, pour := none, ready := [], held := false, malformed := 0 } := by
  have taps : s.warmRestart.taps = s.cleared.placeZeros.restartTaps.taps := by
    rw [State.warmRestart_eq]
    simp only [State.driveOutputs_frame, State.reraise_frame, State.waterTests_frame, State.remake_frame,
      State.compareAll_frame]
  rw [taps]
  rfl

/-- The heats after a warm restart are those that the tap coordinator's restart leaves (R175). -/
theorem State.warmRestart_heats (s : State) : ∃ v : State, s.warmRestart.heats = v.restartStation.heats
    ∧ v.heats = s.heats ∧ v.taps = s.taps ∧ v.tables = s.tables ∧ v.intake.stale = s.intake.stale
    ∧ v.mgmt.params = s.warmRestart.mgmt.params := by
  refine ⟨s.cleared.placeZeros.restartPermit, ?_, ?_, ?_, ?_, ?_, ?_⟩
  case refine_1 =>
    rw [State.warmRestart_eq]
    simp only [State.driveOutputs_frame, State.reraise_frame, State.waterTests_frame, State.remake_frame,
      State.compareAll_frame]
    rfl
  case refine_6 => simp only [State.restartPermit_frame, State.placeZeros_frame, State.warmRestart_blocks]
  all_goals
    simp only [State.restartPermit_frame, State.placeZeros_frame]
    rfl

theorem State.warmRestart_away {f : Furnace}
    (h : s.taps.station = .idle ∨ ∀ r, s.taps.pour = some r → r.furnace ≠ f) :
    s.warmRestart.heats[f] = s.heats[f] := by
  obtain ⟨v, left, heats, taps, _⟩ := s.warmRestart_heats
  rw [left, State.restartStation_other (by rw [taps]; exact h), heats]

theorem State.warmRestart_assigned {r : Pour} (pour : s.taps.pour = some r)
    (h : s.taps.station = .assigned ∨ s.taps.station = .permitted) :
    s.warmRestart.heats[r.furnace] = { s.heats[r.furnace] with phase := .holding } := by
  obtain ⟨v, left, heats, taps, _⟩ := s.warmRestart_heats
  rw [left, State.restartStation_assigned (by rw [taps]; exact pour) (by rw [taps]; exact h), heats]

/-- The account of a pour in flight at a warm restart (R90, R175). -/
theorem State.warmRestart_pouring {r : Pour} (pour : s.taps.pour = some r)
    (h : s.taps.station = .pouring ∨ s.taps.station = .returning) :
    let f := r.furnace
    let x := s.heats[f]
    let t := s.warmRestart
    let tilted := (∃ a, s.taps.tilt[f] = some a ∧ t.mgmt.params.tiltHome < a) ∨ s.intake.stale.tilt[f] = true
    (tilted → t.heats[f].lockout = if x.lockout = some .follow then x.lockout else some .tilt)
    ∧ (¬tilted → t.heats[f].lockout = x.lockout)
    ∧ t.heats[f] = { x.poured (s.profile f) (x.mass - min (s.taps.ladle.getD 0 - r.tare.getD 0) x.mass) with
      lockout := t.heats[f].lockout } := by
  obtain ⟨v, left, heats, taps, tables, stale, params⟩ := s.warmRestart_heats
  have account := State.restartStation_pouring (s := v) (r := r) (by rw [taps]; exact pour) (by rw [taps]; exact h)
  have unsafe_iff := v.tiltUnsafe_iff r.furnace
  have profile : v.profile r.furnace = s.profile r.furnace := by unfold State.profile; rw [tables]
  dsimp only at account ⊢
  rw [← left] at account
  unfold State.lockoutAfter State.finalMass at account
  rw [taps, stale, params] at unsafe_iff
  rw [heats, taps, profile] at account
  rw [← unsafe_iff]
  refine ⟨fun tilted => ?_, fun home => ?_, ?_⟩
  · rw [account, if_pos tilted]
    split
    · symm; assumption
    · rfl
  · rw [account, if_neg home]
  · rw [account]

theorem State.warmRestart_holding (s : State) (f : Furnace) :
    s.warmRestart.holding[f] = s.holding[f].after s.warmRestart.heats[f] (s.profile f) s.time := by
  rw [State.warmRestart_eq]
  simp only [State.driveOutputs_frame, State.reraise_frame, State.waterTests_frame, State.remake_frame]
  rw [State.compareAll_holding]
  simp only [State.compareAll_frame, State.restartTaps_frame, State.placeZeros_frame]
  unfold State.profile
  simp only [State.restartTaps_frame, State.placeZeros_frame]
  rfl

theorem State.warmRestart_circuits (s : State) (c : CircuitNo) :
    s.warmRestart.circuits[c] = { s.circuits[c] with water := s.warmRestart.circuits[c].water } := by
  have circuits : s.warmRestart.circuits = s.restarted.circuits := by
    rw [State.warmRestart_eq]
    simp only [State.driveOutputs_frame, State.reraise_frame]
    rfl
  obtain ⟨w, water⟩ := State.waterTests_circuits s.cleared.placeZeros.restartTaps.compareAll.remake c
  simp only [State.remake_frame, State.compareAll_frame, State.restartTaps_frame, State.placeZeros_frame] at water
  rw [circuits]
  unfold State.restarted
  rw [water]
  rfl

theorem State.warmRestart_power (s : State) (f : Furnace) :
    s.warmRestart.power[f].ordered = 0 ∧ s.warmRestart.power[f].issued = 0 := by
  have power : s.warmRestart.power = s.cleared.placeZeros.restartTaps.compareAll.remake.power := by
    rw [State.warmRestart_eq]
    simp only [State.driveOutputs_frame, State.reraise_frame, State.waterTests_frame]
  have before : s.cleared.placeZeros.restartTaps.compareAll.power[f] = s.cleared.placeZeros.power[f] := by
    simp only [State.compareAll_frame, State.restartTaps_frame]
  obtain ⟨ordered, issued⟩ := s.cleared_power f
  rw [State.placeZeros_power] at before
  obtain ⟨issued', ordered'⟩ := State.remake_zero (s := s.cleared.placeZeros.restartTaps.compareAll) (f := f)
    (by rw [before]; exact issued)
  rw [power]
  exact ⟨ordered'.trans (by rw [before]; exact ordered), issued'⟩

/-- Exactly the pairs whose causes persist are latched, at the restart (R202, step 5). -/
theorem State.warmRestart_latched {x : List Byte} (h : s.loop.link = .sending x) (k : Kind) (n : Nat) :
    s.warmRestart.isLatched k n = true ↔
      (k = .allStop ∧ n = 0 ∧ s.warmRestart.watch.run = .allStop)
      ∨ (∃ c : CircuitNo, k = .circuitTrip ∧ n = numberOf c ∧ s.warmRestart.circuits[c].state = .trip)
      ∨ (∃ f : Furnace, k = .followFault ∧ n = numberOf f ∧ s.warmRestart.heats[f].lockout = some .follow)
      ∨ ∃ f : Furnace, k = .tiltFault ∧ n = numberOf f ∧ s.warmRestart.heats[f].lockout = some .tilt := by
  obtain ⟨members, _⟩ := State.warmRestart_reports h
  have frame : s.warmRestart.watch = s.restarted.watch ∧ s.warmRestart.circuits = s.restarted.circuits
      ∧ s.warmRestart.heats = s.restarted.heats := by
    rw [State.warmRestart_eq]
    simp only [State.driveOutputs_frame, State.reraise_frame]
    exact ⟨rfl, rfl, rfl⟩
  obtain ⟨watch, circuits, heats⟩ := frame
  have pair : s.warmRestart.isLatched k n = true ↔ (k, n) ∈ s.restarted.persisting := by
    unfold State.isLatched
    rw [List.any_eq_true]
    constructor
    · rintro ⟨y, hy, same⟩
      rw [Bool.and_eq_true, decide_eq_true_iff, decide_eq_true_iff] at same
      have raised := ((members y).1 hy).2
      rwa [same.1, same.2] at raised
    · exact fun raised => ⟨⟨k, n, s.time⟩, (members _).2 ⟨rfl, raised⟩, by simp⟩
  rw [pair, watch, circuits, heats]
  exact State.mem_persisting k n

theorem Validator.abandon_idle (v : Validator) : v.abandon.validating = none := by
  unfold Validator.abandon
  split
  · rfl
  · assumption

theorem Validator.abandon_validating {v : Validator} {n : TableNo} (h : v.validating = some n) :
    v.abandon = { validating := none, outcome := .abandoned, table := some n, failure := none } := by
  unfold Validator.abandon
  rw [h]

/-- A poured heat by the mass left, its lockout apart. -/
theorem Heat.poured_cases {y x : Heat} {p : Profile} {left : Nat}
    (h : y = { x.poured p left with lockout := y.lockout }) :
    let scaled : Heat := { x with mass := left, energy := x.energy * left / x.mass, residue := 0 }
    (left = 0 → y = { Heat.cold with lockout := y.lockout })
    ∧ (0 < left → left < 100 → y = { scaled with
        phase := .melting, progress := none, temp := none, approval := none, holdStart := none, holdTimer := .idle
        lockout := y.lockout })
    ∧ (100 ≤ left → y = { scaled.estimate p with phase := .holding, lockout := y.lockout }) := by
  unfold Heat.poured at h
  refine ⟨fun empty => ?_, fun some light => ?_, fun heavy => ?_⟩
  · rw [if_pos empty] at h
    exact h
  · rw [if_neg (by omega), if_pos light] at h
    exact h
  · rw [if_neg (by omega), if_neg (by omega)] at h
    exact h

/-! ### The command -/

/-- The state in which RESTART's warm restart begins: its reply placed on a busy link (R188, R202). -/
def State.replied (s : State) (dt : Time) (source seq : Byte) : State :=
  { s with
    time := s.time + dt
    loop := { s.loop with reply := some { dest := source, body := [seq, 1, 0x0F] } }
    mgmt := { s.mgmt with frame := { items := 1, results := [.ok], data := [] } } }

theorem exec_restart {dt : Time} {source seq : Byte} {x : List Byte} (pin : s.pinLow = false)
    (link : s.loop.link = .sending x) :
    exec (.restart dt source seq) s = .next (s.replied dt source seq).warmRestart := by
  have run : exec (.restart dt source seq) s = .next (((s.advance dt).openFrame 1).restartCommand source seq) := by
    show Host.Outcome.next (s.event dt _) = _
    rw [s.event_high pin]
  have placed : ((s.advance dt).openFrame 1).restartResults.placeReplyTo source seq = s.replied dt source seq := by
    unfold State.placeReplyTo
    rw [LoopPort.placeReply_busy (x := x) (by exact link)]
    rfl
  rw [run, State.restartCommand, placed]

/-- Settles O56: the blocks' restart actions, the heat of the furnace at the station, and the pairs raised again. -/
theorem restartKeepsTheMetal : Obligations.RestartKeepsTheMetal := by
  unfold Obligations.RestartKeepsTheMetal
  intro dt source seq x s pin link
  refine ⟨_, exec_restart pin link, ?_⟩
  have link' : (s.replied dt source seq).loop.link = .sending x := link
  obtain ⟨members, orders, permits, reports, counters, loop, each, length, count⟩ := State.warmRestart_reports link'
  obtain ⟨params, selection, latch, validator, intake, contacts, clamps, watch⟩ :=
    (s.replied dt source seq).warmRestart_blocks
  have time : (s.replied dt source seq).warmRestart.time = s.time + dt := by simp only [State.warmRestart_frame]; rfl
  have pinLow : (s.replied dt source seq).warmRestart.pinLow = s.pinLow := by simp only [State.warmRestart_frame]; rfl
  have tables : (s.replied dt source seq).warmRestart.tables = s.tables := by simp only [State.warmRestart_frame]; rfl
  have locked : (s.replied dt source seq).warmRestart.mgmt.locked = s.mgmt.locked := by
    simp only [State.warmRestart_frame]; rfl
  have taps := (s.replied dt source seq).warmRestart_taps
  have latched := State.warmRestart_latched link'
  have power := (s.replied dt source seq).warmRestart_power
  have holding := (s.replied dt source seq).warmRestart_holding
  have circuits := (s.replied dt source seq).warmRestart_circuits
  have outputs (o : OutputNo) : (s.replied dt source seq).warmRestart.contacts.driven[o] =
      (s.replied dt source seq).warmRestart.outputLevel o := State.driveOutputs_level _ o
  refine ⟨time, pinLow.trans pin, congrArg (·.reply) loop, tables, locked, params, selection, latch, intake, contacts,
    outputs, congrArg (·.station) loop, congrArg (·.transit) loop, (congrArg (·.link) loop).trans link,
    congrArg (·.seq) loop, congrArg (·.turn) loop, congrArg (·.live) loop, (congrArg (·.counters) loop).trans count,
    (congrArg (·.reports.length) loop).trans length, fun f => ?_, ?_, clamps, congrArg (·.malformed) taps, power,
    congrArg (·.queue) taps, congrArg (·.station) taps, congrArg (·.pour) taps, congrArg (·.ready) taps,
    congrArg (·.held) taps, congrArg (·.state) watch, congrArg (·.timer) watch, congrArg (·.expiries) watch,
    congrArg (·.run) watch, ?_, fun n validating => ?_, fun f away => ?_,
    fun r pour => ⟨fun station => ?_, fun station => ?_⟩,
    fun f => ?_, circuits, fun y hy => ?_, latched⟩
  · exact State.warmRestart_orders link' f
  · exact State.warmRestart_statuses link'
  · have idle := Validator.abandon_idle (s.replied dt source seq).mgmt.validator
    rw [← validator] at idle
    exact idle
  · exact validator.trans (Validator.abandon_validating validating)
  · exact State.warmRestart_away away
  · exact State.warmRestart_assigned pour station
  · obtain ⟨tilted, home, heat⟩ := State.warmRestart_pouring (s := s.replied dt source seq) pour station
    exact ⟨⟨tilted, home⟩, Heat.poured_cases heat⟩
  · rw [time]
    exact holding f
  · rw [time]
    exact ((members y).1 hy).1

end Sys2Proof.Machine
end

section
/-! What the arrival of a frame keeps, for any property of the state that the operations an arrival calls keep
(R2 to R11, R188). -/

namespace Sys2Proof.Machine

/-- A property that every operation an arriving frame can call keeps. -/
structure ArrivalKeeps (P : State → Prop) : Prop where
  loop : ∀ (s : State) (l : LoopPort), P s → P (s.withLoop l)
  frame : ∀ (s : State) (f : ItemFrame), P s → P (s.withMgmt { s.mgmt with frame := f })
  command : ∀ (s : State) (i : Instr), P s → P (s.runCommand i).state
  restart : ∀ s : State, P s → P s.warmRestart
  overrun : ∀ s : State, P s → P (s.raise .mgmtOverrun 0)
  items : ∀ (s : State) (station seq : Byte) (order : Bool) (body : List Byte), P s → P (s.items station seq order body)
  demand : ∀ (s : State) (d : Demand), P s → P (s.settle (s.demand d) Causes.none)
  cancel : ∀ (s : State) (i : Byte), P s → P (s.settle (s.cancel i) Causes.none)
  malformed : ∀ s : State, P s → P s.malformed

namespace ArrivalKeeps

variable {P : State → Prop} {s : State}

theorem restartCommand (k : ArrivalKeeps P) {source seq : Byte} (h : P s) : P (s.restartCommand source seq) :=
  k.restart _ (k.loop _ _ (k.frame _ _ h))

theorem runItems (k : ArrivalKeeps P) (source seq : Byte) (broadcast : Bool) (items : List MgmtItem) (h : P s) :
    P (State.runItems source seq broadcast items s).1 := by
  induction items generalizing s with
  | nil => exact h
  | cons item rest ih =>
    have next (i : Instr) : P (State.runItems source seq broadcast rest (s.runCommand i).recorded).1 :=
      ih (k.frame _ _ (k.command s i h))
    cases item with
    | truncated => exact k.frame _ _ h
    | data bytes => exact next (.tableData 0 bytes)
    | command bytes =>
      unfold State.runItems
      split
      · exact k.frame _ _ h
      · exact k.restartCommand h
      · exact next _

theorem mgmtFrame (k : ArrivalKeeps P) {source seq : Byte} {body : List Byte} (h : P s) :
    P (s.mgmtFrame source seq body) := by
  have run := k.runItems source seq false (divide body)
    (k.frame s { items := (divide body).length, results := [], data := [] } h)
  unfold State.mgmtFrame
  dsimp only
  split
  · exact run
  · exact k.loop _ _ run

theorem takeMgmt (k : ArrivalKeeps P) {f : Frame} (h : P s) : P (s.takeMgmt f) := by
  unfold State.takeMgmt
  split_ifs
  · exact k.loop _ _ h
  · exact k.overrun _ (k.loop _ _ h)
  · exact k.mgmtFrame h

theorem takeBroadcast (k : ArrivalKeeps P) {f : Frame} (h : P s) : P (s.takeBroadcast f) := by
  have forwarded : P (s.forward f) := k.loop _ _ h
  unfold State.takeBroadcast State.broadcastFrame
  dsimp only
  split_ifs
  · exact k.runItems _ _ _ _ (k.frame _ _ forwarded)
  · exact forwarded
  · exact k.loop _ _ forwarded

theorem takePouring (k : ArrivalKeeps P) {f : Frame} (h : P s) : P (s.takePouring f) := by
  unfold State.takePouring State.takeDemand State.takeCancel
  split_ifs
  · exact k.loop _ _ h
  · split
    · exact k.demand _ _ h
    · exact k.malformed _ h
  · split
    · exact k.cancel _ _ h
    · exact k.malformed _ h

theorem takeOrder (k : ArrivalKeeps P) {f : Frame} (h : P s) : P (s.takeOrder f) := by
  unfold State.takeOrder
  split
  · exact k.items _ _ _ _ _ h
  · exact k.loop _ _ h

theorem classify (k : ArrivalKeeps P) {f : Frame} (h : P s) : P (s.classify f) := by
  have forwarded : P (s.forward f) := k.loop _ _ h
  unfold State.classify
  split_ifs
  · exact k.takeMgmt h
  · exact k.takeBroadcast h
  · exact forwarded
  · exact k.takePouring h
  · exact forwarded
  · exact k.takeOrder h
  · exact forwarded
  · exact k.items _ _ _ _ _ forwarded
  · exact forwarded

/-- The arrival of a frame keeps the property. -/
theorem arrive (k : ArrivalKeeps P) {bytes : List Byte} (h : P s) : P (s.arrive bytes) := by
  have stored : P (s.withReceiver (Receiver.store bytes)) := k.loop _ _ h
  unfold State.arrive State.validFrame
  dsimp only
  refine k.loop _ _ ?_
  split
  · exact k.loop _ _ stored
  · split_ifs
    · exact k.loop _ _ (k.loop _ _ stored)
    · exact k.loop _ _ (k.loop _ _ stored)
    · exact k.classify (k.loop _ _ stored)

end ArrivalKeeps

/-- An event keeps what its operation keeps and the passing of time does not touch. -/
theorem State.event_keeps {P : State → Prop} {s : State} {dt : Time} {k : State → State}
    (advance : ∀ u : State, P u → P (u.advance dt)) (hk : ∀ u : State, P u → P (k u)) (h : P s) : P (s.event dt k) := by
  unfold State.event
  split
  · exact h
  · exact hk _ (advance _ h)

/-- An expiry keeps what its operation and the end of the event keep. -/
theorem State.expire_keeps {P : State → Prop} {s : State} {due : Bool} {k : State → State}
    (settle : ∀ s0 u : State, P u → P (s0.settle u Causes.none)) (hk : P s → P (k s)) (h : P s) :
    P (s.expire due k) := by
  unfold State.expire
  split
  · exact settle _ _ (hk h)
  · exact h

end Sys2Proof.Machine
end

section
/-! O5. Every command keeps the table images in canonical form and within their sizes (R34). Table data, RELOAD STAGING
and a passed validation alone write an image (Laws/Memory.lean). -/

namespace Sys2Proof.Machine

variable {s : State}

theorem State.runCommand_fits (s : State) (i : Instr) (h : s.tables.fits = true) :
    (s.runCommand i).state.tables.fits = true := by
  cases i
  case tableData dt bytes => exact s.itemTableData_fits bytes h
  case reloadStaging => exact s.itemReloadStaging_fits h
  all_goals simpa [State.runCommand] using h

theorem ArrivalKeeps.fits : ArrivalKeeps fun s => s.tables.fits = true where
  loop _ _ h := h
  frame _ _ h := h
  command s i h := s.runCommand_fits i h
  restart _ h := by simpa using h
  overrun _ h := h
  items _ _ _ _ _ h := by simpa using h
  demand _ _ h := by simpa using h
  cancel _ _ h := by simpa using h
  malformed _ h := h

theorem State.finishValidation_fits (s : State) (h : s.tables.fits = true) : s.finishValidation.tables.fits = true := by
  unfold State.finishValidation State.completeValidation
  split
  · split
    · exact h
    · simpa only [State.commitEffects_frame] using State.activate_fits (s.recordVerdict _ .passed none) _ h
  · exact h

/-- Every command keeps the table images within their sizes. -/
theorem State.exec_fits {c : Instr} {t : State} (h : s.tables.fits = true) (ht : exec c s = .next t) :
    t.tables.fits = true := by
  have event {dt : Time} {k : State → State} (hk : ∀ u : State, u.tables.fits = true → (k u).tables.fits = true) :
      (s.event dt k).tables.fits = true :=
    State.event_keeps (P := fun u => u.tables.fits = true) (fun _ hu => hu) hk h
  have expiry {dt : Time} {due : State → Bool} {k : State → State} (hk : ∀ u : State, (k u).tables = u.tables) :
      (s.event dt fun u => u.expire (due u) k).tables.fits = true :=
    event fun u hu => State.expire_keeps (P := fun u => u.tables.fits = true) (fun _ _ hv => by simpa using hv)
      (fun hu => by rw [hk]; exact hu) hu
  by_cases hc : (encodeCommand c).isSome = true
  · obtain ⟨dt, source, seq, rfl⟩ | ⟨dt, _, he⟩ := exec_command hc
    · obtain rfl := Host.Outcome.next.inj ht
      exact event fun u hu => ArrivalKeeps.fits.restartCommand hu
    · rw [he s] at ht
      obtain rfl := Host.Outcome.next.inj ht
      exact event fun u hu => (u.openFrame 1).runCommand_fits c hu
  cases c
  all_goals first | exact absurd rfl hc | obtain rfl := Host.Outcome.next.inj ht
  case coldReset => rfl
  case resetPinHeldLow => exact h
  case frameArrival => exact event fun _ => ArrivalKeeps.fits.arrive
  case validationComplete => exact event fun u hu => u.finishValidation_fits hu
  case tableData dt bytes => exact event fun u hu => (u.openFrame 1).itemTableData_fits bytes hu
  case linkCompletion => exact event fun u hu => by unfold State.completeLink; split <;> exact hu
  case rawLevelChange => exact event fun u hu => by simpa using hu
  case loopSilenceExpiry => exact event fun u hu => by split <;> simpa using hu
  case refreshTimerExpiry => exact event fun u hu => by split <;> simpa using hu
  case returnTimerExpiry => exact event fun u hu => by split <;> simpa using hu
  all_goals exact expiry fun u => by simp

/-- Settles O5: table data, RELOAD STAGING and a passed validation write images that fit, and nothing else writes
one. -/
theorem tableImagesStayInTheirSizes : Obligations.TableImagesStayInTheirSizes := by
  unfold Obligations.TableImagesStayInTheirSizes
  intro s t h ht
  unfold step at ht
  split at ht
  · obtain rfl := Host.Outcome.next.inj ht
    exact h
  next c rest _ => exact State.exec_fits (s := s.withPending rest) h ht

end Sys2Proof.Machine
end

section
/-! O57. The latched-condition set (R197): a raise keeps its order, its subjects and every pair in it, and what each
operation of the blocks raises (`Raised`), in the order of the operations' definitions. -/

namespace Sys2Proof.Machine

variable {l : List Latched} {s : State}

/-! ### The set -/

/-- The set stands in its order, each subject one of its kind. -/
def latchedSafe (l : List Latched) : Prop :=
  l.Pairwise (fun a b => latchBefore a b = true) ∧ ∀ x ∈ l, x.kind.hasSubject x.subject

theorem State.latchSafe_iff (s : State) : s.latchSafe ↔ latchedSafe s.mgmt.latched := Iff.rfl

/-- A pair stands in the set. -/
def latchedPair (l : List Latched) (k : Kind) (n : Nat) : Prop := ∃ x ∈ l, x.kind = k ∧ x.subject = n

theorem State.isLatched_iff (s : State) (k : Kind) (n : Nat) :
    s.isLatched k n = true ↔ latchedPair s.mgmt.latched k n := by
  simp [State.isLatched, latchedPair]

theorem latchBefore_trans {a b c : Latched} (h : latchBefore a b = true) (k : latchBefore b c = true) :
    latchBefore a c = true := by
  rw [latchBefore_iff] at *
  rcases h with h | ⟨h, h'⟩ <;> rcases k with k | ⟨k, k'⟩
  · exact .inl (h.trans k)
  · exact .inl (k ▸ h)
  · exact .inl (h ▸ k)
  · exact .inr ⟨h.trans k, h'.trans k'⟩

/-- Of two different pairs one stands before the other. -/
theorem latchBefore_total {a b : Latched} (differ : ¬(a.kind = b.kind ∧ a.subject = b.subject))
    (h : ¬latchBefore a b = true) : latchBefore b a = true := by
  rw [latchBefore_iff] at *
  obtain ⟨code, subject⟩ := not_or.1 h
  by_cases same : a.kind = b.kind
  · have apart : a.subject ≠ b.subject := fun e => differ ⟨same, e⟩
    have above : ¬a.subject < b.subject := fun lt => subject ⟨same, lt⟩
    exact .inr ⟨same.symm, by omega⟩
  · have apart : a.kind.code ≠ b.kind.code := fun e => same (Kind.code_injective e)
    exact .inl (by omega)

theorem mem_latchInsert {x z : Latched} {l : List Latched} (h : z ∈ latchInsert x l) : z = x ∨ z ∈ l := by
  induction l with
  | nil => simpa [latchInsert] using h
  | cons y rest ih =>
    unfold latchInsert at h
    split_ifs at h
    · exact (List.mem_cons.1 h).imp_right (List.mem_cons_of_mem _)
    · exact List.mem_cons.1 h
    · obtain rfl | h := List.mem_cons.1 h
      · simp
      · exact (ih h).imp_right (List.mem_cons_of_mem _)

/-- A raise keeps the order of the set. -/
theorem latchInsert_pairwise (x : Latched) {l : List Latched} (h : l.Pairwise fun a b => latchBefore a b = true) :
    (latchInsert x l).Pairwise fun a b => latchBefore a b = true := by
  induction l with
  | nil => simp [latchInsert]
  | cons y rest ih =>
    obtain ⟨first, later⟩ := List.pairwise_cons.1 h
    unfold latchInsert
    split
    next same =>
      refine List.pairwise_cons.2 ⟨fun z hz => ?_, later⟩
      have before := first z hz
      rw [latchBefore_iff] at *
      rwa [same.1, same.2]
    next differ =>
      split
      next before =>
        refine List.pairwise_cons.2 ⟨fun z hz => ?_, h⟩
        obtain rfl | hz := List.mem_cons.1 hz
        · exact before
        · exact latchBefore_trans before (first z hz)
      next after =>
        refine List.pairwise_cons.2 ⟨fun z hz => ?_, ih later⟩
        obtain rfl | hz := mem_latchInsert hz
        · exact latchBefore_total differ after
        · exact first z hz

/-! ### Raises -/

/-- What raises alone make of a set: its safety and its pairs stay. -/
structure Raised (a b : List Latched) : Prop where
  safe : latchedSafe a → latchedSafe b
  pair : ∀ k n, latchedPair a k n → latchedPair b k n

theorem Raised.refl (l : List Latched) : Raised l l := ⟨id, fun _ _ => id⟩

theorem Raised.trans {a b c : List Latched} (h : Raised a b) (k : Raised b c) : Raised a c :=
  ⟨k.safe ∘ h.safe, fun i n => k.pair i n ∘ h.pair i n⟩

/-- A raise puts its pair in the set. -/
theorem latchInsert_pair (x : Latched) (l : List Latched) : latchedPair (latchInsert x l) x.kind x.subject := by
  induction l with
  | nil => simp [latchInsert, latchedPair]
  | cons y rest ih =>
    obtain ⟨z, hz, same⟩ := ih
    unfold latchInsert
    split_ifs
    · exact ⟨x, by simp, rfl, rfl⟩
    · exact ⟨x, by simp, rfl, rfl⟩
    · exact ⟨z, List.mem_cons_of_mem _ hz, same⟩

/-- A raise keeps the other pairs. -/
theorem latchInsert_keeps (x : Latched) {l : List Latched} {k : Kind} {n : Nat} (h : latchedPair l k n) :
    latchedPair (latchInsert x l) k n := by
  induction l with
  | nil => exact absurd h (by simp [latchedPair])
  | cons y rest ih =>
    obtain ⟨z, hz, same⟩ := h
    unfold latchInsert
    split_ifs with named
    · obtain rfl | hz := List.mem_cons.1 hz
      · exact ⟨x, by simp, named.1.trans same.1, named.2.trans same.2⟩
      · exact ⟨z, List.mem_cons_of_mem _ hz, same⟩
    · exact ⟨z, List.mem_cons_of_mem _ hz, same⟩
    · obtain rfl | hz := List.mem_cons.1 hz
      · exact ⟨z, by simp, same⟩
      · obtain ⟨w, hw, named⟩ := ih ⟨z, hz, same⟩
        exact ⟨w, List.mem_cons_of_mem _ hw, named⟩

theorem State.isLatched_raise (s : State) (k : Kind) (n : Nat) : (s.raise k n).isLatched k n = true :=
  (State.isLatched_iff _ _ _).2 (latchInsert_pair ⟨k, n, s.time⟩ _)

theorem State.raise_raised {k : Kind} {n : Nat} (subject : k.hasSubject n) (h : Raised l s.mgmt.latched) :
    Raised l (s.raise k n).mgmt.latched := by
  refine h.trans ⟨fun ⟨order, subjects⟩ => ⟨latchInsert_pairwise _ order, fun x hx => ?_⟩,
    fun _ _ => latchInsert_keeps _⟩
  obtain rfl | hx := mem_latchInsert hx
  · exact subject
  · exact subjects x hx

theorem furnace_subject (f : Furnace) : 1 ≤ numberOf f ∧ numberOf f ≤ 6 := ⟨Nat.le_add_left _ _, f.isLt⟩

theorem circuit_subject (c : CircuitNo) : 1 ≤ numberOf c ∧ numberOf c ≤ 8 := ⟨Nat.le_add_left _ _, c.isLt⟩

theorem foldl_raised {β : Type} {g : State → β → State}
    (step : ∀ (s : State) (b : β), Raised l s.mgmt.latched → Raised l (g s b).mgmt.latched) (bs : List β)
    (h : Raised l s.mgmt.latched) : Raised l (bs.foldl g s).mgmt.latched := by
  induction bs generalizing s with
  | nil => exact h
  | cons b bs ih => exact ih (step s b h)

/-- An operation that acts on a condition. -/
theorem ite_raised {p : Prop} [Decidable p] {u : State} (h : Raised l s.mgmt.latched) (k : Raised l u.mgmt.latched) :
    Raised l (if p then s else u).mgmt.latched := by
  split
  · exact h
  · exact k

/-! ### The heats -/

theorem State.overcharge_raised {f : Furnace} {old m : Nat} (h : Raised l s.mgmt.latched) :
    Raised l (s.overcharge f old m).mgmt.latched := ite_raised (raise_raised (furnace_subject f) h) h

theorem State.charge_raised {f : Furnace} {m : Nat} (h : Raised l s.mgmt.latched) :
    Raised l (s.charge f m).mgmt.latched := by
  have refused := raise_raised (k := .chargeRefused) (furnace_subject f) h
  unfold State.charge State.firstCharge State.furtherCharge
  refine ite_raised h (ite_raised refused ?_)
  split
  · exact overcharge_raised h
  · exact overcharge_raised h
  · exact overcharge_raised h
  · exact overcharge_raised h
  · exact refused
  · exact refused

theorem State.dip_raised {f : Furnace} {t : Int} (h : Raised l s.mgmt.latched) :
    Raised l (s.dip f t).mgmt.latched := by
  unfold State.dip State.anchor
  exact ite_raised h (ite_raised (ite_raised (raise_raised (furnace_subject f) h) h) h)

theorem State.overheld_raised {f : Furnace} (h : Raised l s.mgmt.latched) :
    Raised l (s.overheld f).mgmt.latched := raise_raised (furnace_subject f) h

theorem State.tiltFault_raised {f : Furnace} (h : Raised l s.mgmt.latched) :
    Raised l (s.tiltFault f).mgmt.latched := raise_raised (furnace_subject f) h

/-! ### The tap coordinator -/

theorem State.interruptPour_raised {r : Pour} {a : Bool} (h : Raised l s.mgmt.latched) :
    Raised l (s.interruptPour r a).mgmt.latched := by
  unfold State.interruptPour
  simp only [State.completionTest_frame]
  exact ite_raised (raise_raised (furnace_subject _) (by simpa using h)) (by simpa using h)

theorem State.abandon_raised {r : Pour} {a : Bool} (h : Raised l s.mgmt.latched) :
    Raised l (s.abandon r a).mgmt.latched := by
  unfold State.abandon
  exact ite_raised (raise_raised (furnace_subject _) (by simpa using h)) (by simpa using h)

theorem State.abandonOn_raised {p : Furnace → Bool} (h : Raised l s.mgmt.latched) :
    Raised l (s.abandonOn p).mgmt.latched := by
  unfold State.abandonOn
  split
  · exact ite_raised (abandon_raised h) h
  · exact ite_raised (abandon_raised h) h
  · exact h

theorem State.tapOnProfile_raised (h : Raised l s.mgmt.latched) : Raised l s.tapOnProfile.mgmt.latched :=
  abandonOn_raised h

theorem State.tapOnExpired_raised (h : Raised l s.mgmt.latched) : Raised l s.tapOnExpired.mgmt.latched := by
  unfold State.tapOnExpired
  split
  · exact abandon_raised h
  · exact h

theorem State.tapOnAllStop_raised (h : Raised l s.mgmt.latched) : Raised l s.tapOnAllStop.mgmt.latched := by
  unfold State.tapOnAllStop
  split
  · exact abandon_raised h
  · exact abandon_raised h
  · exact interruptPour_raised h
  · exact h

theorem State.tiltValue_raised {f : Furnace} {v : Nat} (h : Raised l s.mgmt.latched) :
    Raised l (s.tiltValue f v).mgmt.latched := by
  unfold State.tiltValue State.startPour
  dsimp only
  split
  · exact ite_raised (ite_raised (interruptPour_raised h) h) h
  · exact ite_raised (by simpa using h) h
  · exact ite_raised (by simpa using h) h
  · exact h

theorem State.ladleStale_raised (h : Raised l s.mgmt.latched) : Raised l s.ladleStale.mgmt.latched := by
  unfold State.ladleStale
  split
  · exact interruptPour_raised h
  · exact h

theorem State.tiltStale_raised {f : Furnace} (h : Raised l s.mgmt.latched) :
    Raised l (s.tiltStale f).mgmt.latched := by
  have faulted := tiltFault_raised (f := f) h
  unfold State.tiltStale
  split
  · exact ite_raised (abandon_raised faulted) h
  · exact ite_raised (interruptPour_raised faulted) h
  · exact ite_raised (by simpa using faulted) h
  · exact h

theorem State.tiltStartExpire_raised (h : Raised l s.mgmt.latched) : Raised l s.tiltStartExpire.mgmt.latched := by
  unfold State.tiltStartExpire
  split
  · exact abandon_raised h
  · exact h

theorem State.pourExpire_raised (h : Raised l s.mgmt.latched) : Raised l s.pourExpire.mgmt.latched := by
  unfold State.pourExpire
  split
  · exact interruptPour_raised h
  · exact h

/-! ### The cooling monitor and the watchdog -/

theorem State.enterTrip_raised {c : CircuitNo} {x : TripCause} (h : Raised l s.mgmt.latched) :
    Raised l (s.enterTrip c x).mgmt.latched := by
  unfold State.enterTrip
  refine abandonOn_raised ?_
  simp only [State.waterTest_frame]
  exact raise_raised (circuit_subject c) h

theorem State.settleCircuit_raised {c : CircuitNo} (h : Raised l s.mgmt.latched) :
    Raised l (s.settleCircuit c).mgmt.latched := by
  unfold State.settleCircuit
  split
  · exact enterTrip_raised h
  · exact h

theorem State.circuitTest_raised {c : CircuitNo} (h : Raised l s.mgmt.latched) :
    Raised l (s.circuitTest c).mgmt.latched := by
  unfold State.circuitTest
  split
  · exact settleCircuit_raised h
  · exact settleCircuit_raised h
  · exact settleCircuit_raised h
  · exact ite_raised (enterTrip_raised h) h
  · exact h
  · exact h

theorem State.startingTest_raised {c : CircuitNo} (h : Raised l s.mgmt.latched) :
    Raised l (s.startingTest c).mgmt.latched := ite_raised (settleCircuit_raised h) h

theorem State.evaluate_raised {c : CircuitNo} {q : QuantityNo} {v : Int} (h : Raised l s.mgmt.latched) :
    Raised l (s.evaluate c q v).mgmt.latched := circuitTest_raised h

theorem State.coolingValue_raised {k : CoolingKind} {c : CircuitNo} {v : Int} (h : Raised l s.mgmt.latched) :
    Raised l (s.coolingValue k c v).mgmt.latched := by
  unfold State.coolingValue
  refine ite_raised h ?_
  cases k with
  | flow => exact evaluate_raised h
  | pressure => exact evaluate_raised h
  | supply => exact h
  | ret =>
    dsimp only
    split
    · exact evaluate_raised (evaluate_raised h)
    · exact evaluate_raised h

theorem State.dropQuantity_raised {c : CircuitNo} {q : QuantityNo} {kept : Bool} (h : Raised l s.mgmt.latched) :
    Raised l (s.dropQuantity c q kept).mgmt.latched := by
  unfold State.dropQuantity
  exact ite_raised h (circuitTest_raised h)

theorem State.recheckPoints_raised {c : CircuitNo} (h : Raised l s.mgmt.latched) :
    Raised l (s.recheckPoints c).mgmt.latched := by
  unfold State.recheckPoints
  dsimp only
  split
  · exact h
  · exact dropQuantity_raised (dropQuantity_raised (dropQuantity_raised (dropQuantity_raised h)))

theorem State.recommitCircuit_raised {m : Image} {c : CircuitNo} (h : Raised l s.mgmt.latched) :
    Raised l (s.recommitCircuit m c).mgmt.latched := by
  unfold State.recommitCircuit
  split
  · exact h
  · exact circuitTest_raised h
  · exact h
  · exact ite_raised (startingTest_raised h) h

theorem State.enterExpired_raised (h : Raised l s.mgmt.latched) : Raised l s.enterExpired.mgmt.latched := by
  unfold State.enterExpired
  refine tapOnExpired_raised ?_
  simp only [State.applySafeModes_frame]
  exact raise_raised rfl h

theorem State.enterAllStop_raised {c : StopCause} {n : Byte} (h : Raised l s.mgmt.latched) :
    Raised l (s.enterAllStop c n).mgmt.latched := by
  unfold State.enterAllStop
  split
  · exact h
  · refine tapOnAllStop_raised ?_
    simp only [State.placeZeros_frame, State.remake_frame, State.zeroOrders_frame]
    exact raise_raised rfl h

/-! ### The contact unit -/

theorem State.edge_raised {i : InputNo} {rising : Bool} (h : Raised l s.mgmt.latched) :
    Raised l (s.edge i rising).mgmt.latched :=
  ite_raised (ite_raised (raise_raised rfl h) h) h

theorem State.estopNotice_raised (h : Raised l s.mgmt.latched) : Raised l s.estopNotice.mgmt.latched :=
  ite_raised (enterAllStop_raised h) h

theorem State.sendNotices_raised {old : Indications} (h : Raised l s.mgmt.latched) :
    Raised l (s.sendNotices old).mgmt.latched := by
  unfold State.sendNotices
  refine foldl_raised (fun _ _ h => ite_raised h (by simpa using h)) _ ?_
  refine foldl_raised (fun _ _ h => ite_raised h (startingTest_raised h)) _ ?_
  refine foldl_raised (fun _ _ h => ite_raised h (circuitTest_raised h)) _ ?_
  refine foldl_raised (fun _ _ h => ite_raised h (circuitTest_raised h)) _ ?_
  exact ite_raised h (estopNotice_raised h)

theorem State.refreshIndications_raised (h : Raised l s.mgmt.latched) :
    Raised l s.refreshIndications.mgmt.latched := sendNotices_raised h

theorem State.filteredChange_raised {i : InputNo} (h : Raised l s.mgmt.latched) :
    Raised l (s.filteredChange i).mgmt.latched := edge_raised (refreshIndications_raised h)

theorem State.rawChange_raised {i : InputNo} {closed : Bool} (h : Raised l s.mgmt.latched) :
    Raised l (s.rawChange i closed).mgmt.latched := by
  unfold State.rawChange
  dsimp only
  split
  · exact h
  · split
    · exact h
    · split
      · exact filteredChange_raised h
      · exact h

theorem State.recommitInput_raised {i : InputNo} (h : Raised l s.mgmt.latched) :
    Raised l (s.recommitInput i).mgmt.latched := by
  unfold State.recommitInput
  exact ite_raised (edge_raised h) h

theorem State.recommitContacts_raised {m : Image} (h : Raised l s.mgmt.latched) :
    Raised l (s.recommitContacts m).mgmt.latched := by
  unfold State.recommitContacts
  simp only [State.recommitOutputs_frame]
  exact refreshIndications_raised (foldl_raised (fun _ _ h => recommitInput_raised h) _ h)

/-! ### Point intake -/

theorem State.staleNotice_raised {key : StaleKey} (h : Raised l s.mgmt.latched) :
    Raised l (s.staleNotice key).mgmt.latched := by
  cases key with
  | power f => simpa [State.staleNotice] using h
  | cooling c k => exact circuitTest_raised h
  | ladle => exact ladleStale_raised h
  | tilt f => exact tiltStale_raised h

theorem State.freshToOwner_raised {key : StaleKey} (h : Raised l s.mgmt.latched) :
    Raised l (s.freshToOwner key).mgmt.latched := by
  cases key with
  | power f => exact h
  | cooling c k => exact circuitTest_raised h
  | ladle => exact h
  | tilt f => exact h

theorem State.turnPointStale_raised {i : PointNo} {on : Bool} (h : Raised l s.mgmt.latched) :
    Raised l (s.turnPointStale i on).mgmt.latched := by
  unfold State.turnPointStale State.turnStale
  split
  · exact ite_raised h (ite_raised (staleNotice_raised h) (freshToOwner_raised h))
  · exact h

theorem State.flagStale_raised {i : PointNo} (h : Raised l s.mgmt.latched) :
    Raised l (s.flagStale i).mgmt.latched := by
  unfold State.flagStale
  split
  · exact raise_raised (show i.val ≤ 127 by omega) h
  · exact h

theorem State.deliver_raised {e : PointEntry} {v : Int} {n : Nat} (h : Raised l s.mgmt.latched) :
    Raised l (s.deliver e v n).mgmt.latched := by
  unfold State.deliver
  dsimp only
  split
  · simpa using h
  · simpa using h
  · exact dip_raised h
  · exact charge_raised h
  · simpa using h
  · exact tiltValue_raised h
  · exact coolingValue_raised h
  · exact coolingValue_raised h
  · exact coolingValue_raised h
  · exact coolingValue_raised h
  · exact h

theorem State.acceptItem_raised {i : PointNo} {p : PointLive} {seq : Byte} {it : SampleItem}
    (h : Raised l s.mgmt.latched) : Raised l (s.acceptItem i p seq it).mgmt.latched := by
  unfold State.acceptItem
  refine deliver_raised ?_
  dsimp only
  split
  · exact turnPointStale_raised (ite_raised h h)
  · exact ite_raised h h

theorem State.item_raised {station seq : Byte} {order : Bool} {it : SampleItem} (h : Raised l s.mgmt.latched) :
    Raised l (s.item station seq order it).mgmt.latched := by
  unfold State.item State.matchedItem
  split
  · refine ite_raised h (ite_raised ?_ ?_)
    · simpa using h
    · simpa using acceptItem_raised h
  · exact h

theorem State.items_raised {station seq : Byte} {order : Bool} {body : List Byte} (h : Raised l s.mgmt.latched) :
    Raised l (s.items station seq order body).mgmt.latched := by
  have all := foldl_raised (fun _ it h => item_raised (station := station) (seq := seq) (order := order) (it := it) h)
    (sampleItems body) h
  unfold State.items
  exact ite_raised all all

theorem State.recommitNotice_raised {a b : StaleInd} {key : StaleKey} (h : Raised l s.mgmt.latched) :
    Raised l (s.recommitNotice a b key).mgmt.latched := by
  unfold State.recommitNotice
  split
  · exact staleNotice_raised h
  · exact freshToOwner_raised h
  · exact h

theorem State.recommitPoints_raised {m : Image} (h : Raised l s.mgmt.latched) :
    Raised l (s.recommitPoints m).mgmt.latched := by
  unfold State.recommitPoints
  dsimp only
  refine foldl_raised (fun _ _ h => recheckPoints_raised h) _ ?_
  refine foldl_raised (fun _ _ h => recommitNotice_raised h) _ ?_
  rw [State.withStale_mgmt]
  refine foldl_raised (fun s i h => ?_) pointNos h
  split
  · exact flagStale_raised h
  · exact h

/-! ### The commits of the tables -/

theorem State.followExpire_raised {f : Furnace} (h : Raised l s.mgmt.latched) :
    Raised l (s.followExpire f).mgmt.latched := abandonOn_raised (raise_raised (furnace_subject f) h)

theorem State.recommitProfiles_raised {s0 : State} (h : Raised l s.mgmt.latched) :
    Raised l (s0.recommitProfiles s).mgmt.latched := by
  unfold State.recommitProfiles
  simp only [State.driveOutputs_frame]
  refine foldl_raised (fun s f h => by simpa using h) _ ?_
  refine foldl_raised (fun s f h => by simpa using h) _ ?_
  refine foldl_raised (fun s f h => ?_) _ ?_
  · unfold State.followAtCommit
    split
    · simpa using followExpire_raised h
    · exact h
  simp only [State.settle_frame]
  refine foldl_raised (fun s f h => by simpa using h) _ ?_
  refine foldl_raised (fun s f h => by simpa using h) _ (tapOnProfile_raised ?_)
  simp only [State.compareAll_frame]
  refine foldl_raised (fun s f h => ?_) _ ?_
  · unfold State.holdAtCommit
    exact ite_raised (overheld_raised h) h
  exact foldl_raised (fun s f h => by simpa using h) _ h

theorem State.commitEffects_raised {s0 : State} {n : TableNo} {m : Image} (h : Raised l s.mgmt.latched) :
    Raised l (s0.commitEffects s n m).mgmt.latched := by
  unfold State.commitEffects
  cases n with
  | point => simpa using recommitPoints_raised h
  | profile => exact recommitProfiles_raised h
  | cooling =>
    simp only [State.settle_frame]
    exact foldl_raised (fun _ _ h => recommitCircuit_raised h) _ h
  | contact => simpa using recommitContacts_raised h

theorem State.finishValidation_raised (h : Raised l s.mgmt.latched) : Raised l s.finishValidation.mgmt.latched := by
  unfold State.finishValidation State.completeValidation
  split
  next n _ =>
    split
    · exact raise_raised (show n.number ≤ 3 by cases n <;> decide) h
    · exact commitEffects_raised h
  · exact h

end Sys2Proof.Machine
end

section
/-! O57. Every command keeps the latched-condition set in its order (R197): the events only raise, the commands raise or
remove pairs (R199), and a warm restart begins with the empty set (R202). -/

namespace Sys2Proof.Machine

variable {s : State}

theorem latchedSafe_nil : latchedSafe [] := ⟨List.Pairwise.nil, nofun⟩

theorem State.raised_latchSafe {t : State} (h : s.latchSafe) (raised : Raised s.mgmt.latched t.mgmt.latched) :
    t.latchSafe := raised.safe h

/-- Removing a pair keeps the order and the subjects. -/
theorem State.unlatch_latchSafe {k : Kind} {n : Nat} (h : s.latchSafe) : (s.unlatch k n).latchSafe :=
  ⟨h.1.sublist List.filter_sublist, fun x hx => h.2 x (List.mem_of_mem_filter hx)⟩

theorem State.settle_latchSafe {s0 : State} {x : Causes} (h : s.latchSafe) : (s0.settle s x).latchSafe := by
  rw [State.latchSafe_iff, (State.settle_end s0 s x).mgmt]
  exact h

/-! ### Commands -/

theorem State.silenceExpire_latchSafe (h : s.latchSafe) : s.silenceExpire.latchSafe :=
  State.raised_latchSafe (s := s) h
    (State.raise_raised (s := s.withLoop { s.loop with live := .down }) rfl (Raised.refl _))

theorem State.enterExpired_latchSafe (h : s.latchSafe) : s.enterExpired.latchSafe :=
  State.raised_latchSafe h (State.enterExpired_raised (Raised.refl _))

theorem State.paramWritten_latchSafe {n : Nat} (h : s.latchSafe) : (s.paramWritten n).latchSafe := by
  unfold State.paramWritten
  split
  · split
    · exact State.silenceExpire_latchSafe h
    · exact h
  · split
    · exact State.enterExpired_latchSafe h
    · exact h
  · exact State.raised_latchSafe h (foldl_raised (fun _ _ h => by simpa using h) _ (Raised.refl _))
  · exact h

/-- A refused item and a taken one. -/
theorem ite_item_keeps {P : State → Prop} {p : Prop} [Decidable p] {a b : ItemOut} (ha : P a.state) (hb : P b.state) :
    P (if p then a else b).state := by
  split
  · exact ha
  · exact hb

/-- A command on a furnace number. -/
theorem State.onFurnace_keeps {P : State → Prop} {n : Byte} {k : Furnace → ItemOut} (h : P s)
    (hk : ∀ f, P (k f).state) : P (s.onFurnace n k).state := by
  unfold State.onFurnace
  split
  · exact h
  · exact hk _

theorem State.itemSetParameter_latchSafe {n : Byte} {v : BitVec 32} (h : s.latchSafe) :
    (s.itemSetParameter n v).state.latchSafe := by
  unfold State.itemSetParameter
  dsimp only
  split
  · exact h
  · split_ifs
    · exact h
    · exact h
    · exact h
    · exact h
    · exact settle_latchSafe (paramWritten_latchSafe h)

theorem State.itemResetFurnace_latchSafe {n : Byte} (h : s.latchSafe) : (s.itemResetFurnace n).state.latchSafe :=
  onFurnace_keeps h fun _ => ite_item_keeps h
    (ite_item_keeps h (settle_latchSafe (unlatch_latchSafe (unlatch_latchSafe h))))

theorem State.itemResetCircuit_latchSafe {n : Byte} (h : s.latchSafe) : (s.itemResetCircuit n).state.latchSafe := by
  unfold State.itemResetCircuit
  split
  · exact h
  next c _ =>
    have removed := unlatch_latchSafe (k := .circuitTrip) (n := numberOf c) h
    exact ite_item_keeps (ite_item_keeps h (settle_latchSafe removed)) removed

theorem State.itemHeartbeat_latchSafe {t : BitVec 16} (h : s.latchSafe) : (s.itemHeartbeat t).state.latchSafe := by
  unfold State.itemHeartbeat
  refine ite_item_keeps (ite_item_keeps ?_ (settle_latchSafe (enterExpired_latchSafe h))) h
  rw [latchSafe_iff] at *
  simpa using h

theorem State.itemWdForce_latchSafe (h : s.latchSafe) : s.itemWdForce.state.latchSafe := by
  have forced := settle_latchSafe (s0 := s) (x := Causes.none) (enterExpired_latchSafe h)
  unfold State.itemWdForce
  split
  · exact forced
  · exact forced
  · exact forced
  · exact forced
  · exact h

theorem State.itemWdRestart_latchSafe (h : s.latchSafe) : s.itemWdRestart.state.latchSafe := by
  unfold State.itemWdRestart
  split
  · exact settle_latchSafe (unlatch_latchSafe h)
  · exact h
  · exact h
  · exact h
  · exact h

theorem State.itemAllStop_latchSafe {b : Bool} {source : Byte} (h : s.latchSafe) :
    (s.itemAllStop b source).state.latchSafe := by
  unfold State.itemAllStop
  split
  · exact settle_latchSafe (raised_latchSafe h (enterAllStop_raised (Raised.refl _)))
  · exact h

theorem State.itemResume_latchSafe (h : s.latchSafe) : s.itemResume.state.latchSafe :=
  ite_item_keeps h (ite_item_keeps h (settle_latchSafe (unlatch_latchSafe h)))

theorem State.itemAckChange_latchSafe (h : s.latchSafe) : s.itemAckChange.state.latchSafe :=
  ite_item_keeps (unlatch_latchSafe h) h

theorem State.itemClearCondition_latchSafe {k n : Byte} (h : s.latchSafe) :
    (s.itemClearCondition k n).state.latchSafe := by
  unfold State.itemClearCondition
  split
  · exact h
  · exact ite_item_keeps h (ite_item_keeps h (unlatch_latchSafe h))

theorem State.runCommand_latchSafe (s : State) (i : Instr) (h : s.latchSafe) : (s.runCommand i).state.latchSafe := by
  cases i
  case setParameter => exact itemSetParameter_latchSafe h
  case resetFurnace => exact itemResetFurnace_latchSafe h
  case resetCircuit => exact itemResetCircuit_latchSafe h
  case heartbeat => exact itemHeartbeat_latchSafe h
  case wdForce => exact itemWdForce_latchSafe h
  case wdRestart => exact itemWdRestart_latchSafe h
  case allStop => exact itemAllStop_latchSafe h
  case resume => exact itemResume_latchSafe h
  case ackChange => exact itemAckChange_latchSafe h
  case clearCondition => exact itemClearCondition_latchSafe h
  all_goals
    rw [latchSafe_iff] at *
    simpa [State.runCommand] using h

/-! ### The warm restart and arrivals -/

theorem State.reraise_raised {l : List Latched} (h : Raised l s.mgmt.latched) : Raised l s.reraise.mgmt.latched := by
  unfold State.reraise
  dsimp only
  refine foldl_raised (fun _ f h => ?_) _ (foldl_raised (fun _ c h => ?_) _ ?_)
  · unfold State.reraiseLockout
    split
    · exact raise_raised (furnace_subject f) h
    · exact raise_raised (furnace_subject f) h
    · exact h
  · exact ite_raised (raise_raised (circuit_subject c) h) h
  · exact ite_raised (raise_raised rfl h) h

/-- A warm restart raises on the empty set. -/
theorem State.warmRestart_latchSafe (s : State) : s.warmRestart.latchSafe := by
  have emptied : s.restartMgmt.mgmt.latched = [] := rfl
  have raised : Raised [] s.warmRestart.mgmt.latched := by
    unfold State.warmRestart
    simp only [State.driveOutputs_frame]
    refine reraise_raised ?_
    simp only [State.waterTests_frame, State.remake_frame, State.compareAll_frame, State.restartTaps_frame,
      State.restartPower_frame, State.restartWatch_frame, State.restartContacts_frame, State.withIntakeCounters_mgmt,
      State.restartLoop_frame, emptied]
    exact Raised.refl _
  exact raised.safe latchedSafe_nil

theorem ArrivalKeeps.latchSafe : ArrivalKeeps State.latchSafe where
  loop _ _ h := h
  frame _ _ h := h
  command := State.runCommand_latchSafe
  restart s _ := s.warmRestart_latchSafe
  overrun _ h := State.raised_latchSafe h (State.raise_raised rfl (Raised.refl _))
  items _ _ _ _ _ h := State.raised_latchSafe h (State.items_raised (Raised.refl _))
  demand _ _ h := State.settle_latchSafe (by rw [State.latchSafe_iff] at *; simpa using h)
  cancel _ _ h := State.settle_latchSafe (by rw [State.latchSafe_iff] at *; simpa using h)
  malformed _ h := h

theorem State.returnExpire_latchSafe (h : s.latchSafe) : s.returnExpire.latchSafe := by
  unfold State.returnExpire
  split
  next r _ _ =>
    have faulted : (s.tiltFault r.furnace).latchSafe := raised_latchSafe h (tiltFault_raised (Raised.refl _))
    have accounted : ((s.tiltFault r.furnace).accountPour r).latchSafe := by
      rw [latchSafe_iff] at *
      simpa using faulted
    have settled := settle_latchSafe (s0 := s) (x := Causes.none) accounted
    rw [latchSafe_iff] at *
    simpa only [State.placeStatus_frame] using settled
  · exact settle_latchSafe h

/-- Every command keeps the latched-condition set in its order. -/
theorem State.exec_latchSafe {c : Instr} {t : State} (h : s.latchSafe) (ht : exec c s = .next t) : t.latchSafe := by
  have event {dt : Time} {k : State → State} (hk : ∀ u : State, u.latchSafe → (k u).latchSafe) :
      (s.event dt k).latchSafe := State.event_keeps (fun _ hu => hu) hk h
  have expiry {dt : Time} {due : State → Bool} {k : State → State}
      (hk : ∀ u : State, Raised u.mgmt.latched (k u).mgmt.latched) :
      (s.event dt fun u => u.expire (due u) k).latchSafe :=
    event fun u hu => State.expire_keeps (fun _ _ => settle_latchSafe) (fun hu => raised_latchSafe hu (hk u)) hu
  have quiet {a b : List Latched} (same : b = a) : Raised a b := same ▸ Raised.refl a
  by_cases hc : (encodeCommand c).isSome = true
  · obtain ⟨dt, source, seq, rfl⟩ | ⟨dt, _, he⟩ := exec_command hc
    · obtain rfl := Host.Outcome.next.inj ht
      exact event fun u hu => ArrivalKeeps.latchSafe.restartCommand hu
    · rw [he s] at ht
      obtain rfl := Host.Outcome.next.inj ht
      exact event fun u hu => (u.openFrame 1).runCommand_latchSafe c hu
  cases c
  all_goals first | exact absurd rfl hc | obtain rfl := Host.Outcome.next.inj ht
  case coldReset => exact latchedSafe_nil
  case resetPinHeldLow => exact h
  case frameArrival => exact event fun _ => ArrivalKeeps.latchSafe.arrive
  case linkCompletion => exact event fun u hu => by unfold State.completeLink; split <;> exact hu
  case validationComplete => exact event fun u hu => raised_latchSafe hu (finishValidation_raised (Raised.refl _))
  case rawLevelChange =>
    exact event fun u hu => settle_latchSafe (raised_latchSafe hu (rawChange_raised (Raised.refl _)))
  case persistenceTimerExpiry => exact expiry fun _ => filteredChange_raised (Raised.refl _)
  case staleTimerExpiry => exact expiry fun _ => turnPointStale_raised (flagStale_raised (Raised.refl _))
  case loopSilenceExpiry => exact event fun u hu => by split; exacts [silenceExpire_latchSafe hu, hu]
  case holdTimerExpiry => exact expiry fun _ => overheld_raised (Raised.refl _)
  case refreshTimerExpiry =>
    refine event fun u hu => ?_
    rw [latchSafe_iff] at *
    split <;> simpa using hu
  case followTimerExpiry => exact expiry fun _ => followExpire_raised (Raised.refl _)
  case startTimerExpiry => exact expiry fun _ => startingTest_raised (Raised.refl _)
  case tiltStartTimerExpiry => exact expiry fun _ => tiltStartExpire_raised (Raised.refl _)
  case pourTimerExpiry => exact expiry fun _ => pourExpire_raised (Raised.refl _)
  case returnTimerExpiry => exact event fun u hu => by split; exacts [returnExpire_latchSafe hu, hu]
  case watchdogTimerExpiry => exact expiry fun _ => enterExpired_raised (Raised.refl _)
  case tableData dt bytes => exact event fun u hu => (u.openFrame 1).runCommand_latchSafe (.tableData dt bytes) hu
  all_goals exact expiry fun u => quiet (by simp)

/-- Settles O57: the set is built by raises in its order, and commands only take pairs from it. -/
theorem latchedConditionsStayInOrder : Obligations.LatchedConditionsStayInOrder := by
  unfold Obligations.LatchedConditionsStayInOrder
  intro s t h ht
  unfold step at ht
  split at ht
  · obtain rfl := Host.Outcome.next.inj ht
    exact h
  next c rest _ => exact State.exec_latchSafe (s := s.withPending rest) h ht

end Sys2Proof.Machine
end

section
/-! The arrival of an accepted or skipped sample (R10, R23 to R29): what its point takes, and how its event ends on what
the owner does with the value. -/

namespace Sys2Proof.Machine

variable {s : State} {dt : Time} {bytes : List Byte} {fr : Frame} {i : PointNo} {p : PointLive}

/-- The state that hands an item's value to its owner: the frame is forwarded, and intake holds what `x` does. -/
def State.handing (s : State) (dt : Time) (bytes : List Byte) (f : Frame) (x : Intake) : State :=
  { (s.marked dt bytes).forward f with intake := x }

theorem State.handing_withReceiver (s : State) (dt : Time) (bytes : List Byte) (f : Frame) (x : Intake) :
    (s.handing dt bytes f x).withReceiver Receiver.empty = s.sampled dt f x :=
  congrArg (fun u : State => { u with intake := x }) (s.forward_marked dt bytes f)

theorem intervals_eq (p : PointLive) (seq : Byte) : intervals p.seq seq = p.elapsedIntervals seq := by
  unfold intervals PointLive.elapsedIntervals
  cases p.seq <;> rfl

/-- A taken sample's event is that of its one item, at the point that its key names. -/
theorem SampleTaken.exec {st : Byte} {raw : Int} (h : SampleTaken s bytes fr i p st raw) : ∃ ch,
    exec (.frameArrival dt bytes) s =
      .next ((((s.marked dt bytes).forward fr).matchedItem i fr.seq ⟨ch, st.getLsbD 7, raw⟩).withReceiver
        Receiver.empty) := by
  obtain ⟨ch, hi, lo, body, raw, key⟩ := h.item
  have sample := exec_sample (dt := dt) h.pin h.frame h.hop h.source h.kind
  rw [body, State.items_one, State.item_matched (by exact key), ← raw] at sample
  exact ⟨ch, sample⟩

/-- A point without a cooling owner hands no fresh notice that moves its owner (R31). -/
theorem State.turnStale_quiet {key : StaleKey} (h : ∀ c k, key ≠ .cooling c k) : ∃ x,
    s.turnStale key false = s.withStale x := by
  unfold State.turnStale
  split
  · exact ⟨s.intake.stale, rfl⟩
  · cases key with
    | cooling c k => exact absurd rfl (h c k)
    | power f => exact ⟨_, rfl⟩
    | ladle => exact ⟨_, rfl⟩
    | tilt f => exact ⟨_, rfl⟩

theorem PointEntry.staleKey_quiet {e : PointEntry} {k : PointKind} (kind : e.kind = some k) (quiet : k.cooling = none)
    {key : StaleKey} (h : e.staleKey = some key) (c : CircuitNo) (j : CoolingKind) : key ≠ .cooling c j := by
  rintro rfl
  unfold PointEntry.staleKey at h
  rw [kind] at h
  cases k <;> simp_all [PointKind.cooling]

/-- An accepted item of a point without a cooling owner leaves intake alone changed when its value is delivered. -/
theorem State.acceptItem_quiet {k : PointKind} (kind : (s.point i).kind = some k) (quiet : k.cooling = none)
    (seq : Byte) (it : SampleItem) : s.acceptItem i p seq it =
    ({ s with intake := (s.acceptItem i p seq it).intake } : State).deliver
      (s.point i) ((s.point i).value it.raw) (p.elapsedIntervals seq) := by
  have noticed (x : Intake) : ∃ y : Intake,
      ({ s with intake := x } : State).turnPointStale i false = { s with intake := y } := by
    unfold State.turnPointStale
    cases own : (State.point { s with intake := x } i).staleKey with
    | none => exact ⟨x, rfl⟩
    | some key =>
      obtain ⟨y, turned⟩ := State.turnStale_quiet (s := { s with intake := x })
        (PointEntry.staleKey_quiet kind quiet own)
      exact ⟨{ x with stale := y }, turned⟩
  have reached : ∃ x : Intake, s.acceptItem i p seq it = ({ s with intake := x } : State).deliver (s.point i)
      ((s.point i).value it.raw) (p.elapsedIntervals seq) := by
    unfold State.acceptItem
    rw [intervals_eq]
    dsimp only
    split
    · split
      · exact (noticed _).imp fun y turned => congrArg (State.deliver · _ _ _) turned
      · exact (noticed _).imp fun y turned => congrArg (State.deliver · _ _ _) turned
    · split
      · exact ⟨_, rfl⟩
      · exact ⟨_, rfl⟩
  obtain ⟨x, reached⟩ := reached
  have intake : (s.acceptItem i p seq it).intake = x := by rw [reached]; simp
  rw [intake, reached]

/-- An accepted sample of a point without a cooling owner: the event ends on `change`, the owner's part in it, where
the delivery does that and does not read the receiver. -/
theorem SampleAccepted.ends {v : Int} {k : PointKind} (h : SampleAccepted s bytes fr i p v)
    (kind : (s.point i).kind = some k) (quiet : k.cooling = none) (change : State → State)
    (free : ∀ u : State, (change u).withReceiver Receiver.empty = change (u.withReceiver Receiver.empty))
    (acts : ∀ x : Intake, (∀ key, x.stale.get key =
        (s.intake.stale.get key && !(p.stale && decide ((s.point i).staleKey = some key)))) →
      let u := s.handing dt bytes fr x
      u.deliver (s.point i) v (p.elapsedIntervals fr.seq) = change u) :
    ∃ t, exec (.frameArrival dt bytes) s = .next t
      ∧ EventEnd s (change (s.sampled dt fr t.intake)) t (s.point i).causes := by
  obtain ⟨st, raw, taken, unskipped, rfl⟩ := h
  obtain ⟨ch, arrival⟩ := taken.exec (dt := dt)
  rw [State.matchedItem_accepted (s := (s.marked dt bytes).forward fr) taken.live taken.seq unskipped] at arrival
  have accepted := State.acceptItem_quiet (s := (s.marked dt bytes).forward fr) (i := i) (p := p) kind quiet fr.seq
    ⟨ch, st.getLsbD 7, raw⟩
  have stale := ((s.marked dt bytes).forward fr).acceptItem_stale i p fr.seq ⟨ch, st.getLsbD 7, raw⟩
  have ended := ((s.marked dt bytes).forward fr).settle_end
    (((s.marked dt bytes).forward fr).acceptItem i p fr.seq ⟨ch, st.getLsbD 7, raw⟩)
    (((s.marked dt bytes).forward fr).point i).causes
  have received := EventEnd.received (s := s) (r := Receiver.empty) ended
  generalize ((s.marked dt bytes).forward fr).acceptItem i p fr.seq ⟨ch, st.getLsbD 7, raw⟩ = u at *
  have changed : u.withReceiver Receiver.empty = change (s.sampled dt fr u.intake) := by
    rw [← s.handing_withReceiver dt bytes fr u.intake, ← free]
    exact congrArg (State.withReceiver · _) (accepted.trans (acts u.intake stale))
  refine ⟨_, arrival, ?_⟩
  rw [changed] at received
  have intake := ended.intake
  generalize ((s.marked dt bytes).forward fr).settle u _ = t at *
  rw [← intake] at received
  exact received

end Sys2Proof.Machine
end

section
/-! O34. The power stream (R82, R83, R91, R95, R113): the account, the phase test, and the follow check. -/

namespace Sys2Proof.Machine

variable {s : State}

/-! ### The account -/

theorem Heat.setTotal_spec (h : Heat) (total : Int) :
    (h.setTotal total).residue < 1000
    ∧ h.setTotal total = { h with energy := (h.setTotal total).energy, residue := (h.setTotal total).residue }
    ∧ (((h.setTotal total).energy * 1000 + (h.setTotal total).residue : Nat) : Int) =
      if total < 0 then 0 else if 4000000000999 < total then 4000000000000 else total := by
  unfold Heat.setTotal
  by_cases below : total < 0
  · simp [below]
  by_cases above : 4000000000999 < total
  · simp [below, above, energyMax]
  · simp only [below, above, if_false]
    exact ⟨by omega, trivial, by omega⟩

/-- The melt energy of a heat at progress 1000 is in the account (R85). -/
theorem meltEnergy_le {p : Profile} {m e : Nat} (mass : 0 < m) (melt : 0 < p.meltEnergy)
    (full : progressOf p m e = some 1000) : m * p.meltEnergy ≤ e := by
  unfold progressOf meltEnergy at full
  split at full
  · exact absurd full nofun
  · have least : 1000 ≤ 1000 * e / (m * p.meltEnergy) := by
      have := Option.some.inj full
      omega
    have := (Nat.le_div_iff_mul_le (Nat.mul_pos mass melt)).1 least
    omega

theorem progressOf_full {p : Profile} {m e : Nat} (heavy : 100 ≤ m) (melt : 0 < p.meltEnergy)
    (full : m * p.meltEnergy ≤ e) : progressOf p m e = some 1000 := by
  have least : 1000 ≤ 1000 * e / (m * p.meltEnergy) :=
    (Nat.le_div_iff_mul_le (Nat.mul_pos (by omega) melt)).2 (Nat.mul_le_mul_left _ full)
  unfold progressOf meltEnergy
  rw [if_neg (by omega), Nat.min_eq_left least]

/-- Scaling keeps a full heat full (R91). -/
theorem Heat.rescale_progress {p : Profile} {h : Heat} {m : Nat} (mass : 0 < h.mass) (melt : 0 < p.meltEnergy)
    (heavy : 100 ≤ m) (full : progressOf p h.mass h.energy = some 1000) :
    ((h.rescale m).estimate p).progress = some 1000 := by
  refine progressOf_full heavy melt ((Nat.le_div_iff_mul_le mass).2 ?_)
  calc m * p.meltEnergy * h.mass = h.mass * p.meltEnergy * m := by ring
    _ ≤ h.energy * m := Nat.mul_le_mul_right _ (meltEnergy_le mass melt full)

/-! ### The phase test -/

/-- A heat that the phase test raises to SUPERHEAT or beyond (R59). -/
def Heat.rises (h : Heat) : Prop := h.phase = .superheat ∨ (h.phase = .melting ∧ h.progress = some 1000)

theorem Heat.phaseTest_kept {h : Heat} {now : Time} (kept : ¬h.rises) : h.phaseTest now = h := by
  obtain ⟨cool, solid⟩ := not_or.1 kept
  unfold Heat.phaseTest
  rw [if_neg solid, Heat.superheatTest_other cool]

theorem Heat.phaseTest_rises {h : Heat} {now : Time} (rises : h.rises) :
    h.phaseTest now = ({ h with phase := .superheat } : Heat).superheatTest now := by
  unfold Heat.phaseTest
  obtain warm | melted := rises
  · rw [if_neg (by simp [warm]), ← warm]
  · exact if_pos melted

theorem Heat.superheatTest_bands {h : Heat} {b : Bands} {now : Time} (phase : h.phase = .superheat)
    (bands : h.bands = some b) :
    (¬(∃ t, h.temp = some t ∧ b.holdLow ≤ t) → h.superheatTest now = h)
    ∧ ((∃ t, h.temp = some t ∧ b.holdLow ≤ t) →
      h.superheatTest now = { h with phase := .holding, holdStart := some now, holdTimer := .running }) := by
  unfold Heat.superheatTest
  rw [phase, bands]
  cases h.temp with
  | none => simp
  | some t =>
    refine ⟨fun cold => if_neg fun le => cold ⟨t, rfl, le⟩, ?_⟩
    rintro ⟨u, same, le⟩
    obtain rfl := Option.some.inj same
    exact if_pos le

/-! ### A delivery -/

/-- A heat after a POWER_ACTUAL delivery (R82, R83, R95). -/
def Heat.delivered (h : Heat) (p : Profile) (now : Time) (power : Int) (t n : Nat) : Heat :=
  if h.phase = .empty then h
  else ((({ h with uncertain := h.uncertain || decide (9 < n) } : Heat).integrate p power t
    (if 9 < n then 1 else n)).estimate p).phaseTest now

theorem State.integratePower_eq (s : State) (f : Furnace) (power : Int) (t n : Nat) : s.integratePower f power t n =
    { s with heats := s.heats.set f (s.heats[f].delivered (s.profile f) s.time power t n) } := by
  unfold State.integratePower Heat.delivered
  by_cases empty : s.heats[f].phase = .empty
  · have same : s.heats.set f s.heats[f] = s.heats := Vector.set_getElem_self f.isLt
    rw [if_pos empty, if_pos empty, same]
  · rw [if_neg empty, if_neg empty]
    rfl

theorem Heat.phaseTest_lockout (h : Heat) (now : Time) : (h.phaseTest now).lockout = h.lockout := by
  unfold Heat.phaseTest Heat.superheatTest
  split
  · split
    · split <;> rfl
    · rfl
  · split
    · split <;> rfl
    · rfl

theorem Heat.delivered_lockout (h : Heat) (p : Profile) (now : Time) (power : Int) (t n : Nat) :
    (h.delivered p now power t n).lockout = h.lockout := by
  unfold Heat.delivered
  split
  · rfl
  · rw [Heat.phaseTest_lockout]
    unfold Heat.integrate Heat.setTotal
    dsimp only [Heat.estimate]
    split_ifs <;> rfl

theorem follows_iff (actual issued tolerance : Nat) :
    follows actual issued tolerance = true ↔ ((actual : Int) - issued).natAbs ≤ tolerance := by
  simp only [follows, Bool.and_eq_true, decide_eq_true_iff]
  omega

/-- The follow timer of a furnace after an accepted actual power (R113, R115). -/
def State.followAfter (s : State) (f : Furnace) (v : Nat) : Timer :=
  if s.intake.stale.power[f] = true ∨ (s.profile f).rated = 0 ∨ s.heats[f].lockout = some .follow then s.power[f].follow
  else if ((v : Int) - s.power[f].issued).natAbs ≤ (s.profile f).tolerance then .idle
  else if s.power[f].follow = .idle then .running s.time
  else s.power[f].follow

theorem Timer.ensure_eq (t : Timer) (now : Time) : t.ensure now = if t = .idle then .running now else t := by
  cases t <;> rfl

theorem State.followSuspended_iff (s : State) (f : Furnace) : s.followSuspended f = true ↔
    s.intake.stale.power[f] = true ∨ (s.profile f).rated = 0 ∨ s.heats[f].lockout = some .follow := by
  simp [State.followSuspended, State.rated, or_assoc]

theorem State.actualPower_eq (s : State) (f : Furnace) (v : Nat) : s.actualPower f v =
    { s with power := s.power.set f { s.power[f] with actual := some v, follow := s.followAfter f v } } := by
  unfold State.actualPower State.followAfter
  simp only [State.followSuspended_iff, follows_iff, Timer.ensure_eq]
  rfl

/-- A delivery to a furnace: its account, A_f and the follow check (R82, R113). -/
theorem State.deliver_power {e : PointEntry} {f : Furnace} (kind : e.kind = some .powerActual)
    (owner : furnaceOf e.owner.toNat = some f) (s : State) (v : Int) (n : Nat) : s.deliver e v n = { s with
      heats := s.heats.set f (s.heats[f].delivered (s.profile f) s.time v e.interval n)
      power := s.power.set f { s.power[f] with actual := some v.toNat, follow := s.followAfter f v.toNat } } := by
  unfold State.deliver
  dsimp only
  rw [kind, owner]
  dsimp only
  rw [State.integratePower_eq, State.actualPower_eq]
  have same : State.followAfter { s with
      heats := s.heats.set f (s.heats[f].delivered (s.profile f) s.time v e.interval n) } f v.toNat =
      s.followAfter f v.toNat := by
    have lockout : (s.heats.set f (s.heats[f].delivered (s.profile f) s.time v e.interval n))[f].lockout =
        s.heats[f].lockout := by simp [Heat.delivered_lockout]
    unfold State.followAfter
    rw [lockout]
    rfl
  rw [same]

theorem State.skipItem_power {i : PointNo} {p : PointLive} {f : Furnace} (kind : (s.point i).kind = some .powerActual)
    (owner : furnaceOf (s.point i).owner.toNat = some f) (seq : Byte) : s.skipItem i p seq = { s with
      intake := (s.skipItem i p seq).intake
      heats := s.heats.set f
        (s.heats[f].delivered (s.profile f) s.time (p.value.getD 0) (s.point i).interval
          (p.elapsedIntervals seq)) } := by
  rw [State.skipItem_intake]
  unfold State.skipItem
  dsimp only
  rw [kind, owner]
  dsimp only
  rw [State.integratePower_eq, intervals_eq]
  rfl

/-- A skipped sample of a POWER_ACTUAL point: the event ends on the integration of the last value (R26, R83). -/
theorem SampleSkipped.ends {dt : Time} {bytes : List Byte} {fr : Frame} {i : PointNo} {p : PointLive} {f : Furnace}
    (h : SampleSkipped s bytes fr i p) (kind : (s.point i).kind = some .powerActual)
    (owner : furnaceOf (s.point i).owner.toNat = some f) : ∃ t, exec (.frameArrival dt bytes) s = .next t
      ∧ EventEnd s { s.sampled dt fr t.intake with
        heats := s.heats.set f (s.heats[f].delivered (s.profile f) (s.time + dt) (p.value.getD 0) (s.point i).interval
          (p.elapsedIntervals fr.seq)) } t := by
  obtain ⟨st, raw, taken, skipped⟩ := h
  obtain ⟨ch, arrival⟩ := taken.exec (dt := dt)
  rw [State.matchedItem_skipped (s := (s.marked dt bytes).forward fr) taken.live taken.seq skipped] at arrival
  have integrated := State.skipItem_power (s := (s.marked dt bytes).forward fr) (p := p) kind owner fr.seq
  have ended := ((s.marked dt bytes).forward fr).settle_end (((s.marked dt bytes).forward fr).skipItem i p fr.seq)
    Causes.none
  have received := EventEnd.received (s := s) (r := Receiver.empty) ended
  generalize ((s.marked dt bytes).forward fr).skipItem i p fr.seq = u at *
  have changed : u.withReceiver Receiver.empty = { s.sampled dt fr u.intake with
      heats := s.heats.set f (s.heats[f].delivered (s.profile f) (s.time + dt) (p.value.getD 0) (s.point i).interval
        (p.elapsedIntervals fr.seq)) } := by
    rw [← s.handing_withReceiver dt bytes fr u.intake]
    exact congrArg (State.withReceiver · _) integrated
  refine ⟨_, arrival, ?_⟩
  rw [changed, ← ended.intake] at received
  exact received

theorem PointEntry.permitFurnaces_power {e : PointEntry} {f : Furnace} (kind : e.kind = some .powerActual)
    (owner : furnaceOf e.owner.toNat = some f) : e.causes = Causes.testing [f] := by
  unfold PointEntry.causes PointEntry.permitFurnaces
  rw [kind, owner]
  rfl

/-- Settles O34: the account's arithmetic, the phase test, and the events of an accepted and of a skipped value. -/
theorem accountIntegratesExactly : Obligations.AccountIntegratesExactly := by
  unfold Obligations.AccountIntegratesExactly
  refine ⟨fun p h power t n => ?_, fun p h m mass melt heavy full => Heat.rescale_progress mass melt heavy full,
    fun h b now bands => ?_⟩
  · obtain ⟨residue, rest, total⟩ :=
      h.setTotal_spec ((h.energy * 1000 + h.residue : Nat) + (power - p.loss) * t * n)
    exact ⟨⟨residue, rest⟩, total⟩
  refine ⟨Heat.phaseTest_kept, fun rises cold => ?_, fun rises warm => ?_,
    fun dt bytes fr i l f s kind owner => ⟨fun v accepted => ?_, fun skipped => skipped.ends kind owner⟩⟩
  · rw [Heat.phaseTest_rises rises]
    exact (Heat.superheatTest_bands (h := { h with phase := .superheat }) rfl bands).1 cold
  · rw [Heat.phaseTest_rises rises]
    exact (Heat.superheatTest_bands (h := { h with phase := .superheat }) rfl bands).2 warm
  · rw [← PointEntry.permitFurnaces_power kind owner]
    exact accepted.ends kind rfl
      (fun u => { u with
        heats := u.heats.set f
          (u.heats[f].delivered (u.profile f) u.time v (s.point i).interval (l.elapsedIntervals fr.seq))
        power := u.power.set f { u.power[f] with actual := some v.toNat, follow := u.followAfter f v.toNat } })
      (fun _ => rfl) fun x _ => State.deliver_power kind owner (s.handing dt bytes fr x) v _

end Sys2Proof.Machine
end

section
/-! O58. Charges (R62 to R65): each branch of a charge as one change of the state. -/

namespace Sys2Proof.Machine

variable {s : State} {f : Furnace} {m : Nat}

/-- A heat that a first charge opens, before its estimate (R62, R95). -/
def Heat.opened (h : Heat) (p : Profile) (m : Nat) (stale : Bool) : Heat := { h with
  id := some (h.id.getD 0)
  bands := if h.id = none then
      some { holdLow := p.holdLow, holdHigh := p.holdHigh, tapLow := p.tapLow, tapHigh := p.tapHigh }
    else h.bands
  mass := min p.capacity m, phase := .melting, uncertain := h.uncertain || stale }

/-- A heat that a first charge opens (R62, R59). -/
def Heat.started (h : Heat) (p : Profile) (m : Nat) (stale : Bool) (now : Time) : Heat :=
  ((h.opened p m stale).estimate p).phaseTest now

/-- The estimate of a heat that a further charge feeds (R63). -/
def Heat.fed (h : Heat) (p : Profile) (m : Nat) : Heat :=
  ({ h with
    mass := min p.capacity (h.mass + m), dip := none, anchor := none, approval := none, holdStart := none
    holdTimer := .idle } : Heat).estimate p

/-- The phase that a further charge gives a fed heat (R63, R59). -/
def Heat.rephased (h : Heat) (now : Time) : Heat :=
  ({ h with phase := if h.progress = some 1000 then .superheat else .melting } : Heat).phaseTest now

/-- OVERCHARGE for a total above the capacity (R64). -/
def State.capped (u : State) (f : Furnace) (capacity total : Nat) : State :=
  if capacity < total then u.raise .overcharge (numberOf f) else u

theorem State.capped_withReceiver (u : State) (f : Furnace) (capacity total : Nat) (r : Receiver) :
    (u.capped f capacity total).withReceiver r = (u.withReceiver r).capped f capacity total := by
  unfold State.capped
  split
  · exact State.raise_withReceiver u r _ _
  · rfl

theorem State.charge_unrated (some : m ≠ 0) (unrated : (s.profile f).rated = 0) :
    s.charge f m = s.raise .chargeRefused (numberOf f) := by
  unfold State.charge State.rated
  rw [if_neg some, unrated]
  rfl

theorem State.charge_rated (some : m ≠ 0) (rated : 0 < (s.profile f).rated) : s.charge f m =
    match s.heats[f].phase with
    | .empty => s.firstCharge f m
    | .melting | .superheat | .holding => s.furtherCharge f m
    | .tapAssigned | .tapping => s.raise .chargeRefused (numberOf f) := by
  unfold State.charge State.rated
  rw [if_neg some, if_neg (by simp; omega)] <;> rfl

theorem State.charge_tap (some : m ≠ 0) (rated : 0 < (s.profile f).rated)
    (tap : s.heats[f].phase = .tapAssigned ∨ s.heats[f].phase = .tapping) :
    s.charge f m = s.raise .chargeRefused (numberOf f) := by
  rw [State.charge_rated some rated]
  obtain phase | phase := tap <;> rw [phase]

/-- A heat that is not open takes id 0 and the default bands before its first charge (R62). -/
theorem Heat.opened_eq (h : Heat) (p : Profile) (m : Nat) (stale : Bool) :
    let o := if h.id.isSome then h else { h with id := some 0, bands := some p.bands }
    ({ o with mass := min p.capacity m, phase := .melting, uncertain := o.uncertain || stale } : Heat) =
      h.opened p m stale := by
  obtain ⟨id, _⟩ := h
  cases id <;> rfl

theorem State.charge_empty (some : m ≠ 0) (rated : 0 < (s.profile f).rated) (empty : s.heats[f].phase = .empty) :
    s.charge f m = State.capped { s with
      heats := s.heats.set f (s.heats[f].started (s.profile f) m s.intake.stale.power[f] s.time) }
      f (s.profile f).capacity m := by
  rw [State.charge_rated some rated, empty]
  unfold State.firstCharge State.overcharge chargedMass Heat.started
  rw [← Heat.opened_eq, Nat.zero_add]
  rfl

theorem State.charge_further (some : m ≠ 0) (rated : 0 < (s.profile f).rated)
    (metal : s.heats[f].phase = .melting ∨ s.heats[f].phase = .superheat ∨ s.heats[f].phase = .holding) :
    s.charge f m = State.capped { s with
      heats := s.heats.set f ((s.heats[f].fed (s.profile f) m).rephased s.time)
      taps := { s.taps with dipAge := s.taps.dipAge.set f .idle } } f (s.profile f).capacity (s.heats[f].mass + m) := by
  rw [State.charge_rated some rated]
  obtain phase | phase | phase := metal <;> rw [phase] <;> rfl

/-- An account without energy gives a first charge no progress above 0 and no temperature (R85, R86). -/
theorem Heat.opened_cold {h : Heat} (p : Profile) (m : Nat) (stale : Bool) (now : Time) (cold : h.energy = 0) :
    let first := h.started p m stale now
    first.phase = .melting ∧ first.temp = none
      ∧ first.progress = if min p.capacity m < 100 then none else some 0 := by
  have progress : ((h.opened p m stale).estimate p).progress = if min p.capacity m < 100 then none else some 0 := by
    show progressOf p (min p.capacity m) h.energy = _
    unfold progressOf
    rw [cold]
    simp
  have unmelted : ((h.opened p m stale).estimate p).progress ≠ some 1000 := by
    rw [progress]
    split <;> simp
  have kept : h.started p m stale now = (h.opened p m stale).estimate p := by
    refine Heat.phaseTest_kept ?_
    rintro (warm | ⟨_, melted⟩)
    · exact absurd warm nofun
    · exact unmelted melted
  dsimp only
  rw [kept]
  exact ⟨rfl, if_neg unmelted, progress⟩

theorem PointEntry.causes_charge {e : PointEntry} (kind : e.kind = some .chargeMass) : e.causes = Causes.none := by
  unfold PointEntry.causes PointEntry.permitFurnaces
  rw [kind]
  rfl

theorem State.deliver_charge {e : PointEntry} (kind : e.kind = some .chargeMass)
    (owner : furnaceOf e.owner.toNat = some f)
    (s : State) (v : Int) (n : Nat) : s.deliver e v n = s.charge f v.toNat := by
  unfold State.deliver
  rw [kind, owner]

/-- Settles O58: the event of an accepted charge ends on the one branch of the charge that its furnace takes. -/
theorem chargesAreTakenOrRefused : Obligations.ChargesAreTakenOrRefused := by
  unfold Obligations.ChargesAreTakenOrRefused
  intro dt bytes fr i l v f s accepted kind owner
  have noKey : (s.point i).staleKey = none := by
    unfold PointEntry.staleKey
    rw [kind]
    rfl
  have ends (change : State → State)
      (free : ∀ u : State, (change u).withReceiver Receiver.empty = change (u.withReceiver Receiver.empty))
      (acts : ∀ x : Intake, x.stale.power[f] = s.intake.stale.power[f] →
        (s.handing dt bytes fr x).charge f v.toNat = change (s.handing dt bytes fr x)) :
      ∃ t, exec (.frameArrival dt bytes) s = .next t ∧ EventEnd s (change (s.sampled dt fr t.intake)) t := by
    have ended := accepted.ends (dt := dt) kind rfl change free fun x stale => by
      refine (State.deliver_charge kind owner _ v _).trans (acts x ?_)
      have power := stale (.power f)
      rw [noKey] at power
      simpa [StaleInd.get] using power
    rwa [PointEntry.causes_charge kind] at ended
  have refused (u : State) := State.raise_withReceiver u Receiver.empty .chargeRefused (numberOf f)
  refine ⟨fun none => ?_, fun some unrated => ?_, fun some rated tap => ?_,
    fun some rated empty => ⟨?_, fun cold => ?_⟩, fun some rated metal => ?_⟩
  · exact ends id (fun _ => rfl) fun x _ => if_pos none
  · exact ends _ refused fun x _ => State.charge_unrated some unrated
  · exact ends _ refused fun x _ => State.charge_tap some rated tap
  · refine ends (fun u => State.capped { u with
      heats := u.heats.set f (s.heats[f].started (s.profile f) v.toNat s.intake.stale.power[f] (s.time + dt)) }
      f (s.profile f).capacity v.toNat)
      (fun u => State.capped_withReceiver _ _ _ _ _) fun x stale => ?_
    have taken := State.charge_empty (s := s.handing dt bytes fr x) some rated empty
    rw [show (s.handing dt bytes fr x).intake.stale.power[f] = s.intake.stale.power[f] from stale] at taken
    exact taken
  · exact Heat.opened_cold _ _ _ _ cold
  · exact ends (fun u => State.capped { u with
      heats := u.heats.set f ((s.heats[f].fed (s.profile f) v.toNat).rephased (s.time + dt))
      taps := { u.taps with dipAge := u.taps.dipAge.set f .idle } }
      f (s.profile f).capacity (s.heats[f].mass + v.toNat))
      (fun u => State.capped_withReceiver _ _ _ _ _) fun x _ => State.charge_further some rated metal

end Sys2Proof.Machine
end

section
/-! O59. Tilt and ladle values (R163 to R165, R168): each branch of a value as one change of the state. -/

namespace Sys2Proof.Machine

variable {s : State} {f : Furnace} {r : Pour} {v : Nat}

/-! ### The completion test and the interrupted pour -/

theorem State.completionTest_home (station : s.taps.station = .returning) (pour : s.taps.pour = some r)
    (home : s.isHome r.furnace) : s.completionTest = s.afterPour r := by
  unfold State.completionTest
  rw [station, pour]
  exact (if_pos ((State.isHome_iff _ _).1 home)).trans (State.completePour_eq _ _)

theorem State.completionTest_away (station : s.taps.station = .returning) (pour : s.taps.pour = some r)
    (away : ¬s.isHome r.furnace) : s.completionTest = s := by
  unfold State.completionTest
  rw [station, pour]
  exact if_neg fun home => away ((State.isHome_iff _ _).2 home)

/-- A pour interrupted away from home: the return begins, and TAP_ABORT is raised (R168). -/
theorem State.interruptPour_away (away : ¬s.isHome r.furnace) : s.interruptPour r true =
    (s.returning { r with abort := true }).raise .tapAbort (numberOf r.furnace) := by
  have returned : (s.withTaps { s.taps with pour := some { r with abort := true } }).startReturn r =
      s.returning { r with abort := true } := rfl
  unfold State.interruptPour
  dsimp only
  rw [returned]
  exact State.completionTest_away (r := { r with abort := true }) rfl rfl away

/-! ### Tilt values -/

/-- The latest tilt angle of a furnace is kept. -/
def State.seenTilt (u : State) (f : Furnace) (v : Nat) : State :=
  { u with taps := { u.taps with tilt := u.taps.tilt.set f (some v) } }

theorem State.withTaps_tilt (u : State) (f : Furnace) (v : Nat) :
    u.withTaps { u.taps with tilt := u.taps.tilt.set f (some v) } = u.seenTilt f v := rfl

theorem State.seenTilt_station (u : State) (f : Furnace) (v : Nat) :
    (u.seenTilt f v).taps.station = u.taps.station := rfl

theorem State.seenTilt_pour (u : State) (f : Furnace) (v : Nat) : (u.seenTilt f v).taps.pour = u.taps.pour := rfl

theorem State.seenTilt_isHome (u : State) (f : Furnace) (v : Nat) : (u.seenTilt f v).isHome f ↔
    v ≤ u.mgmt.params.tiltHome ∧ u.contacts.ind.tiltHome[f] = true := by
  have angle : (u.taps.tilt.set f (some v))[f] = some v := Vector.getElem_set_self _
  show (∃ a, (u.taps.tilt.set f (some v))[f] = some a ∧ a ≤ _) ∧ _ ↔ _
  simp only [angle, Option.some.injEq, exists_eq_left']
  exact Iff.rfl

theorem State.tiltValue_permitted (station : s.taps.station = .permitted) (pour : s.taps.pour = some r) :
    s.tiltValue f v = if r.furnace = f ∧ s.mgmt.params.tiltHome < v then (s.seenTilt f v).startPour r
      else s.seenTilt f v := by
  unfold State.tiltValue
  dsimp only
  rw [State.withTaps_tilt, State.seenTilt_station, station, State.seenTilt_pour, pour]
  rfl

theorem State.tiltValue_pouring (station : s.taps.station = .pouring) (pour : s.taps.pour = some r) :
    s.tiltValue f v = if r.furnace = f ∧ v ≤ s.mgmt.params.tiltHome then (s.seenTilt f v).endPour r
      else s.seenTilt f v := by
  unfold State.tiltValue
  dsimp only
  rw [State.withTaps_tilt, State.seenTilt_station, station, State.seenTilt_pour, pour]
  rfl

theorem State.tiltValue_returning (station : s.taps.station = .returning) (pour : s.taps.pour = some r) :
    s.tiltValue f v = if r.furnace = f then (s.seenTilt f v).completionTest else s.seenTilt f v := by
  unfold State.tiltValue
  dsimp only
  rw [State.withTaps_tilt, State.seenTilt_station, station, State.seenTilt_pour, pour]

/-- A value of a furnace that is not at the station, or waits there for its permit, is only kept. -/
theorem State.tiltValue_idle (idle : s.taps.pour = none ∨ (∃ r, s.taps.pour = some r ∧ r.furnace ≠ f)
    ∨ s.taps.station = .assigned) : s.tiltValue f v = s.seenTilt f v := by
  unfold State.tiltValue
  dsimp only
  rw [State.withTaps_tilt, State.seenTilt_station, State.seenTilt_pour]
  obtain none | ⟨r, pour, other⟩ | station := idle
  · rw [none]
    cases s.taps.station <;> rfl
  · rw [pour]
    cases s.taps.station with
    | permitted => exact if_neg fun own => other own.1
    | pouring => exact if_neg fun own => other own.1
    | returning => exact if_neg other
    | _ => rfl
  · rw [station]

/-- A pour has started: the heat is TAPPING and the tilt-start timer stops (R163). -/
def State.tappingOf (u : State) (f : Furnace) : State := { u with
  heats := u.heats.set f { u.heats[f] with phase := .tapping }
  taps := { u.taps with tiltStart := .idle } }

theorem State.startPour_fresh (fresh : s.intake.stale.ladle = false) : s.startPour r =
    { s.tappingOf r.furnace with taps := { (s.tappingOf r.furnace).taps with
      station := .pouring, pourTimer := .running s.time (s.mgmt.params.pourTimeout * 1000) } } := by
  unfold State.startPour
  exact if_neg (by simp [fresh])

theorem State.startPour_stale (stale : s.intake.stale.ladle = true) (away : ¬s.isHome r.furnace) : s.startPour r =
    ((s.tappingOf r.furnace).returning { r with abort := true }).raise .tapAbort (numberOf r.furnace) := by
  unfold State.startPour
  exact (if_pos stale).trans (State.interruptPour_away (by exact away))

/-! ### Ladle values -/

/-- The latest ladle mass is kept. -/
def State.seenLadle (u : State) (v : Nat) : State := { u with taps := { u.taps with ladle := some v } }

theorem State.withTaps_ladle (u : State) (v : Nat) : u.withTaps { u.taps with ladle := some v } = u.seenLadle v := rfl

theorem State.seenLadle_station (u : State) (v : Nat) : (u.seenLadle v).taps.station = u.taps.station := rfl

theorem State.seenLadle_pour (u : State) (v : Nat) : (u.seenLadle v).taps.pour = u.taps.pour := rfl

/-- The record with the poured mass that a ladle value gives it (R164). -/
def Pour.weighed (r : Pour) (v : Nat) : Pour := { r with poured := v - r.tare.getD 0 }

/-- The poured mass is kept in the record. -/
def State.countedPour (u : State) (r : Pour) (v : Nat) : State :=
  { u.seenLadle v with taps := { (u.seenLadle v).taps with pour := some (r.weighed v) } }

theorem State.ladleValue_idle (idle : s.taps.station = .idle ∨ s.taps.station = .assigned
    ∨ s.taps.station = .permitted) : s.ladleValue v = s.seenLadle v := by
  unfold State.ladleValue
  dsimp only
  rw [State.withTaps_ladle, State.seenLadle_station, State.seenLadle_pour]
  obtain station | station | station := idle <;> rw [station]

theorem State.ladleValue_returning (station : s.taps.station = .returning) (pour : s.taps.pour = some r) :
    s.ladleValue v = s.countedPour r v := by
  unfold State.ladleValue
  dsimp only
  split
  next poured _ => exact absurd (station.symm.trans poured) nofun
  next r' _ record =>
    obtain rfl := Option.some.inj (pour.symm.trans record)
    rfl
  next _ none => exact absurd pour (none r station)

theorem State.ladleValue_pouring (station : s.taps.station = .pouring) (pour : s.taps.pour = some r) :
    s.ladleValue v = if r.demand.mass - s.mgmt.params.pourLead ≤ (r.weighed v).poured then
      (s.countedPour r v).endPour (r.weighed v) else s.countedPour r v := by
  unfold State.ladleValue
  dsimp only
  split
  next r' _ record =>
    obtain rfl := Option.some.inj (pour.symm.trans record)
    rfl
  next returned _ => exact absurd (station.symm.trans returned) nofun
  next none _ => exact absurd pour (none r station)

/-! ### The events -/

theorem State.deliver_tilt {e : PointEntry} (kind : e.kind = some .tiltAngle) (owner : furnaceOf e.owner.toNat = some f)
    (s : State) (v : Int) (n : Nat) : s.deliver e v n = s.tiltValue f v.toNat := by
  unfold State.deliver
  rw [kind, owner]

theorem State.deliver_ladle {e : PointEntry} (kind : e.kind = some .ladleMass) (s : State) (v : Int) (n : Nat) :
    s.deliver e v n = s.ladleValue v.toNat := by
  unfold State.deliver
  rw [kind]

theorem PointEntry.causes_tilt {e : PointEntry} (kind : e.kind = some .tiltAngle)
    (owner : furnaceOf e.owner.toNat = some f) : e.causes = Causes.testing [f] := by
  unfold PointEntry.causes PointEntry.permitFurnaces
  rw [kind, owner]
  rfl

theorem PointEntry.causes_ladle {e : PointEntry} (kind : e.kind = some .ladleMass) :
    e.causes = Causes.testing furnaces := by
  unfold PointEntry.causes PointEntry.permitFurnaces
  rw [kind]

/-- Settles O59: the event of an accepted value ends on the one branch of it that the station takes. -/
theorem poursFollowTiltAndLadle : Obligations.PoursFollowTiltAndLadle := by
  unfold Obligations.PoursFollowTiltAndLadle
  intro dt bytes fr i l v s accepted
  have back (u : State) (r : Pour) := State.returning_withReceiver u Receiver.empty r
  have done (u : State) (r : Pour) : ((u.returning r).afterPour r).withReceiver Receiver.empty =
      ((u.withReceiver Receiver.empty).returning r).afterPour r := by
    rw [State.afterPour_withReceiver, back]
  refine ⟨fun f kind owner => ?_, fun kind => ?_⟩
  · have ends (change : State → State)
        (free : ∀ u : State, (change u).withReceiver Receiver.empty = change (u.withReceiver Receiver.empty))
        (acts : ∀ x : Intake, x.stale.ladle = s.intake.stale.ladle →
          (s.handing dt bytes fr x).tiltValue f v.toNat = change (s.handing dt bytes fr x)) :
        ∃ t, exec (.frameArrival dt bytes) s = .next t
          ∧ EventEnd s (change (s.sampled dt fr t.intake)) t (Causes.testing [f]) := by
      have own : (s.point i).staleKey = some (.tilt f) := by
        unfold PointEntry.staleKey
        rw [kind, owner]
        rfl
      rw [← PointEntry.causes_tilt kind owner]
      refine accepted.ends kind rfl change free fun x stale => (State.deliver_tilt kind owner _ v _).trans (acts x ?_)
      have ladle := stale .ladle
      rw [own] at ladle
      simpa [StaleInd.get] using ladle
    refine ⟨fun idle => ends (State.seenTilt · f v.toNat) (fun _ => rfl) fun x _ =>
      State.tiltValue_idle (by exact idle), fun r pour own => ?_⟩
    subst own
    have permitted (x : Intake) (here : s.taps.station = .permitted) := State.tiltValue_permitted
      (s := s.handing dt bytes fr x) (f := r.furnace) (v := v.toNat) here pour
    have pouring (x : Intake) (here : s.taps.station = .pouring) := State.tiltValue_pouring
      (s := s.handing dt bytes fr x) (f := r.furnace) (v := v.toNat) here pour
    have returning (x : Intake) (here : s.taps.station = .returning) := State.tiltValue_returning
      (s := s.handing dt bytes fr x) (f := r.furnace) (v := v.toNat) here pour
    have atHome (x : Intake) : ((s.handing dt bytes fr x).seenTilt r.furnace v.toNat).isHome r.furnace ↔
        v.toNat ≤ s.mgmt.params.tiltHome ∧ s.contacts.ind.tiltHome[r.furnace] = true := State.seenTilt_isHome _ _ _
    refine ⟨fun station home => ?_, fun station away fresh => ?_, fun station away stale => ?_, fun station away => ?_,
      fun station home off => ?_, fun station home on => ?_, fun station home off => ?_, fun station home on => ?_⟩
    · exact ends (State.seenTilt · r.furnace v.toNat) (fun _ => rfl) fun x _ => (permitted x station).trans
        (if_neg fun tilted => absurd home (Nat.not_le.2 tilted.2))
    · refine ends (fun u => let w := (u.seenTilt r.furnace v.toNat).tappingOf r.furnace
          { w with taps := { w.taps with
            station := .pouring, pourTimer := .running (s.time + dt) (s.mgmt.params.pourTimeout * 1000) } })
        (fun _ => rfl) fun x ladle => (permitted x station).trans
        ((if_pos ⟨rfl, Nat.not_le.1 away⟩).trans (State.startPour_fresh (by exact ladle.trans fresh)))
    · refine ends (fun u => (((u.seenTilt r.furnace v.toNat).tappingOf r.furnace).returning
        { r with abort := true }).raise .tapAbort (numberOf r.furnace)) (fun u => ?_) fun x ladle =>
        (permitted x station).trans ((if_pos ⟨rfl, Nat.not_le.1 away⟩).trans
          (State.startPour_stale (by exact ladle.trans stale) fun home => away ((atHome x).1 home).1))
      rw [State.raise_withReceiver, back]
      rfl
    · refine ends (State.seenTilt · r.furnace v.toNat) (fun _ => rfl) fun x _ => ?_
      obtain station | station := station
      · exact (pouring x station).trans (if_neg fun home => away home.2)
      · exact ((returning x station).trans (if_pos rfl)).trans
          (State.completionTest_away (by exact station) (by exact pour) fun home =>
            away ((atHome x).1 home).1)
    · refine ends (fun u => (u.seenTilt r.furnace v.toNat).returning r) (fun _ => back _ _) fun x _ =>
        ((pouring x station).trans (if_pos ⟨rfl, home⟩)).trans
          ((State.endPour_cases (by exact pour)).1 fun returned => ?_)
      exact absurd (off.symm.trans ((atHome x).1 returned).2) nofun
    · exact ends (fun u => ((u.seenTilt r.furnace v.toNat).returning r).afterPour r) (fun _ => done _ _) fun x _ =>
        ((pouring x station).trans (if_pos ⟨rfl, home⟩)).trans
          ((State.endPour_cases (by exact pour)).2 ((atHome x).2 ⟨home, on⟩))
    · refine ends (State.seenTilt · r.furnace v.toNat) (fun _ => rfl) fun x _ =>
        ((returning x station).trans (if_pos rfl)).trans
          (State.completionTest_away (by exact station) (by exact pour) fun returned => ?_)
      exact absurd (off.symm.trans ((atHome x).1 returned).2) nofun
    · exact ends (fun u => (u.seenTilt r.furnace v.toNat).afterPour r)
        (fun u => State.afterPour_withReceiver _ _ _) fun x _ =>
        ((returning x station).trans (if_pos rfl)).trans
          (State.completionTest_home (by exact station) (by exact pour) ((atHome x).2 ⟨home, on⟩))
  · have ends (change : State → State)
        (free : ∀ u : State, (change u).withReceiver Receiver.empty = change (u.withReceiver Receiver.empty))
        (acts : ∀ x : Intake, (s.handing dt bytes fr x).ladleValue v.toNat = change (s.handing dt bytes fr x)) :
        ∃ t, exec (.frameArrival dt bytes) s = .next t
          ∧ EventEnd s (change (s.sampled dt fr t.intake)) t (Causes.testing furnaces) := by
      rw [← PointEntry.causes_ladle kind]
      exact accepted.ends kind rfl change free fun x _ => (State.deliver_ladle kind _ v _).trans (acts x)
    refine ⟨fun idle => ends (State.seenLadle · v.toNat) (fun _ => rfl) fun x =>
      State.ladleValue_idle (by exact idle), fun r pour => ?_⟩
    have pouring (x : Intake) (here : s.taps.station = .pouring) := State.ladleValue_pouring
      (s := s.handing dt bytes fr x) (v := v.toNat) here pour
    refine ⟨fun station => ?_, fun station below => ?_, fun station reached away => ?_, fun station reached home => ?_⟩
    · exact ends (State.countedPour · r v.toNat) (fun _ => rfl) fun x =>
        State.ladleValue_returning (s := s.handing dt bytes fr x) station pour
    · exact ends (State.countedPour · r v.toNat) (fun _ => rfl) fun x => (pouring x station).trans
        (if_neg (Nat.not_le.2 below))
    · exact ends (fun u => (u.seenLadle v.toNat).returning (r.weighed v.toNat)) (fun _ => back _ _) fun x =>
        ((pouring x station).trans (if_pos reached)).trans
          ((State.endPour_cases (r := r.weighed v.toNat) rfl).1 (by exact away))
    · exact ends (fun u => ((u.seenLadle v.toNat).returning (r.weighed v.toNat)).afterPour (r.weighed v.toNat))
        (fun _ => done _ _) fun x =>
        ((pouring x station).trans (if_pos reached)).trans
          ((State.endPour_cases (r := r.weighed v.toNat) rfl).2 (by exact home))

end Sys2Proof.Machine
end

section
/-! O23. A stale expiry (R30, R31, R95, R115), and what the end of an event leaves of one heat and one follow timer. -/

namespace Sys2Proof.Machine

variable {s u t : State} {x : Causes}

/-! ### The end of an event -/

/-- The end of an event moves of a heat its phase alone, at a match (R161). -/
theorem EventEnd.heat (h : EventEnd s u t x) (f : Furnace) :
    t.heats[f] = u.heats[f] ∨ t.heats[f] = { u.heats[f] with phase := .tapAssigned } := by
  obtain ⟨m, g, _, _, ends⟩ := h.tap
  rw [ends.heats]
  cases m with
  | none => exact .inl rfl
  | some p =>
    obtain ⟨d, k⟩ := p
    by_cases same : k = f
    · subst same
      exact .inr (Vector.getElem_set_self _)
    · exact .inl (Vector.getElem_set_ne k.isLt f.isLt (Fin.val_ne_of_ne same))

/-- The end of an event starts no follow timer (R113). -/
theorem EventEnd.follow_idle (h : EventEnd s u t x) {f : Furnace} (idle : u.power[f].follow = .idle) :
    t.power[f].follow = .idle := by
  by_cases same : s.allocInputs = t.allocInputs
  · rw [h.kept same, idle]
  · rw [h.remade same f]
    dsimp only
    rw [idle]
    split <;> rfl

/-! ### A notice -/

theorem Heat.phaseTest_uncertain (h : Heat) (now : Time) : (h.phaseTest now).uncertain = h.uncertain := by
  by_cases rises : h.rises
  · rw [Heat.phaseTest_rises rises]
    unfold Heat.superheatTest
    split
    · split <;> rfl
    · rfl
  · rw [Heat.phaseTest_kept rises]

/-- A stale notice marks a live heat uncertain (R95). -/
theorem State.markUncertain_uncertain (s : State) (f : Furnace) (metal : s.heats[f].phase ≠ .empty) :
    (s.markUncertain f).heats[f].uncertain = true := by
  unfold State.markUncertain State.updateHeat
  rw [if_neg metal, State.setHeat_same, Heat.phaseTest_uncertain]
  rfl

theorem State.suspendFollow_idle {f : Furnace} (stale : s.intake.stale.power[f] = true) :
    (s.suspendFollow f).power[f].follow = .idle := by
  unfold State.suspendFollow
  rw [if_pos ((State.followSuspended_iff s f).2 (.inl stale)), State.setPower_same]

/-- Turning a point's indication on turns on that indication alone. -/
theorem State.turnPointStale_on (s : State) (i : PointNo) (key : StaleKey) :
    (s.turnPointStale i true).intake.stale.get key =
      (s.intake.stale.get key || decide ((s.point i).staleKey = some key)) := by
  unfold State.turnPointStale
  cases own : (s.point i).staleKey with
  | none => simp
  | some k =>
    unfold State.turnStale
    dsimp only
    split
    next on =>
      by_cases same : k = key
      · rw [← same, on]; rfl
      · simp [same]
    next =>
      by_cases same : k = key
      · simp [State.withStale, StaleInd.get_set, same]
      · simp [State.withStale, StaleInd.get_set, same, Ne.symm same]

/-- A furnace's power indication turns on: the check is suspended, and a live heat is uncertain (R95, R115). -/
theorem State.turnPointStale_power {i : PointNo} {f : Furnace} (own : (s.point i).staleKey = some (.power f))
    (off : s.intake.stale.power[f] = false) : (s.turnPointStale i true).power[f].follow = .idle
      ∧ (s.heats[f].phase ≠ .empty → (s.turnPointStale i true).heats[f].uncertain = true) := by
  have turned : s.turnPointStale i true =
      ((s.withStale (s.intake.stale.set (.power f) true)).markUncertain f).suspendFollow f := by
    unfold State.turnPointStale State.turnStale
    rw [own]
    exact if_neg (by rw [StaleInd.get, off]; exact nofun)
  rw [turned]
  refine ⟨State.suspendFollow_idle ?_, fun metal => ?_⟩
  · simp [StaleInd.set]
  · simp only [State.suspendFollow_frame]
    exact State.markUncertain_uncertain _ f metal

/-! ### The expiry -/

theorem State.staleDue_iff (s : State) (i : PointNo) : s.staleDue i = true ↔
    ∃ p, s.intake.live[i] = some p ∧ (s.point i).used = true ∧ (s.point i).limit ≠ 0 ∧ p.stale = false
      ∧ (s.point i).limit ≤ (s.time - p.staleRef).toNat := by
  unfold State.staleDue reached age
  cases s.intake.live[i] <;> simp [and_assoc]

theorem State.flagStale_eq {i : PointNo} {p : PointLive} (live : s.intake.live[i] = some p) :
    s.flagStale i = (s.setLive i (some { p with stale := true })).raise .stale i.val := by
  unfold State.flagStale
  rw [live]

theorem exec_staleTimerExpiry {dt : Time} {i : PointNo} (pin : s.pinLow = false) : exec (.staleTimerExpiry dt i) s =
    .next ((s.advance dt).expire ((s.advance dt).staleDue i) fun u => u.staleExpire i) := by
  show Host.Outcome.next (s.event dt _) = _
  rw [s.event_high pin]

/-- Settles O23: the flag, the raise and the indication of the expiry, which the end of its event keeps. -/
theorem staleExpiryMarksThePoint : Obligations.StaleExpiryMarksThePoint := by
  unfold Obligations.StaleExpiryMarksThePoint
  intro dt i s pin
  have expiry := exec_staleTimerExpiry (dt := dt) (i := i) pin
  refine ⟨fun p live used limited fresh late => ?_, fun early => ?_⟩
  · have due : (s.advance dt).staleDue i = true :=
      (State.staleDue_iff _ i).2 ⟨p, live, used, limited, fresh, late⟩
    have flagged := State.flagStale_eq (s := s.advance dt) live
    have ended := (s.advance dt).settle_end ((s.advance dt).staleExpire i) Causes.none
    rw [State.expire, if_pos due] at expiry
    generalize (s.advance dt).settle ((s.advance dt).staleExpire i) Causes.none = t at expiry ended
    unfold State.staleExpire at ended
    rw [flagged] at ended
    generalize q_eq : ((s.advance dt).setLive i (some { p with stale := true })).raise .stale i.val = q at ended
    have kept : q.tables = s.tables
        ∧ q.intake = { s.intake with live := s.intake.live.set i (some { p with stale := true }) }
        ∧ q.heats = s.heats := by
      rw [← q_eq]
      exact ⟨rfl, rfl, rfl⟩
    obtain ⟨tables, intake, heats⟩ := kept
    have point : q.point i = s.point i := by unfold State.point; rw [tables]
    have live' : t.intake.live = s.intake.live.set i (some { p with stale := true }) := by
      simp only [ended.intake, State.turnPointStale_frame, intake]
    have stale (key : StaleKey) : t.intake.stale.get key =
        (s.intake.stale.get key || decide ((s.point i).staleKey = some key)) := by
      rw [ended.intake, State.turnPointStale_on, intake, point]
    refine ⟨t, expiry, ?_, fun j other => ?_, ?_, ?_, ?_, fun key own => ?_, fun key other => ?_, fun f own off => ?_⟩
    · rw [live']
      exact Vector.getElem_set_self _
    · rw [live']
      exact Vector.getElem_set_ne _ _ (Ne.symm (Fin.val_ne_of_ne other))
    · have raised := (State.turnPointStale_raised (i := i) (on := true) (Raised.refl q.mgmt.latched)).pair .stale i.val
      rw [State.isLatched_iff, ended.mgmt]
      refine raised ?_
      rw [← q_eq, ← State.isLatched_iff]
      exact State.isLatched_raise _ _ _
    · rw [ended.tables, ← tables]
      simp
    · rw [ended.intake]
      simp [intake]
    · rw [stale, own]
      simp
    · rw [stale]
      simp [other]
    · have off' : q.intake.stale.power[f] = false := by rw [intake]; exact off
      obtain ⟨idle, uncertain⟩ := State.turnPointStale_power (s := q) (point ▸ own) off'
      refine ⟨ended.follow_idle idle, fun metal => ?_⟩
      have marked := uncertain (by rw [heats]; exact metal)
      obtain same | same := ended.heat f <;> rw [same] <;> exact marked
  · have undue : ¬(s.advance dt).staleDue i = true := by
      rw [State.staleDue_iff]
      rintro ⟨p, live, used, limited, fresh, late⟩
      obtain none | unused | unlimited | ⟨q, live', old | early⟩ := early
      · exact absurd (live.symm.trans none) nofun
      · exact absurd (used.symm.trans unused) nofun
      · exact limited unlimited
      · obtain rfl := Option.some.inj (live.symm.trans live')
        exact absurd (fresh.symm.trans old) nofun
      · obtain rfl := Option.some.inj (live.symm.trans live')
        exact absurd late (Nat.not_le.2 early)
    rw [expiry, State.expire, if_neg undue]

end Sys2Proof.Machine
end

section
/-! O51 and O55. The commands of the management unit as single items: what a refused item, a taken one and an answered
one leave; the fetch-ahead of READ TABLE over n bytes; the parts of a read record, and the lengths of its fields. -/

namespace Sys2Proof.Machine

variable {s : State} {dt : Time}

/-! ### An item outside any frame -/

/-- With the reset pin high an item acts on the state of its time, in a frame of its own. -/
theorem State.single_high {item : State → ItemOut} (pin : s.pinLow = false) :
    s.single dt item = (item ((s.advance dt).openFrame 1)).recorded :=
  s.event_high pin

/-- An item that is refused leaves its result alone. -/
theorem State.single_plain {item : State → ItemOut} (pin : s.pinLow = false) {r : Result}
    (h : item ((s.advance dt).openFrame 1) = .plain ((s.advance dt).openFrame 1) r) :
    s.single dt item = s.refused dt r := by
  rw [State.single_high pin, h]
  rfl

/-- The frame of one item has room for 45 bytes. -/
theorem State.answer_opened {t : State} {data : List Byte} (h : data.length ≤ 45) :
    ((s.openFrame 1).answer t data) = { state := t, result := .ok, data := data } :=
  if_pos (by simpa [State.room, State.openFrame, State.withMgmt] using h)

/-! ### Table data and READ TABLE (R191, R192) -/

theorem State.validating_iff : s.validating = true ↔ s.mgmt.validator.validating ≠ none := Option.isSome_iff_ne_none

theorem State.not_validating_iff : s.validating = false ↔ s.mgmt.validator.validating = none :=
  Option.isSome_eq_false_iff.trans Option.isNone_iff_eq_none

theorem State.lockedTable_iff {t : TableNo} : s.lockedTable t = true ↔ t = .cooling ∧ s.mgmt.locked = true := by
  simp [State.lockedTable]

/-- What the fetch-ahead reads at a pointer: nothing past the end of the image. -/
def Image.fetch (m : Image) (size a : Nat) : Byte := if a < size then m.read a else 0

/-- Where the pointer stands after n bytes: no further than the end of the image. -/
def pointerAfter (size p n : Nat) : Nat := if p < size then min (p + n) size else p

/-- One fetch moves the pointer by one while it is inside the image. -/
theorem pointerAfter_succ (size p n : Nat) :
    pointerAfter size p (n + 1) = pointerAfter size (if p < size then p + 1 else p) n := by
  unfold pointerAfter
  by_cases h : p < size
  · simp only [h, if_true]
    split <;> omega
  · simp only [h, if_false]

/-- Past the end the pointer stands still, and every fetch reads 00h. -/
theorem fetch_moved (m : Image) (size p k : Nat) :
    m.fetch size ((if p < size then p + 1 else p) + k) = m.fetch size (p + (k + 1)) := by
  unfold Image.fetch
  by_cases h : p < size
  · rw [if_pos h, Nat.add_right_comm, Nat.add_assoc]
  · rw [if_neg h, if_neg (by omega), if_neg (by omega)]

/-- Over n + 1 bytes READ TABLE returns the latch and then n bytes from the pointer on, and leaves the next one in the
latch. -/
theorem readLatch_eq (m : Image) (size : Nat) (n p : Nat) (latch : Byte) :
    readLatch m size (n + 1) p latch
      = (latch :: (List.range n).map (fun k => m.fetch size (p + k)), pointerAfter size p (n + 1),
          m.fetch size (p + n)) := by
  induction n generalizing p latch with
  | zero =>
    have moved : pointerAfter size p 1 = if p < size then p + 1 else p := by
      unfold pointerAfter
      split <;> omega
    rw [moved]
    rfl
  | succ n ih =>
    rw [readLatch, ih, pointerAfter_succ size p (n + 1), List.range_succ_eq_map]
    simp only [fetch_moved, List.map_cons, List.map_map, Function.comp_def, Nat.succ_eq_add_one, Nat.add_zero]
    rfl

/-- The refusals of table data, in their order, and what it leaves once it may be written (R191). -/
theorem State.itemTableData_busy {bytes : List Byte} (busy : s.validating = true) :
    s.itemTableData bytes = .plain s .busy := by
  simp [State.itemTableData, busy]

theorem State.itemTableData_state {bytes : List Byte} (idle : s.validating = false)
    (unfit : s.mgmt.selection = none ∨ ∃ x, s.mgmt.selection = some x ∧ x.active = true) :
    s.itemTableData bytes = .plain s .state := by
  obtain none | ⟨x, chosen, active⟩ := unfit
  · simp [State.itemTableData, idle, none]
  · simp [State.itemTableData, idle, chosen, active]

theorem State.itemTableData_locked {x : Selection} {bytes : List Byte} (idle : s.validating = false)
    (chosen : s.mgmt.selection = some x) (staging : x.active = false) (locked : s.lockedTable x.table = true) :
    s.itemTableData bytes = .plain s .locked := by
  simp [State.itemTableData, idle, chosen, staging, locked]

theorem State.itemTableData_taken {x : Selection} {bytes : List Byte} (idle : s.validating = false)
    (chosen : s.mgmt.selection = some x) (staging : x.active = false) (unlocked : s.lockedTable x.table = false) :
    s.itemTableData bytes =
      let n := min bytes.length (x.table.size - x.pointer)
      let c := s.tables.copies x.table
      .plain { s with
          tables := s.tables.setCopies x.table
            { c with staging := c.staging.writeAll x.pointer (bytes.take (x.table.size - x.pointer)) },
          mgmt := { s.mgmt with selection := some { x with pointer := x.pointer + n } } }
        (if n = bytes.length then .ok else .range) := by
  simp [State.itemTableData, idle, chosen, staging, unlocked, Nat.min_comm]

/-- The refusals of READ TABLE, and what it answers (R192). -/
theorem State.itemReadTable_range {count : Byte} (bad : count.toNat = 0 ∨ 40 < count.toNat) :
    s.itemReadTable count = .plain s .range :=
  if_pos bad

theorem State.itemReadTable_state {count : Byte} (low : 1 ≤ count.toNat) (high : count.toNat ≤ 40)
    (none : s.mgmt.selection = none) : s.itemReadTable count = .plain s .state := by
  unfold State.itemReadTable
  rw [if_neg (by omega), none]

theorem State.itemReadTable_chosen {x : Selection} {count : Byte} (low : 1 ≤ count.toNat) (high : count.toNat ≤ 40)
    (chosen : s.mgmt.selection = some x) :
    s.itemReadTable count =
      let r := readLatch ((s.tables.copies x.table).image x.active) x.table.size count.toNat x.pointer s.mgmt.latch
      s.answer (s.withMgmt { s.mgmt with selection := some { x with pointer := r.2.1 }, latch := r.2.2 }) r.1 := by
  unfold State.itemReadTable
  rw [if_neg (by omega), chosen]

/-- The bytes that fit an image, written from its pointer on: each address reads as the byte written there or as
before. -/
theorem Image.read_fitted {m : Image} (w : m.wf = true) (p size : Nat) (bytes : List Byte) (a : Nat) :
    (m.writeAll p (bytes.take (size - p))).read a =
      if p ≤ a ∧ a < p + min bytes.length (size - p) then (bytes[a - p]?).getD 0 else m.read a := by
  rw [Image.read_writeAll p _ a w, List.getElem?_take]
  by_cases low : p ≤ a
  · by_cases high : a < p + min bytes.length (size - p)
    · have inside : a - p < bytes.length := by omega
      simp [low, high, show a - p < size - p by omega, inside]
    · by_cases cut : a - p < size - p
      · have past : bytes.length ≤ a - p := by omega
        simp [high, past]
      · simp [high, cut]
  · simp [low]

/-- Settles O51: each refusal is an item's own, what is written is a run of bytes cut to the image, and what is read is
the fetch-ahead. -/
theorem tableDataIsWrittenAndRead : Obligations.TableDataIsWrittenAndRead := by
  unfold Obligations.TableDataIsWrittenAndRead
  refine ⟨fun dt bytes s pin => ⟨fun busy => ?_, fun idle => ⟨fun unfit => ?_, fun x chosen staging =>
    ⟨fun locked => ?_, fun unlocked => ?_⟩⟩⟩, fun dt count s pin => ⟨fun bad => ?_, fun low high none => ?_,
    fun x low high chosen => ?_⟩⟩
  · exact congrArg Host.Outcome.next (State.single_plain pin (State.itemTableData_busy (State.validating_iff.2 busy)))
  · exact congrArg Host.Outcome.next
      (State.single_plain pin (State.itemTableData_state (State.not_validating_iff.2 idle) unfit))
  · exact congrArg Host.Outcome.next (State.single_plain pin
      (State.itemTableData_locked (State.not_validating_iff.2 idle) chosen staging (State.lockedTable_iff.2 locked)))
  · have free : s.lockedTable x.table = false := by
      rw [← Bool.not_eq_true, State.lockedTable_iff]
      rintro ⟨cooling, locked⟩
      simp [cooling, locked] at unlocked
    have written := congrArg ItemOut.recorded (State.itemTableData_taken (s := (s.advance dt).openFrame 1)
      (bytes := bytes) (State.not_validating_iff.2 idle) chosen staging free)
    refine ⟨_, congrArg Host.Outcome.next ((State.single_high pin).trans written), rfl, fun k other => ?_, ?_,
      fun wf a => ?_⟩
    · exact Tables.copies_setCopies_other _ _ _ _ other
    · exact (congrArg Copies.active (Tables.copies_setCopies_same s.tables x.table _)).trans rfl
    · refine (congrArg (fun c : Copies => c.staging.read a) (Tables.copies_setCopies_same _ _ _)).trans ?_
      exact Image.read_fitted wf x.pointer x.table.size bytes a
  · exact congrArg Host.Outcome.next (State.single_plain pin (State.itemReadTable_range bad))
  · exact congrArg Host.Outcome.next (State.single_plain pin (State.itemReadTable_state low high none))
  · obtain ⟨n, count_eq⟩ : ∃ n, count.toNat = n + 1 := ⟨count.toNat - 1, by omega⟩
    have answered := State.itemReadTable_chosen (s := (s.advance dt).openFrame 1) low high chosen
    rw [count_eq] at answered high ⊢
    simp only [readLatch_eq] at answered
    rw [State.answer_opened (by simpa using by omega)] at answered
    exact congrArg Host.Outcome.next ((State.single_high pin).trans (congrArg ItemOut.recorded answered))

end Sys2Proof.Machine
end

section
/-! O55. The parts of a read record: laid one after another they are its fields, and since no field is longer than the
first part, none passes its end. -/

namespace Sys2Proof.Machine

variable {s : State} {dt : Time}

/-! ### Parts (R205) -/

/-- Packing cuts nothing and loses nothing. -/
theorem packParts_flatten (room : Nat) (cur : List Byte) (fields : List (List Byte)) :
    (packParts room cur fields).flatten = cur ++ fields.flatten := by
  induction fields generalizing room cur with
  | nil => simp [packParts]
  | cons x rest ih =>
    unfold packParts
    split <;> simp [ih]

/-- The room of a part: the first carries the number of parts too. -/
def partRoom (room : Nat) : Nat → Nat
  | 0 => room
  | _ + 1 => 36

/-- Fields that each fit a part are packed into parts that keep to their room. -/
theorem packParts_fits {room : Nat} {cur : List Byte} {fields : List (List Byte)} (begun : cur.length ≤ room)
    (short : ∀ x ∈ fields, x.length ≤ 36) {k : Nat} {body : List Byte}
    (h : (packParts room cur fields)[k]? = some body) : body.length ≤ partRoom room k := by
  induction fields generalizing room cur k with
  | nil =>
    cases k with
    | zero =>
      obtain rfl : cur = body := by simpa [packParts] using h
      exact begun
    | succ k => simp [packParts] at h
  | cons x rest ih =>
    obtain ⟨first, others⟩ := List.forall_mem_cons.1 short
    unfold packParts at h
    split at h
    next fits => exact ih (by simpa using fits) others h
    next =>
      cases k with
      | zero =>
        obtain rfl : cur = body := by simpa using h
        exact begun
      | succ k =>
        have later := ih first others (List.getElem?_cons_succ ▸ h)
        cases k <;> exact later

/-! ### The fields of the records are short -/

/-- Every field of a record fits even the first part. -/
def Short (fields : List (List Byte)) : Prop := ∀ x ∈ fields, x.length ≤ 35

@[simp] theorem Short.nil : Short [] := nofun

@[simp] theorem short_cons {x : List Byte} {fields : List (List Byte)} :
    Short (x :: fields) ↔ x.length ≤ 35 ∧ Short fields := List.forall_mem_cons

@[simp] theorem short_append {a b : List (List Byte)} : Short (a ++ b) ↔ Short a ∧ Short b := List.forall_mem_append

@[simp] theorem bytes16_length (w : BitVec 16) : (bytes16 w).length = 2 := rfl
@[simp] theorem bytes32_length (w : BitVec 32) : (bytes32 w).length = 4 := rfl
@[simp] theorem enc8_length (n : Nat) : (enc8 n).length = 1 := rfl
@[simp] theorem enc16_length (n : Nat) : (enc16 n).length = 2 := rfl
@[simp] theorem enc32_length (n : Nat) : (enc32 n).length = 4 := rfl
@[simp] theorem encS16_length (i : Int) : (encS16 i).length = 2 := rfl
@[simp] theorem encS32_length (i : Int) : (encS32 i).length = 4 := rfl
@[simp] theorem encFlag_length (b : Bool) : (encFlag b).length = 1 := by cases b <;> rfl

/-- An encoding of a fixed number of bytes. -/
def Width {α : Type} (n : Nat) (enc : α → List Byte) : Prop := ∀ a, (enc a).length = n

@[simp] theorem width_byte : Width 1 (fun b : Byte => [b]) := fun _ => rfl
@[simp] theorem width_enc8 : Width 1 enc8 := fun _ => rfl
@[simp] theorem width_code {α : Type} (code : α → Nat) : Width 1 (fun a => enc8 (code a)) := fun _ => rfl
@[simp] theorem width_enc16 : Width 2 enc16 := fun _ => rfl
@[simp] theorem width_encS16 : Width 2 encS16 := fun _ => rfl
@[simp] theorem width_enc32 : Width 4 enc32 := fun _ => rfl
@[simp] theorem width_encS32 : Width 4 encS32 := fun _ => rfl
@[simp] theorem width_encAge (now : Time) : Width 4 (encAge now) := fun _ => rfl
@[simp] theorem width_encDip (now : Time) : Width 6 (encDip now) := fun _ => rfl
@[simp] theorem width_encApproval (now : Time) : Width 5 (encApproval now) := fun _ => rfl
@[simp] theorem width_encBands : Width 8 encBands := fun _ => rfl
@[simp] theorem width_encSnapshot : Width 7 encSnapshot := fun _ => rfl
@[simp] theorem width_encStop (now : Time) : Width 6 (encStop now) := fun _ => rfl

/-- An optional field takes its presence byte and its width, present or not. -/
@[simp] theorem encOpt_length {α : Type} {n : Nat} {enc : α → List Byte} {x : Option α} (width : Width n enc) :
    (encOpt n enc x).length = n + 1 := by
  cases x with
  | none => exact List.length_replicate
  | some a => exact congrArg (· + 1) (width a)

@[simp] theorem width_encTrip (now : Time) : Width 12 (encTrip now) := fun t => by
  simp [encTrip, show (encAge now t.time).length = 4 from rfl]

@[simp] theorem width_encPour : Width 22 encPour := fun r => by
  simp [encPour, show (encDemand r.demand).length = 9 from rfl]

/-- A list of entries of one width. -/
theorem short_encList {α : Type} {n : Nat} {enc : α → List Byte} (width : Width n enc) (l : List α) (h : n ≤ 35) :
    Short (encList enc l) := by
  rw [encList, short_cons]
  exact ⟨by simp, List.forall_mem_map.2 fun a _ => (width a).trans_le h⟩

theorem State.furnaceRecord_short (f : Furnace) : Short (s.furnaceRecord f) := by
  simp [State.furnaceRecord, heatFields, State.powerFields, holdingFields]

theorem State.circuitRecord_short (c : CircuitNo) : Short (s.circuitRecord c) := by
  have naming (field : Profile → Byte) : Short (encList (fun f : Furnace => enc8 (numberOf f)) (s.naming c field)) :=
    short_encList (width_code _) _ (by decide)
  simp [State.circuitRecord, Quantity.beyondFields, State.causeFlags, naming]

theorem pointFields_short (now : Time) (e : PointEntry) (l : PointLive) : Short (pointFields now e l) := by
  simp [pointFields]

theorem FixedTimer.fields_short (t : FixedTimer) (now : Time) : Short (t.fields now) := by
  simp [FixedTimer.fields]

theorem State.queuesRecord_short : Short s.queuesRecord := by
  have ready : Short (encList (fun r : Ready => enc8 (numberOf r.furnace) ++ encAge s.time r.since) s.taps.ready) :=
    short_encList (n := 5) (fun _ => rfl) _ (by decide)
  have queue : Short (encList encDemand s.taps.queue) := short_encList (n := 9) (fun _ => rfl) _ (by decide)
  have tilts : Short (furnaces.map fun f => encOpt 2 enc16 s.taps.tilt[f]) :=
    List.forall_mem_map.2 fun f _ => by simp
  simp only [State.queuesRecord, short_append, ready, queue, tilts, FixedTimer.fields_short]
  simp

theorem State.conditionsRecord_short : Short s.conditionsRecord := by
  have latched : Short (encList encLatched s.mgmt.latched) := short_encList (n := 6) (fun _ => rfl) _ (by decide)
  simp [State.conditionsRecord, validatorFields, contactFields, State.watchFields, latched]

theorem State.countersRecord_short : Short s.countersRecord := by
  simp [State.countersRecord]

/-! ### The reply of a read -/

/-- What a reader of a record replies: the bytes of a part with the time, and in part 0 the number of parts. -/
def partBytes (now : Time) (fields : List (List Byte)) (part : Byte) (body : List Byte) : List Byte :=
  bytes32 now ++ (if part = 0 then enc8 (recordParts fields).length else []) ++ body

/-- A part of a record of short fields fits a reply of 40 bytes. -/
theorem partBytes_fits {now : Time} {fields : List (List Byte)} {part : Byte} {body : List Byte} (short : Short fields)
    (h : (recordParts fields)[part.toNat]? = some body) : (partBytes now fields part body).length ≤ 40 := by
  have fits := packParts_fits (Nat.zero_le 35) (fun x hx => (short x hx).trans (by decide)) h
  unfold partBytes
  by_cases first : part = 0
  · subst first
    have first : body.length ≤ 35 := fits
    simp
    omega
  · obtain ⟨k, hk⟩ : ∃ k, part.toNat = k + 1 := Nat.exists_eq_succ_of_ne_zero fun h => first (BitVec.eq_of_toNat_eq h)
    have later : body.length ≤ 36 := by
      rw [hk] at fits
      exact fits
    have small : body.length + 4 ≤ 40 := by omega
    simpa [show part ≠ 0#8 from first, Nat.add_comm] using small

/-- A reader of a record: the state whose time the reply carries answers a part that the record has, and refuses one at
or above their number. -/
theorem exec_read {i : Instr} {item : State → ItemOut} {fields : List (List Byte)} {part : Byte}
    (pin : s.pinLow = false) (acts : exec i s = .next (s.single dt item)) (short : Short fields)
    (reads : item ((s.advance dt).openFrame 1) = ((s.advance dt).openFrame 1).readPart fields part) :
    (∀ body, (recordParts fields)[part.toNat]? = some body →
      (partBytes (s.time + dt) fields part body).length ≤ 40
        ∧ exec i s = .next ((s.advance dt).reported .ok (partBytes (s.time + dt) fields part body)))
    ∧ ((recordParts fields).length ≤ part.toNat → exec i s = .next (s.refused dt .range)) := by
  have zero : part.toNat = 0 ↔ part = 0 := BitVec.toNat_inj (x := part) (y := 0)
  refine ⟨fun body h => ⟨partBytes_fits short h, ?_⟩, fun past => ?_⟩
  · have sent : recordPart (s.time + dt) fields part.toNat = some (partBytes (s.time + dt) fields part body) := by
      simp only [recordPart, h, partBytes, zero]
    have answered : ((s.advance dt).openFrame 1).readPart fields part
        = ((s.advance dt).openFrame 1).answer ((s.advance dt).openFrame 1)
            (partBytes (s.time + dt) fields part body) := by
      unfold State.readPart
      rw [show ((s.advance dt).openFrame 1).time = s.time + dt from rfl, sent]
    rw [acts, State.single_high pin, reads, answered,
      State.answer_opened ((partBytes_fits short h).trans (by decide))]
    rfl
  · refine acts.trans (congrArg Host.Outcome.next (State.single_plain pin (reads.trans ?_)))
    simp [State.readPart, recordPart, List.getElem?_eq_none past]

/-- A read command that is refused before its record is read. -/
theorem exec_read_refused {i : Instr} {item : State → ItemOut} {r : Result} (pin : s.pinLow = false)
    (acts : exec i s = .next (s.single dt item))
    (refused : item ((s.advance dt).openFrame 1) = .plain ((s.advance dt).openFrame 1) r) :
    exec i s = .next (s.refused dt r) :=
  acts.trans (congrArg Host.Outcome.next (State.single_plain pin refused))

theorem State.itemReadFurnace_of {n part : Byte} {f : Furnace} (h : furnaceOf n.toNat = some f) :
    s.itemReadFurnace n part = s.readPart (s.furnaceRecord f) part := by
  simp [State.itemReadFurnace, State.onFurnace, h]

theorem State.itemReadCircuit_of {n part : Byte} {c : CircuitNo} (h : circuitOf n.toNat = some c) :
    s.itemReadCircuit n part = s.readPart (s.circuitRecord c) part := by
  simp [State.itemReadCircuit, h]

theorem State.itemReadPoint_of {n part : Byte} {i : PointNo} {l : PointLive} (h : pointOf n.toNat = some i)
    (used : (s.point i).used = true) (live : s.intake.live[i] = some l) :
    s.itemReadPoint n part = s.readPart (pointFields s.time (s.point i) l) part := by
  unfold State.itemReadPoint
  rw [h]
  dsimp only
  rw [if_pos used, live]
  rfl

/-- Settles O55: every record is a list of short fields, and a reader answers one part of it. -/
theorem readsReturnTheirRecords : Obligations.ReadsReturnTheirRecords := by
  unfold Obligations.ReadsReturnTheirRecords
  refine ⟨fun fields => packParts_flatten 35 [] fields, fun dt n part s pin =>
    ⟨fun none => ?_, fun f some => ?_, fun none => ?_, fun c some => ?_, fun none => ?_, fun i some unused => ?_,
      fun i l some used live => ?_, ?_, ?_, ?_⟩⟩
  · exact exec_read_refused pin rfl (by simp [State.itemReadFurnace, State.onFurnace, none])
  · exact exec_read pin rfl (State.furnaceRecord_short f) (State.itemReadFurnace_of some)
  · exact exec_read_refused pin rfl (by simp [State.itemReadCircuit, none])
  · exact exec_read pin rfl (State.circuitRecord_short c) (State.itemReadCircuit_of some)
  · exact exec_read_refused pin rfl (by simp [State.itemReadPoint, none])
  · refine exec_read_refused pin rfl ?_
    simp [State.itemReadPoint, some, show (((s.advance dt).openFrame 1).point i).used = false from unused]
  · exact exec_read pin rfl (pointFields_short _ _ l) (State.itemReadPoint_of some used live)
  · exact exec_read pin rfl State.queuesRecord_short rfl
  · exact exec_read pin rfl State.conditionsRecord_short rfl
  · exact exec_read pin rfl State.countersRecord_short rfl

end Sys2Proof.Machine
end

section
/-! O52. The validation as a list of checks: `Decides` ties a failure found to the checks it decides, each table's
entries and each cross-table rule are such a list, and lists join. Then COMMIT TABLE and the completion. -/

namespace Sys2Proof.Machine

variable {s : State} {dt : Time}

/-! ### A failure found, and the checks it decides -/

/-- The failure is that of the first check that does not hold, and there is none where every check holds. -/
def Decides (o : Option Failure) : List Check → Prop
  | [] => o = none
  | c :: rest => (c.holds → Decides o rest) ∧ (¬c.holds → o = some (c.cause, c.index))

theorem Decides.passes {o : Option Failure} {l : List Check} (h : Decides o l) (all : ∀ c ∈ l, c.holds) : o = none := by
  induction l with
  | nil => exact h
  | cons c rest ih =>
    obtain ⟨first, others⟩ := List.forall_mem_cons.1 all
    exact ih (h.1 first) others

theorem Decides.fails {o : Option Failure} {before after : List Check} {c : Check}
    (h : Decides o (before ++ c :: after)) (all : ∀ d ∈ before, d.holds) (bad : ¬c.holds) :
    o = some (c.cause, c.index) := by
  induction before with
  | nil => exact h.2 bad
  | cons d rest ih =>
    obtain ⟨first, others⟩ := List.forall_mem_cons.1 all
    exact ih (h.1 first) others

/-- A failure found says that a check does not hold. -/
theorem Decides.all {l : List Check} (h : Decides none l) : ∀ c ∈ l, c.holds := by
  induction l with
  | nil => exact nofun
  | cons c rest ih =>
    have first : c.holds := by
      by_contra bad
      exact nomatch h.2 bad
    exact List.forall_mem_cons.2 ⟨first, ih (h.1 first)⟩

theorem Decides.append {o o' : Option Failure} {l l' : List Check} (h : Decides o l) (h' : Decides o' l') :
    Decides (o.or o') (l ++ l') := by
  induction l with
  | nil =>
    obtain rfl : o = none := h
    exact h'
  | cons c rest ih => exact ⟨fun good => ih (h.1 good), fun bad => by rw [h.2 bad]; rfl⟩

/-- A check that holds whatever follows decides nothing. -/
theorem Decides.none_of {l : List Check} (h : ∀ c ∈ l, c.holds) : Decides none l := by
  induction l with
  | nil => rfl
  | cons c rest ih =>
    obtain ⟨first, others⟩ := List.forall_mem_cons.1 h
    exact ⟨fun _ => ih others, fun bad => absurd first bad⟩

/-- A check of the model that fails exactly where a check does not hold, before others. -/
theorem Decides.failIf_cons {bad : Bool} {cause : FailCause} {index : Nat} {holds : Prop} {rest : List Check}
    {others : List (Option Failure)} (h : bad = false ↔ holds) (later : holds → Decides (firstFailure others) rest) :
    Decides (firstFailure (failIf bad cause index :: others))
      ({ cause := cause, index := index, holds := holds } :: rest) := by
  cases bad with
  | true => exact ⟨fun good => absurd (h.2 good) Bool.noConfusion, fun _ => rfl⟩
  | false => exact ⟨fun good => later good, fun bad => absurd (h.1 rfl) bad⟩

theorem Decides.nil : Decides (firstFailure []) [] := rfl

/-- A check of the model alone. -/
theorem Decides.failIf {bad : Bool} {cause : FailCause} {index : Nat} {holds : Prop} (h : bad = false ↔ holds) :
    Decides (failIf bad cause index) [{ cause := cause, index := index, holds := holds }] := by
  cases bad with
  | true => exact ⟨fun good => absurd (h.2 good) Bool.noConfusion, fun _ => rfl⟩
  | false => exact ⟨fun _ => rfl, fun bad => absurd (h.1 rfl) bad⟩

theorem firstFailure_cons (x : Option Failure) (l : List (Option Failure)) :
    firstFailure (x :: l) = x.or (firstFailure l) := by
  cases x <;> rfl

theorem firstFailure_append (l l' : List (Option Failure)) :
    firstFailure (l ++ l') = (firstFailure l).or (firstFailure l') := by
  induction l with
  | nil => rfl
  | cons x rest ih => rw [List.cons_append, firstFailure_cons, ih, firstFailure_cons, Option.or_assoc]

/-- Failures sought one list after another. -/
theorem Decides.joined {a b : List (Option Failure)} {l l' : List Check} (h : Decides (firstFailure a) l)
    (h' : Decides (firstFailure b) l') : Decides (firstFailure (a ++ b)) (l ++ l') := by
  rw [firstFailure_append]
  exact h.append h'

theorem Decides.cons {x : Option Failure} {others : List (Option Failure)} {l l' : List Check} (h : Decides x l)
    (h' : Decides (firstFailure others) l') : Decides (firstFailure (x :: others)) (l ++ l') := by
  rw [firstFailure_cons]
  exact h.append h'

theorem Decides.single {x : Option Failure} {l : List Check} (h : Decides x l) : Decides (firstFailure [x]) l := by
  simpa using h.cons Decides.nil

/-- A subject after another: what each finds, against the checks of each. -/
theorem Decides.map {α : Type} {f : α → Option Failure} {g : α → List Check} (h : ∀ a, Decides (f a) (g a))
    (l : List α) : Decides (firstFailure (l.map f)) (l.flatMap g) := by
  induction l with
  | nil => exact Decides.nil
  | cons a rest ih =>
    exact (h a).cons ih

/-- The subjects that are left out find nothing, and their checks hold. -/
theorem Decides.filter {α : Type} {p : α → Bool} {f : α → List (Option Failure)} {g : α → List Check}
    (taken : ∀ a, p a = true → Decides (firstFailure (f a)) (g a)) (left : ∀ a, p a = false → Decides none (g a))
    (l : List α) : Decides (firstFailure ((l.filter p).flatMap f)) (l.flatMap g) := by
  induction l with
  | nil => exact Decides.nil
  | cons a rest ih =>
    rw [List.flatMap_cons]
    cases h : p a with
    | true =>
      rw [List.filter_cons_of_pos h]
      exact (taken a h).joined ih
    | false =>
      rw [List.filter_cons_of_neg (by simp [h])]
      exact (left a h).append ih

/-! ### Ranges and lower entries -/

theorem within_iff {low x high : Nat} : within low x high = true ↔ low ≤ x ∧ x ≤ high := by simp [within]

theorem withinInt_iff {low x high : Int} : withinInt low x high = true ↔ low ≤ x ∧ x ≤ high := by simp [withinInt]

/-- What a rising list takes below a bound is what of it lies below. -/
theorem mem_takeWhile_below {n : Nat} {l : List (Fin n)} (rising : l.Pairwise (· < ·)) {i j : Fin n} :
    j ∈ l.takeWhile (fun k => decide (k.val < i.val)) ↔ j ∈ l ∧ j < i := by
  induction l with
  | nil => simp
  | cons k rest ih =>
    obtain ⟨least, rising'⟩ := List.pairwise_cons.1 rising
    by_cases below : k < i
    · rw [List.takeWhile_cons_of_pos (by simpa using below), List.mem_cons, List.mem_cons, ih rising', or_and_right]
      exact or_congr_left ⟨fun h => ⟨h, h ▸ below⟩, And.left⟩
    · rw [List.takeWhile_cons_of_neg (by simpa using below)]
      refine ⟨nofun, fun ⟨mem, low⟩ => ?_⟩
      obtain rfl | mem := List.mem_cons.1 mem
      · exact absurd low below
      · exact absurd ((least j mem).trans low) below

/-- No entry below has a property. -/
theorem entriesBefore_any {m : Image} {i : PointNo} {p : PointEntry → Bool} :
    (entriesBefore m i).any p = false ↔ ∀ j < i, p (pointEntry m j) = false := by
  have below (j : PointNo) : j ∈ pointNos.takeWhile (fun k => decide (k.val < i.val)) ↔ j < i := by
    rw [pointNos, mem_takeWhile_below (List.pairwise_lt_finRange 128)]
    simp
  simp only [entriesBefore, List.any_map, List.any_eq_false, below, Function.comp_apply, Bool.not_eq_true]

/-! ### The point table (R21, R37) -/

/-- The code of a kind (R213). -/
def PointKind.code : PointKind → Nat
  | .powerActual => 1
  | .powerOrder => 2
  | .dipTemp => 3
  | .chargeMass => 4
  | .ladleMass => 5
  | .tiltAngle => 6
  | .flow => 7
  | .supplyTemp => 8
  | .returnTemp => 9
  | .pressure => 10

theorem pointKindOf_eq {n : Nat} {k : PointKind} (h : pointKindOf n = some k) : n = k.code := by
  unfold pointKindOf at h
  split at h <;> cases h <;> rfl

/-- A code names a kind where it is 1 to 10. -/
theorem pointKindOf_none {n : Nat} (h : pointKindOf n = none) : ¬(1 ≤ n ∧ n ≤ 10) := by
  rintro ⟨low, high⟩
  interval_cases n <;> cases h

theorem PointKind.code_range (k : PointKind) : 1 ≤ k.code ∧ k.code ≤ 10 := by cases k <;> decide

theorem PointKind.ownerOk_iff {k : PointKind} {o : Nat} :
    k.ownerOk o = true ↔ k.limits.1.1 ≤ o ∧ o ≤ k.limits.1.2 := by
  cases k <;> simp [PointKind.ownerOk, PointKind.limits, within_iff]

theorem PointKind.span_eq (k : PointKind) : k.span = k.limits.2 := by cases k <;> rfl

theorem PointKind.alone_iff {k : PointKind} : k.alone = true ↔ k ≠ .dipTemp ∧ k ≠ .chargeMass := by
  cases k <;> simp [PointKind.alone]


/-- The owner of an entry of a kind is right: in range, and of no lower entry of a kind that stands alone. -/
theorem pointOwner_iff {m : Image} {i : PointNo} {k : PointKind} (kind : (pointEntry m i).kind = some k) :
    (!k.ownerOk (pointEntry m i).owner.toNat || (k.alone && (entriesBefore m i).any fun o =>
        decide (o.kindCode = (pointEntry m i).kindCode) && decide (o.owner = (pointEntry m i).owner))) = false
    ↔ ∀ k', (pointEntry m i).kind = some k' →
      (k'.limits.1.1 ≤ (pointEntry m i).owner.toNat ∧ (pointEntry m i).owner.toNat ≤ k'.limits.1.2)
        ∧ (k' ≠ .dipTemp → k' ≠ .chargeMass →
          ∀ j < i, ¬((pointEntry m j).kind = some k' ∧ (pointEntry m j).owner = (pointEntry m i).owner)) := by
  have code (j : PointNo) : (pointEntry m j).kindCode = (pointEntry m i).kindCode ↔ (pointEntry m j).kind = some k := by
    refine ⟨fun same => by rw [PointEntry.kind, same]; exact kind, fun other => BitVec.eq_of_toNat_eq ?_⟩
    exact (pointKindOf_eq other).trans (pointKindOf_eq kind).symm
  have lower : ((entriesBefore m i).any fun o =>
        decide (o.kindCode = (pointEntry m i).kindCode) && decide (o.owner = (pointEntry m i).owner)) = false
      ↔ ∀ j < i, ¬((pointEntry m j).kind = some k ∧ (pointEntry m j).owner = (pointEntry m i).owner) := by
    rw [entriesBefore_any]
    simp only [Bool.and_eq_false_iff, decide_eq_false_iff_not, code, not_and_or]
  simp only [kind, Option.some.injEq, forall_eq', Bool.or_eq_false_iff, Bool.not_eq_false', PointKind.ownerOk_iff,
    Bool.and_eq_false_imp, lower, PointKind.alone_iff, and_imp]

/-- The fields of an entry of a kind are in range and in order. -/
theorem pointRange_iff {e : PointEntry} {k : PointKind} (kind : e.kind = some k) :
    e.rangeBad k = false ↔ ∀ k', e.kind = some k' → e.station ≠ 0 ∧ e.station ≠ 255 ∧ 1 ≤ e.den ∧ e.den ≤ 1000
      ∧ k'.limits.2.1 ≤ e.low ∧ e.low ≤ e.high ∧ e.high ≤ k'.limits.2.2
      ∧ 10 ≤ e.interval ∧ e.interval ≤ 10000 ∧ (e.limit = 0 ∨ (50 ≤ e.limit ∧ e.limit ≤ 60000)) := by
  simp only [kind, Option.some.injEq, forall_eq', PointEntry.rangeBad, PointKind.span_eq, Bool.or_eq_false_iff,
    decide_eq_false_iff_not, Bool.not_eq_false', Bool.or_eq_true, decide_eq_true_eq, within_iff, withinInt_iff]
  generalize k.limits.2 = span
  constructor
  · rintro ⟨⟨⟨⟨⟨⟨⟨station, top⟩, den⟩, order⟩, low⟩, high⟩, interval⟩, limit⟩
    exact ⟨station, top, den.1, den.2, low.1, Int.not_lt.1 order, high.2, interval.1, interval.2, limit⟩
  · rintro ⟨station, top, den, den', low, order, high, interval, interval', limit⟩
    exact ⟨⟨⟨⟨⟨⟨⟨station, top⟩, den, den'⟩, Int.not_lt.2 order⟩, low, order.trans high⟩, low.trans order, high⟩,
      interval, interval'⟩, limit⟩

/-- What the check of an entry finds, against the checks of R21 and R37. -/
theorem checkPoint_decides (m : Image) (i : PointNo) : Decides (checkPoint m i) (pointChecks m i) := by
  unfold checkPoint pointChecks
  dsimp only
  by_cases used : (pointEntry m i).used = true
  · rw [if_neg (by simp [used]), if_pos used]
    split
    next none => exact ⟨fun good => absurd good (pointKindOf_none none), fun _ => rfl⟩
    next k kind =>
      refine ⟨fun _ => ?_, fun bad => absurd (pointKindOf_eq kind ▸ k.code_range) bad⟩
      refine Decides.failIf_cons (pointOwner_iff kind) fun _ => ?_
      refine Decides.failIf_cons (pointRange_iff kind) fun _ => ?_
      refine Decides.failIf_cons ?_ fun _ => Decides.nil
      rw [entriesBefore_any]
      simp
  · rw [if_pos (by simp [used]), if_neg used]
    rfl

/-! ### The profile and cooling tables (R37, R133, R134) -/

/-- A station that can be addressed. -/
theorem station_iff (b : Byte) : within 1 b.toNat 254 = true ↔ b ≠ 0 ∧ b ≠ 255 := by
  rw [within_iff]
  bv_omega

theorem Profile.inRange_iff {p : Profile} (rated : 0 < p.rated) :
    (!p.inRange) = false ↔ p.rated ≤ 60000 ∧ (100 ≤ p.capacity ∧ p.capacity ≤ 200000) ∧ p.heel ≤ p.capacity
      ∧ (1000 ≤ p.holdLow ∧ p.holdLow ≤ p.holdHigh ∧ p.holdHigh ≤ 1800)
      ∧ (1000 ≤ p.tapLow ∧ p.tapLow ≤ p.tapHigh ∧ p.tapHigh ≤ 1800)
      ∧ (1 ≤ p.maxHold ∧ p.maxHold ≤ 480)
      ∧ (500 ≤ p.meltEnergy ∧ p.meltEnergy ≤ 3000) ∧ (500 ≤ p.heatCapacity ∧ p.heatCapacity ≤ 1200)
      ∧ (1000 ≤ p.liquidus ∧ p.liquidus ≤ 1400) ∧ p.loss ≤ 2000
      ∧ p.unsupervised ≤ p.rated ∧ p.tiltCeiling ≤ p.rated
      ∧ (p.min ≤ p.mid ∧ p.mid ≤ p.boost ∧ p.boost ≤ p.rated)
      ∧ (1 ≤ p.rampStep ∧ p.rampStep ≤ 60000) ∧ (50 ≤ p.rampInterval ∧ p.rampInterval ≤ 2000)
      ∧ (10 ≤ p.tolerance ∧ p.tolerance ≤ 10000) ∧ (200 ≤ p.followWindow ∧ p.followWindow ≤ 20000)
      ∧ (p.inverter ≠ 0 ∧ p.inverter ≠ 255) ∧ (p.drive ≠ 0 ∧ p.drive ≠ 255)
      ∧ (1 ≤ p.minTap ∧ p.minTap ≤ p.capacity) := by
  rw [← station_iff, ← station_iff]
  simp only [Profile.inRange, Bool.not_eq_false', Bool.and_eq_true, within_iff, withinInt_iff, decide_eq_true_eq]
  omega

theorem checkProfile_decides (m : Image) (f : Furnace) : Decides (checkProfile m f) (profileChecks m f) := by
  unfold checkProfile profileChecks
  dsimp only
  by_cases rated : 0 < (profileEntry m f).rated
  · rw [if_neg (by omega), if_pos rated]
    refine Decides.failIf_cons ?_ fun _ => Decides.failIf_cons (Profile.inRange_iff rated) fun _ => Decides.nil
    simp [within_iff]
  · rw [if_pos (by omega), if_neg rated]
    rfl

theorem CoolingEntry.inRange_iff (e : CoolingEntry) :
    (!e.inRange) = false ↔
      (1 ≤ e.persistence ∧ e.persistence ≤ 16) ∧ (1 ≤ e.startWindow ∧ e.startWindow ≤ 600) ∧ e.derate ≤ 100
        ∧ (e.flowTrip ≤ e.flowDerate ∧ e.flowDerate ≤ e.flowWarn ∧ e.flowWarn ≤ 60000)
        ∧ (-50 ≤ e.retWarn ∧ e.retWarn ≤ e.retDerate ∧ e.retDerate ≤ e.retTrip ∧ e.retTrip ≤ 200)
        ∧ (e.riseWarn ≤ e.riseDerate ∧ e.riseDerate ≤ e.riseTrip ∧ e.riseTrip ≤ 250) ∧ e.pressureTrip ≤ 10000
        ∧ e.flowHyst ≤ 10000 ∧ e.retHyst ≤ 50 ∧ e.riseHyst ≤ 50 ∧ e.pressureHyst ≤ 2000
        ∧ (∀ x ∈ [e.flowWarn, e.flowDerate, e.flowTrip], x + e.flowHyst ≤ 60000)
        ∧ (∀ x ∈ [e.retWarn, e.retDerate, e.retTrip], -50 ≤ x - e.retHyst)
        ∧ (∀ x ∈ [e.riseWarn, e.riseDerate, e.riseTrip], -250 ≤ (x : Int) - e.riseHyst)
        ∧ e.pressureTrip + e.pressureHyst ≤ 10000 := by
  simp only [CoolingEntry.inRange, CoolingEntry.boundsOk, Bool.not_eq_false', Bool.and_eq_true, within_iff,
    decide_eq_true_eq, List.forall_mem_cons, List.not_mem_nil, false_imp_iff, implies_true, and_true]
  omega

theorem checkCooling_decides (m : Image) (c : CircuitNo) : Decides (checkCooling m c) (coolingChecks m c) := by
  unfold checkCooling coolingChecks
  dsimp only
  by_cases enabled : (coolingEntry m c).enabled = true
  · rw [if_pos enabled, if_pos enabled]
    exact Decides.failIf (CoolingEntry.inRange_iff (coolingEntry m c))
  · rw [if_neg enabled, if_neg enabled]
    rfl

/-! ### The contact map (R37, R43, R216) -/

/-- No lower input has the function and the subject of an input. -/
theorem inputSecond_iff (m : Image) (i : InputNo) :
    (inputNos.any fun j => decide (j.val < i.val) && decide ((inputEntry m j).function = (inputEntry m i).function)
        && decide ((inputEntry m j).subject = (inputEntry m i).subject)) = false
      ↔ ∀ j < i, ¬((inputEntry m j).function = (inputEntry m i).function
        ∧ (inputEntry m j).subject = (inputEntry m i).subject) := by
  have all (j : InputNo) : j ∈ inputNos := by revert j; decide
  simp [List.any_eq_false, all]

theorem inputOwner_iff (m : Image) (i : InputNo) :
    inputOwnerBad m i = false ↔
      ((inputEntry m i).function = fnFlowSwitch ∨ (inputEntry m i).function = fnLeak
          ∨ (inputEntry m i).function = fnPumpRun →
        1 ≤ (inputEntry m i).subject.toNat ∧ (inputEntry m i).subject.toNat ≤ 8)
      ∧ ((inputEntry m i).function = fnTiltHome →
        1 ≤ (inputEntry m i).subject.toNat ∧ (inputEntry m i).subject.toNat ≤ 6)
      ∧ ((inputEntry m i).function = fnPumpRun ∨ (inputEntry m i).function = fnTiltHome →
        ∀ j < i, ¬((inputEntry m j).function = (inputEntry m i).function
          ∧ (inputEntry m j).subject = (inputEntry m i).subject)) := by
  rw [← inputSecond_iff m i]
  unfold inputOwnerBad
  dsimp only
  generalize (inputNos.any _) = second
  split
  next switch => obtain h | h := switch <;> simp [h, fnFlowSwitch, fnLeak, fnPumpRun, fnTiltHome, within_iff]
  next =>
    split
    next pump => simp [pump, fnFlowSwitch, fnLeak, fnPumpRun, fnTiltHome, within_iff]
    next =>
      split
      next home => simp [home, fnFlowSwitch, fnLeak, fnPumpRun, fnTiltHome, within_iff]
      next => simp_all

theorem checkInput_decides (m : Image) (i : InputNo) : Decides (checkInput m i) (inputChecks m i) := by
  unfold checkInput inputChecks
  dsimp only
  by_cases used : (inputEntry m i).function = 0
  · rw [if_pos used, if_neg (by simp [used])]
    rfl
  · rw [if_neg used, if_pos used]
    refine Decides.failIf_cons ?_ fun _ => Decides.failIf_cons (inputOwner_iff m i) fun _ => Decides.nil
    simp [and_assoc]

theorem outputOwner_iff (e : OutputEntry) :
    e.ownerBad = false ↔ (e.function = fnEmergencyWater → 1 ≤ e.subject.toNat ∧ e.subject.toNat ≤ 8)
      ∧ (e.function = fnReadyLamp → 1 ≤ e.subject.toNat ∧ e.subject.toNat ≤ 6) := by
  unfold OutputEntry.ownerBad
  split
  next water => simp [water, fnEmergencyWater, fnReadyLamp, within_iff]
  next =>
    split
    next lamp => simp [lamp, fnEmergencyWater, fnReadyLamp, within_iff]
    next => simp_all

theorem checkOutput_decides (m : Image) (o : OutputNo) : Decides (checkOutput m o) (outputChecks m o) := by
  unfold checkOutput outputChecks
  dsimp only
  by_cases used : (outputEntry m o).function = 0
  · rw [if_pos used, if_neg (by simp [used])]
    rfl
  · rw [if_neg used, if_pos used]
    refine Decides.failIf_cons ?_ fun _ => Decides.failIf_cons (outputOwner_iff _) fun _ =>
      Decides.failIf_cons ?_ fun _ => Decides.nil
    · simp
    · rw [decide_eq_false_iff_not]
      bv_omega

/-! ### The cross-table checks (R38, R76) -/

theorem ratedIn_iff {m : Image} {f : Furnace} : ratedIn m f = true ↔ 0 < (profileEntry m f).rated := by simp [ratedIn]

theorem missingPoint_decides (points profiles : Image) :
    Decides (missingPoint points profiles) (missingChecks points profiles) := by
  refine Decides.joined (Decides.filter (fun f rated => ?_) (fun f unrated => ?_) furnaces)
    (Decides.single (Decides.failIf ?_))
  · have rated' := ratedIn_iff.1 rated
    exact Decides.failIf_cons (by simp [rated']) fun _ => Decides.failIf_cons (by simp [rated']) fun _ => Decides.nil
  · have unrated' : ¬0 < (profileEntry profiles f).rated := fun h => by simp [ratedIn_iff.2 h] at unrated
    exact Decides.none_of (by simp [unrated'])
  · simp [Bool.and_eq_false_imp, List.any_eq_true, mem_furnaces, ratedIn_iff]

/-- The checks that a profile table names enabled circuits (R38). -/
def profileReferenceChecks (profiles cooling : Image) : List Check :=
  furnaces.flatMap fun f =>
    let p := profileEntry profiles f
    [{ cause := .badReference, index := numberOf f, holds := 0 < p.rated → enabledIn cooling p.coil = true },
      { cause := .badReference, index := numberOf f, holds := 0 < p.rated → enabledIn cooling p.cabinet = true }]

theorem profileReferences_decides (profiles cooling : Image) :
    Decides (profileReferences profiles cooling) (profileReferenceChecks profiles cooling) := by
  refine Decides.filter (fun f rated => ?_) (fun f unrated => ?_) furnaces
  · have rated' := ratedIn_iff.1 rated
    exact Decides.failIf_cons (by simp [rated']) fun _ => Decides.failIf_cons (by simp [rated']) fun _ => Decides.nil
  · have unrated' : ¬0 < (profileEntry profiles f).rated := fun h => by simp [ratedIn_iff.2 h] at unrated
    exact Decides.none_of (by simp [unrated'])

/-- A check of each subject, one alone. -/
theorem Decides.each {α : Type} {f : α → Option Failure} {c : α → Check} (h : ∀ a, Decides (f a) [c a]) (l : List α) :
    Decides (firstFailure (l.map f)) (l.map c) := by
  rw [List.map_eq_flatMap (f := c)]
  exact Decides.map h l

/-- The checks that the circuits named by rated furnaces stay enabled (R38). -/
def coolingReferenceChecks (profiles cooling : Image) : List Check :=
  circuitNos.map fun c =>
    { cause := .badReference, index := numberOf c
      holds := (∃ f, 0 < (profileEntry profiles f).rated ∧ ((profileEntry profiles f).coil.toNat = numberOf c
        ∨ (profileEntry profiles f).cabinet.toNat = numberOf c)) → (coolingEntry cooling c).enabled = true }

theorem coolingReferences_decides (profiles cooling : Image) :
    Decides (coolingReferences profiles cooling) (coolingReferenceChecks profiles cooling) := by
  refine Decides.each (fun c => Decides.failIf ?_) circuitNos
  simp [namedIn, Bool.and_eq_false_imp, List.any_eq_true, mem_furnaces, ratedIn_iff]

/-- The checks that the metal fits the furnaces (R76). -/
def heatFitChecks (profiles : Image) (heats : Vector Heat 6) : List Check :=
  furnaces.map fun f =>
    { cause := .badRange, index := f.val
      holds := 0 < heats[f].mass →
        0 < (profileEntry profiles f).rated ∧ heats[f].mass ≤ (profileEntry profiles f).capacity }

theorem heatFit_decides (profiles : Image) (heats : Vector Heat 6) :
    Decides (heatFit profiles heats) (heatFitChecks profiles heats) := by
  refine Decides.each (fun f => Decides.failIf ?_) furnaces
  simp [Bool.and_eq_false_imp, ratedIn]

/-! ### The whole validation -/

/-- The checks of a table's entries. -/
def entryChecks (n : TableNo) (m : Image) : List Check :=
  match n with
  | .point => pointNos.flatMap (pointChecks m)
  | .profile => furnaces.flatMap (profileChecks m)
  | .cooling => circuitNos.flatMap (coolingChecks m)
  | .contact => inputNos.flatMap (inputChecks m) ++ outputNos.flatMap (outputChecks m)

theorem checkEntries_decides (n : TableNo) (m : Image) : Decides (checkEntries n m) (entryChecks n m) := by
  cases n with
  | point => exact Decides.map (checkPoint_decides m) pointNos
  | profile => exact Decides.map (checkProfile_decides m) furnaces
  | cooling => exact Decides.map (checkCooling_decides m) circuitNos
  | contact =>
    exact (Decides.map (checkInput_decides m) inputNos).joined (Decides.map (checkOutput_decides m) outputNos)

/-- A validation decides the checks of its table. -/
theorem State.validate_decides (s : State) (n : TableNo) : Decides (s.validate n) (s.checks n) := by
  have entries := checkEntries_decides n (s.tables.copies n).staging
  cases n with
  | point => exact entries.cons (missingPoint_decides s.tables.point.staging s.tables.profile.active).single
  | profile =>
    have missing := missingPoint_decides s.tables.point.active s.tables.profile.staging
    have references := profileReferences_decides s.tables.profile.staging s.tables.cooling.active
    have fit := heatFit_decides s.tables.profile.staging s.heats
    have checked := entries.cons (missing.cons (references.cons fit.single))
    rw [← List.append_assoc, ← List.append_assoc] at checked
    exact checked
  | cooling =>
    exact entries.cons (coolingReferences_decides s.tables.profile.active s.tables.cooling.staging).single
  | contact => exact entries.single

/-! ### COMMIT TABLE and its completion (R35, R39) -/

theorem State.itemCommitTable_range {number : Byte} (h : 3 < number.toNat) :
    s.itemCommitTable number = .plain s .range := by
  have none : tableOf number.toNat = none := by
    obtain ⟨k, hk⟩ : ∃ k, number.toNat = k + 4 := ⟨number.toNat - 4, by omega⟩
    rw [hk]
    rfl
  simp [State.itemCommitTable, none]

theorem State.itemCommitTable_busy {number : Byte} {n : TableNo} (named : tableOf number.toNat = some n)
    (busy : s.validating = true) : s.itemCommitTable number = .plain s .busy := by
  simp [State.itemCommitTable, named, busy]

theorem State.itemCommitTable_locked {number : Byte} {n : TableNo} (named : tableOf number.toNat = some n)
    (idle : s.validating = false) (locked : s.lockedTable n = true) : s.itemCommitTable number = .plain s .locked := by
  simp [State.itemCommitTable, named, idle, locked]

theorem State.itemCommitTable_taken {number : Byte} {n : TableNo} (named : tableOf number.toNat = some n)
    (idle : s.validating = false) (unlocked : s.lockedTable n = false) :
    s.itemCommitTable number
      = .ok (s.withMgmt { s.mgmt with validator := { s.mgmt.validator with validating := some n } }) := by
  simp [State.itemCommitTable, named, idle, unlocked]

theorem State.not_lockedTable {n : TableNo} (h : n ≠ .cooling ∨ s.mgmt.locked = false) : s.lockedTable n = false := by
  rw [← Bool.not_eq_true, State.lockedTable_iff]
  rintro ⟨cooling, locked⟩
  simp [cooling, locked] at h

/-- The completion of the validation that is under way. -/
theorem exec_validationComplete {n : TableNo} (pin : s.pinLow = false) (h : s.mgmt.validator.validating = some n) :
    exec (.validationComplete dt) s = .next ((s.advance dt).completeValidation n) := by
  refine congrArg Host.Outcome.next ((s.event_high pin).trans ?_)
  unfold State.finishValidation
  rw [show (s.advance dt).mgmt.validator.validating = some n from h]

/-- Settles O52: the validation decides the list of its checks, and its completion records what they decide. -/
theorem tablesAreCommitted : Obligations.TablesAreCommitted := by
  unfold Obligations.TablesAreCommitted
  refine ⟨fun s n => ⟨⟨fun passed => ?_, (s.validate_decides n).passes⟩, fun before c after split all bad => ?_⟩,
    fun dt number s pin => ⟨fun bad => ?_, fun n named => ⟨fun busy => ?_, fun idle cooling locked => ?_,
      fun idle unlocked => ?_⟩, fun idle => ?_, fun n under => ⟨fun failure failed => ?_, fun passed => ?_⟩⟩⟩
  · exact (passed ▸ s.validate_decides n).all
  · exact (split ▸ s.validate_decides n).fails all bad
  · exact congrArg Host.Outcome.next (State.single_plain pin (State.itemCommitTable_range bad))
  · exact congrArg Host.Outcome.next
      (State.single_plain pin (State.itemCommitTable_busy named (State.validating_iff.2 busy)))
  · exact congrArg Host.Outcome.next (State.single_plain pin (State.itemCommitTable_locked named
      (State.not_validating_iff.2 idle) (State.lockedTable_iff.2 ⟨cooling, locked⟩)))
  · exact congrArg Host.Outcome.next ((State.single_high pin).trans (congrArg ItemOut.recorded
      (State.itemCommitTable_taken (s := (s.advance dt).openFrame 1) named (State.not_validating_iff.2 idle)
        (State.not_lockedTable unlocked))))
  · refine congrArg Host.Outcome.next ((s.event_high pin).trans ?_)
    unfold State.finishValidation
    rw [show (s.advance dt).mgmt.validator.validating = none from idle]
  · refine (exec_validationComplete pin under).trans (congrArg Host.Outcome.next ?_)
    unfold State.completeValidation
    rw [show (s.advance dt).validate n = some failure from failed]
    rfl
  · refine ⟨_, exec_validationComplete pin under, ?_⟩
    unfold State.completeValidation
    rw [show (s.advance dt).validate n = none from passed]
    simp only [State.commitEffects_frame]
    exact ⟨rfl, rfl, rfl, rfl⟩

end Sys2Proof.Machine
end

section
/-! O60, the cooling table (R150): what a fold over subjects does to one of them (`foldl_visits`), what an entry to TRIP
makes of a circuit, and what a commit makes of each circuit by its two enabled flags. -/

namespace Sys2Proof.Machine

variable {s : State} {c : CircuitNo}

/-- A fold over different subjects visits each: what its steps for the others keep stands before the visit and after. -/
theorem foldl_visits {σ : Type} {n : Nat} {g : σ → Fin n → σ} {R : σ → σ → Prop} (refl : ∀ a, R a a)
    (trans : ∀ {a b d}, R a b → R b d → R a d) {i : Fin n} (others : ∀ a j, j ≠ i → R a (g a j)) {l : List (Fin n)}
    (nodup : l.Nodup) (mem : i ∈ l) (a : σ) : ∃ b, R a b ∧ R (g b i) (l.foldl g a) := by
  have passes : ∀ (l : List (Fin n)) (a : σ), i ∉ l → R a (l.foldl g a) := by
    intro l
    induction l with
    | nil => exact fun a _ => refl a
    | cons j rest ih =>
      intro a out
      obtain ⟨ne, out⟩ := not_or.1 (mt List.mem_cons.2 out)
      exact trans (others a j (Ne.symm ne)) (ih _ out)
  obtain ⟨before, after, rfl⟩ := List.append_of_mem mem
  obtain ⟨_, later, apart⟩ := List.nodup_append.1 nodup
  have out := (List.nodup_cons.1 later).1
  have first : i ∉ before := fun h => apart i h i (List.mem_cons_self) rfl
  rw [List.foldl_append, List.foldl_cons]
  exact ⟨_, passes before a first, passes after _ out⟩

/-! ### One circuit -/

/-- What an operation on another circuit keeps of one circuit, and of what decides it. -/
structure CircuitKept (c : CircuitNo) (a b : State) : Prop where
  time : b.time = a.time
  tables : b.tables = a.tables
  contacts : b.contacts = a.contacts
  intake : b.intake = a.intake
  circuit : b.circuits[c] = a.circuits[c]
  raised : Raised a.mgmt.latched b.mgmt.latched

theorem CircuitKept.refl (s : State) : CircuitKept c s s := ⟨rfl, rfl, rfl, rfl, rfl, Raised.refl _⟩

theorem CircuitKept.trans {a b d : State} (h : CircuitKept c a b) (k : CircuitKept c b d) : CircuitKept c a d :=
  ⟨k.time.trans h.time, k.tables.trans h.tables, k.contacts.trans h.contacts, k.intake.trans h.intake,
    k.circuit.trans h.circuit, h.raised.trans k.raised⟩

/-- The causes present of a circuit are read off it, the indications and the stale indications. -/
theorem causePresent_congr {a b : State} (circuit : b.circuits[c] = a.circuits[c]) (contacts : b.contacts = a.contacts)
    (intake : b.intake = a.intake) : b.causePresent c = a.causePresent c := by
  funext cause
  cases cause with
  | leak => simp only [State.causePresent, contacts]
  | flowSwitch => simp only [State.causePresent, contacts]
  | quantity q => simp only [State.causePresent, circuit]
  | stale k => simp only [State.causePresent, intake]

/-- The causes present do not read the start timer. -/
theorem causePresent_start (t : StartTimer) :
    (s.setCircuit c { s.circuits[c] with start := t }).causePresent c = s.causePresent c := by
  funext cause
  cases cause with
  | leak => rfl
  | flowSwitch => rfl
  | quantity q => simp only [State.causePresent, State.setCircuit_same]; cases q <;> rfl
  | stale k => rfl

theorem firstCause_congr {a b : State} (h : b.causePresent c = a.causePresent c) : b.firstCause c = a.firstCause c := by
  simp only [State.firstCause, h]

/-! ### TRIP -/

/-- A circuit is in TRIP with a record of the time, by a cause with a value. -/
def Circuit.trippedBy (x : Circuit) (now : Time) (cause : TripCause) (value : Option Int) : Prop :=
  x.state = .trip ∧ x.start = .idle ∧ x.trip = some { cause := cause, time := now, value := value }

theorem State.enterTrip_circuits (s : State) (c : CircuitNo) (cause : TripCause) :
    (s.enterTrip c cause).circuits = (((s.setCircuit c { s.circuits[c] with
      state := .trip, start := .idle
      trip := some { cause := cause, time := s.time, value := s.circuits[c].causeValue cause } }).raise
        .circuitTrip (numberOf c)).waterTest c).circuits := by
  unfold State.enterTrip
  simp

theorem State.enterTrip_same (s : State) (c : CircuitNo) (cause : TripCause) :
    (s.enterTrip c cause).circuits[c].trippedBy s.time cause (s.circuits[c].causeValue cause) := by
  rw [State.enterTrip_circuits, waterTest_same]
  simp only [State.raise_frame, State.setCircuit_same]
  split <;> exact ⟨rfl, rfl, rfl⟩

theorem State.enterTrip_other (s : State) {d : CircuitNo} (cause : TripCause) (h : c ≠ d) :
    (s.enterTrip d cause).circuits[c] = s.circuits[c] := by
  rw [State.enterTrip_circuits, waterTest_other _ h]
  simp only [State.raise_frame]
  exact State.setCircuit_other s _ h.symm

theorem State.enterTrip_latched (s : State) (c : CircuitNo) (cause : TripCause) :
    latchedPair (s.enterTrip c cause).mgmt.latched .circuitTrip (numberOf c) := by
  have raised : ∀ u : State, latchedPair u.mgmt.latched .circuitTrip (numberOf c) →
      latchedPair ((u.waterTest c).tapOnTrip c).mgmt.latched .circuitTrip (numberOf c) := fun u h => by
    refine (State.abandonOn_raised (l := u.mgmt.latched) ?_).pair _ _ h
    simp only [State.waterTest_frame]
    exact Raised.refl _
  exact raised _ ((State.isLatched_iff _ _ _).1 (State.isLatched_raise _ _ _))

theorem State.settleCircuit_other (s : State) {d : CircuitNo} (h : c ≠ d) :
    (s.settleCircuit d).circuits[c] = s.circuits[c] := by
  unfold State.settleCircuit
  split
  · exact s.enterTrip_other _ h
  · exact State.setCircuit_other s _ h.symm

theorem State.circuitTest_other (s : State) {d : CircuitNo} (h : c ≠ d) :
    (s.circuitTest d).circuits[c] = s.circuits[c] := by
  unfold State.circuitTest
  split
  · exact s.settleCircuit_other h
  · exact s.settleCircuit_other h
  · exact s.settleCircuit_other h
  · split
    · exact s.enterTrip_other _ h
    · rfl
  · rfl
  · rfl

theorem State.recommitCircuit_other (s : State) (old : Image) {d : CircuitNo} (h : c ≠ d) :
    (s.recommitCircuit old d).circuits[c] = s.circuits[c] := by
  unfold State.recommitCircuit
  split
  · rfl
  · exact (State.circuitTest_other _ h).trans (State.setCircuit_other s _ h.symm)
  · exact State.setCircuit_other s _ h.symm
  · split
    · unfold State.startExpire State.startingTest
      dsimp only
      split
      · exact (State.settleCircuit_other _ h).trans (State.setCircuit_other s _ h.symm)
      · exact State.setCircuit_other s _ h.symm
    · rfl

theorem State.recommitCircuit_keeps (s : State) (old : Image) {d : CircuitNo} (h : d ≠ c) :
    CircuitKept c s (s.recommitCircuit old d) where
  time := by simp
  tables := by simp
  contacts := by simp
  intake := by simp
  circuit := s.recommitCircuit_other old h.symm
  raised := State.recommitCircuit_raised (Raised.refl _)

/-! ### The commit -/

/-- A commit of the cooling table visits each circuit as the completion found it. -/
theorem State.recommitCooling_visits (s : State) (old : Image) (c : CircuitNo) :
    ∃ u, CircuitKept c s u ∧ CircuitKept c (u.recommitCircuit old c) (s.recommitCooling old) :=
  foldl_visits CircuitKept.refl CircuitKept.trans (fun a _ h => a.recommitCircuit_keeps old h) nodup_circuitNos
    (mem_circuitNos c) s

/-- The end of an event moves of a circuit the water request alone, and of a circuit in TRIP only. -/
theorem EventEnd.circuit {s u t : State} {x : Causes} (h : EventEnd s u t x) (c : CircuitNo) :
    t.circuits[c] = u.circuits[c]
      ∨ u.circuits[c].state = .trip ∧ t.circuits[c] = { u.circuits[c] with water := true } := by
  by_cases wet : waterTested s u c ∧ u.circuits[c].state = .trip ∧ u.metalBehind c = true
  · exact .inr ⟨wet.2.1, h.water c wet.1 wet.2.1 wet.2.2⟩
  · exact .inl (h.circuits c wet)

theorem EventEnd.latched {s u t : State} {x : Causes} (h : EventEnd s u t x) : t.mgmt.latched = u.mgmt.latched := by
  rw [h.mgmt]

/-- A newly enabled circuit starts, but with a leak present it trips at once (R145, R142). -/
theorem State.enableCircuit_dry (s : State) (c : CircuitNo) (dry : s.contacts.ind.leak[c] = false) :
    (s.enableCircuit c).circuits[c] = { Circuit.cold with state := .starting, start := .running s.time } := by
  unfold State.enableCircuit State.circuitTest
  simp only [State.setCircuit_same, State.causePresent, State.setCircuit_contacts, dry, Bool.false_eq_true, if_false]

theorem State.enableCircuit_leak (s : State) (c : CircuitNo) (leak : s.contacts.ind.leak[c] = true) :
    s.enableCircuit c
      = (s.setCircuit c { Circuit.cold with state := .starting, start := .running s.time }).enterTrip c .leak := by
  unfold State.enableCircuit State.circuitTest
  simp only [State.setCircuit_same, State.causePresent, State.setCircuit_contacts, leak, if_true]

/-- A start timer that expires ends STARTING only with the pump running (R146). -/
theorem State.startExpire_waits (s : State) (c : CircuitNo)
    (waits : ¬(s.circuits[c].state = .starting ∧ s.contacts.ind.pumpRun[c] = true)) :
    (s.startExpire c).circuits[c] = { s.circuits[c] with start := .expired } := by
  unfold State.startExpire State.startingTest
  dsimp only
  rw [if_neg, State.setCircuit_same]
  rintro ⟨starting, _, pump⟩
  rw [State.setCircuit_same] at starting
  exact waits ⟨starting, pump⟩

theorem State.startExpire_ends (s : State) (c : CircuitNo)
    (ended : s.circuits[c].state = .starting ∧ s.contacts.ind.pumpRun[c] = true) :
    s.startExpire c = (s.setCircuit c { s.circuits[c] with start := .expired }).settleCircuit c := by
  unfold State.startExpire State.startingTest
  dsimp only
  rw [if_pos]
  rw [State.setCircuit_same]
  exact ⟨ended.1, rfl, ended.2⟩

theorem State.settleCircuit_levels (s : State) (c : CircuitNo) (none : s.firstCause c = none) :
    (s.settleCircuit c).circuits[c] = { s.circuits[c] with state := s.circuits[c].byLevels, start := .idle } := by
  unfold State.settleCircuit
  rw [none]
  exact State.setCircuit_same s c _

theorem State.settleCircuit_trips (s : State) (c : CircuitNo) {cause : TripCause} (some : s.firstCause c = some cause) :
    s.settleCircuit c = s.enterTrip c cause := by
  unfold State.settleCircuit
  rw [some]

theorem Circuit.byLevels_ne_trip (x : Circuit) : x.byLevels ≠ .trip := by
  unfold Circuit.byLevels
  dsimp only
  split
  · decide
  · split <;> decide

/-- What a commit leaves of a circuit `x` at a time, where it was left as `z` within the event: of a circuit in TRIP the
request may be set at its end. -/
def Circuit.leftAs (y z : Circuit) : Prop := y = z ∨ z.state = .trip ∧ y = { z with water := true }

theorem Circuit.leftAs.kept {y z : Circuit} (h : y.leftAs z) : y = { z with water := y.water } := by
  obtain rfl | ⟨_, rfl⟩ := h <;> rfl

theorem Circuit.leftAs.eq {y z : Circuit} (h : y.leftAs z) (ne : z.state ≠ .trip) : y = z :=
  h.resolve_right fun trip => ne trip.1

theorem Circuit.leftAs.tripped {y z : Circuit} (h : y.leftAs z) {now : Time} {cause : TripCause} {value : Option Int}
    (trip : z.trippedBy now cause value) : y.trippedBy now cause value := by
  obtain rfl | ⟨_, rfl⟩ := h <;> exact trip

/-- A start timer is due under a window. -/
def Circuit.startDue (x : Circuit) (now : Time) (window : Nat) : Prop :=
  ∃ t0, x.start = .running t0 ∧ window * 1000 ≤ (now - t0).toNat

theorem State.startDue_iff (s : State) (c : CircuitNo) :
    s.startDue c = true ↔ s.circuits[c].startDue s.time (s.cooling c).startWindow := by
  unfold State.startDue Circuit.startDue
  cases s.circuits[c].start with
  | idle => exact ⟨nofun, nofun⟩
  | expired => exact ⟨nofun, nofun⟩
  | running t0 =>
    refine ⟨fun h => ⟨t0, rfl, of_decide_eq_true h⟩, fun ⟨t1, same, h⟩ => ?_⟩
    obtain rfl := StartTimer.running.inj same
    exact decide_eq_true h

/-- A commit by the two enabled flags of a circuit (R150). -/
theorem State.recommitCircuit_eq (s : State) (old : Image) (c : CircuitNo) :
    s.recommitCircuit old c =
      if (coolingEntry old c).enabled = true then
        if (s.cooling c).enabled = true then if s.startDue c = true then s.startExpire c else s
        else s.setCircuit c Circuit.cold
      else if (s.cooling c).enabled = true then s.enableCircuit c else s := by
  unfold State.recommitCircuit
  cases (coolingEntry old c).enabled <;> cases (s.cooling c).enabled <;> rfl

/-- What a commit of the cooling table makes of a circuit `x`: `y`, with the causes present and indications of the state
`s` the completion found, and the flags of the old and the new entry (R150). -/
theorem State.recommitCooling_circuit {s0 t : State} {x : Causes} {old : Image}
    (ends : EventEnd s0 (s.recommitCooling old) t x) (c : CircuitNo) :
    let x := s.circuits[c]
    let y := t.circuits[c]
    let was := (coolingEntry old c).enabled
    let new := (s.cooling c).enabled
    let due := x.startDue s.time (s.cooling c).startWindow
    let ended := x.state = .starting ∧ s.contacts.ind.pumpRun[c] = true
    let latched := t.isLatched .circuitTrip (numberOf c) = true
    (was = false → new = false → y = { x with water := y.water })
    ∧ (was = false → new = true → s.contacts.ind.leak[c] = false →
      y = { Circuit.cold with state := .starting, start := .running s.time })
    ∧ (was = false → new = true → s.contacts.ind.leak[c] = true → y.trippedBy s.time .leak none ∧ latched)
    ∧ (was = true → new = false → y = Circuit.cold)
    ∧ (was = true → new = true → ¬due → y = { x with water := y.water })
    ∧ (was = true → new = true → due → ¬ended → y = { x with start := .expired, water := y.water })
    ∧ (was = true → new = true → due → ended → s.firstCause c = none →
      y = { x with state := x.byLevels, start := .idle })
    ∧ ∀ cause, was = true → new = true → due → ended → s.firstCause c = some cause →
      y.trippedBy s.time cause (x.causeValue cause) ∧ latched := by
  obtain ⟨u, before, after⟩ := s.recommitCooling_visits old c
  have cooling : u.cooling c = s.cooling c := by simp only [State.cooling, before.tables]
  have left {z : Circuit} (h : (u.recommitCircuit old c).circuits[c] = z) : t.circuits[c].leftAs z := by
    rw [← h, ← after.circuit]
    exact ends.circuit c
  have latched (h : latchedPair (u.recommitCircuit old c).mgmt.latched .circuitTrip (numberOf c)) :
      t.isLatched .circuitTrip (numberOf c) = true := by
    rw [State.isLatched_iff, ends.latched]
    exact after.raised.pair _ _ h
  have due_iff : u.startDue c = true ↔ s.circuits[c].startDue s.time (s.cooling c).startWindow := by
    rw [State.startDue_iff, before.circuit, before.time, cooling]
  have settled (due : s.circuits[c].startDue s.time (s.cooling c).startWindow)
      (was : (coolingEntry old c).enabled = true) (new : (s.cooling c).enabled = true) : u.recommitCircuit old c = u.startExpire c := by
    rw [State.recommitCircuit_eq, if_pos was, cooling, if_pos new, if_pos (due_iff.2 due)]
  have settling (ended : s.circuits[c].state = .starting ∧ s.contacts.ind.pumpRun[c] = true) :
      u.startExpire c = (u.setCircuit c { s.circuits[c] with start := .expired }).settleCircuit c := by
    rw [← before.circuit]
    exact u.startExpire_ends c (by rwa [before.circuit, before.contacts])
  have causes : (u.setCircuit c { s.circuits[c] with start := .expired }).firstCause c = s.firstCause c := by
    rw [← before.circuit, firstCause_congr (causePresent_start _)]
    exact firstCause_congr (causePresent_congr before.circuit before.contacts before.intake)
  refine ⟨fun was new => ?_, fun was new dry => ?_, fun was new leak => ?_, fun was new => ?_, fun was new still => ?_,
    fun was new due waits => ?_, fun was new due ended none => ?_, fun cause was new due ended some => ?_⟩
  · refine (left ?_).kept
    rw [State.recommitCircuit_eq, if_neg (by simp [was]), cooling, if_neg (by simp [new]), before.circuit]
  · refine (left ?_).eq (show CircuitState.starting ≠ .trip by decide)
    rw [State.recommitCircuit_eq, if_neg (by simp [was]), cooling, if_pos new,
      u.enableCircuit_dry c (by rw [before.contacts, dry]), before.time]
  · have trips : u.recommitCircuit old c
        = (u.setCircuit c { Circuit.cold with state := .starting, start := .running u.time }).enterTrip c .leak := by
      rw [State.recommitCircuit_eq, if_neg (by simp [was]), cooling, if_pos new,
        u.enableCircuit_leak c (by rw [before.contacts, leak])]
    refine ⟨(left rfl).tripped ?_, latched (trips ▸ State.enterTrip_latched _ c _)⟩
    rw [trips, ← before.time]
    exact State.enterTrip_same _ c .leak
  · refine (left ?_).eq (by decide)
    rw [State.recommitCircuit_eq, if_pos was, cooling, if_neg (by simp [new]), State.setCircuit_same]
  · refine (left ?_).kept
    rw [State.recommitCircuit_eq, if_pos was, cooling, if_pos new, if_neg (mt due_iff.1 still), before.circuit]
  · have expired := left (z := { s.circuits[c] with start := .expired }) (by
      rw [settled due was new, u.startExpire_waits c (by rwa [before.circuit, before.contacts]), before.circuit])
    exact expired.kept
  · refine (left ?_).eq (Circuit.byLevels_ne_trip s.circuits[c])
    rw [settled due was new, settling ended, State.settleCircuit_levels _ c (causes.trans none), State.setCircuit_same]
    rfl
  · have trips := settled due was new |>.trans (settling ended) |>.trans
      (State.settleCircuit_trips _ c (causes.trans some))
    refine ⟨(left rfl).tripped ?_, latched (trips ▸ State.enterTrip_latched _ c _)⟩
    have entered := State.enterTrip_same (u.setCircuit c { s.circuits[c] with start := .expired }) c cause
    rw [State.setCircuit_same] at entered
    rw [trips, ← before.time]
    have value : Circuit.causeValue { s.circuits[c] with start := .expired } cause
        = s.circuits[c].causeValue cause := by cases cause with
      | quantity q => cases q <;> rfl
      | leak | flowSwitch | stale k => rfl
    exact value ▸ entered

end Sys2Proof.Machine
end

section
/-! O60, the contact map (R54): the filtered levels under the new filter classes, the indications of the new map, and
the commanded levels under the new functions. -/

namespace Sys2Proof.Machine

variable {s : State} {i : InputNo}

/-- What an operation on another input keeps of one input, and of what decides it. -/
structure InputKept (i : InputNo) (a b : State) : Prop where
  time : b.time = a.time
  tables : b.tables = a.tables
  raw : b.contacts.raw = a.contacts.raw
  commanded : b.contacts.commanded = a.contacts.commanded
  filtered : b.contacts.filtered[i] = a.contacts.filtered[i]
  persistence : b.contacts.persistence[i] = a.contacts.persistence[i]

theorem InputKept.refl (s : State) : InputKept i s s := ⟨rfl, rfl, rfl, rfl, rfl, rfl⟩

theorem InputKept.trans {a b d : State} (h : InputKept i a b) (k : InputKept i b d) : InputKept i a d :=
  ⟨k.time.trans h.time, k.tables.trans h.tables, k.raw.trans h.raw, k.commanded.trans h.commanded,
    k.filtered.trans h.filtered, k.persistence.trans h.persistence⟩

theorem State.recommitInput_keeps (s : State) {j : InputNo} (h : j ≠ i) : InputKept i s (s.recommitInput j) := by
  have ne : j.val ≠ i.val := fun e => h (Fin.ext e)
  unfold State.recommitInput
  dsimp only
  split
  · constructor <;> simp [State.takeRaw, ne]
  · exact InputKept.refl s

/-- A timer that is due under the new class lets the raw level through (R54, step 1). -/
theorem State.recommitInput_due (s : State) (i : InputNo) (due : s.persistenceDue i = true) :
    (s.recommitInput i).contacts.filtered[i] = s.contacts.raw[i]
      ∧ (s.recommitInput i).contacts.persistence[i] = .idle := by
  unfold State.recommitInput
  rw [if_pos due]
  simp [State.takeRaw]

theorem mem_inputNos (i : InputNo) : i ∈ inputNos := by revert i; decide
theorem nodup_inputNos : inputNos.Nodup := by decide

/-- Step 1 of a commit, over every input. -/
def State.refiltered (s : State) : State := inputNos.foldl (fun s i => s.recommitInput i) s

theorem State.recommitContacts_eq (s : State) (old : Image) :
    s.recommitContacts old = s.refiltered.refreshIndications.recommitOutputs old := rfl

/-- The filtering of a commit visits each input as the completion found it. -/
theorem State.refiltered_visits (s : State) (i : InputNo) :
    ∃ u, InputKept i s u ∧ InputKept i (u.recommitInput i) s.refiltered :=
  foldl_visits InputKept.refl InputKept.trans (fun a _ h => a.recommitInput_keeps h) nodup_inputNos (mem_inputNos i) s

theorem State.refiltered_tables (s : State) : s.refiltered.tables = s.tables :=
  foldl_keeps (fun s => s.tables) _ (fun a i => by simp) inputNos s

theorem State.refiltered_commanded (s : State) : s.refiltered.contacts.commanded = s.contacts.commanded :=
  foldl_keeps (fun s => s.contacts.commanded) _ (fun a i => by simp) inputNos s

theorem State.recommitOutputs_commanded (s : State) (old : Image) (o : OutputNo) :
    (s.recommitOutputs old).contacts.commanded[o] =
      if (s.output o).function = fnManual ∧ (outputEntry old o).function ≠ fnManual then false
      else s.contacts.commanded[o] := by
  simp [State.recommitOutputs]

/-- The indications are read off the filtered levels and the map. -/
theorem indications_congr {a b : State} (tables : b.tables = a.tables)
    (filtered : b.contacts.filtered = a.contacts.filtered) : b.indications = a.indications := by
  have input : b.input = a.input := by
    funext i
    simp only [State.input, tables]
  have inputIs : b.inputIs = a.inputIs := by
    funext i fn subject
    simp only [State.inputIs, input]
  have active : b.active = a.active := by
    funext i
    simp only [State.active, input, filtered]
  unfold State.indications
  rw [input, inputIs, active]

theorem State.refreshIndications_contacts (s : State) :
    s.refreshIndications.contacts = { s.contacts with ind := s.indications } := by
  simp [State.refreshIndications]

theorem State.persistenceDue_iff (s : State) (i : InputNo) :
    s.persistenceDue i = true ↔
      ∃ t0, s.contacts.persistence[i] = .running t0 ∧ persistenceTime (s.input i).filter ≤ (s.time - t0).toNat := by
  unfold State.persistenceDue
  cases s.contacts.persistence[i] with
  | idle => exact ⟨nofun, nofun⟩
  | running t0 =>
    refine ⟨fun h => ⟨t0, rfl, of_decide_eq_true h⟩, fun ⟨t1, same, h⟩ => ?_⟩
    obtain rfl := Timer.running.inj same
    exact decide_eq_true h

/-- What a commit of the contact map leaves: levels, timers, indications, outputs (R54). -/
theorem State.recommitContacts_contacts {s0 t : State} {x : Causes} {old : Image}
    (ends : EventEnd s0 (s.recommitContacts old) t x) :
    t.contacts.raw = s.contacts.raw ∧ t.contacts.ind = t.indications
    ∧ (∀ i : InputNo,
      let due := ∃ t0, s.contacts.persistence[i] = .running t0
        ∧ persistenceTime (s.input i).filter ≤ (s.time - t0).toNat
      (due → t.contacts.filtered[i] = s.contacts.raw[i] ∧ t.contacts.persistence[i] = .idle)
      ∧ (¬due → t.contacts.filtered[i] = s.contacts.filtered[i]
        ∧ t.contacts.persistence[i] = s.contacts.persistence[i]))
    ∧ ∀ o : OutputNo, t.contacts.driven[o] = t.outputLevel o
      ∧ t.contacts.commanded[o] =
        if (s.output o).function = fnManual ∧ (outputEntry old o).function ≠ fnManual then false
        else s.contacts.commanded[o] := by
  have tables : t.tables = s.refiltered.tables := by rw [ends.tables]; simp [State.refiltered_tables]
  have filtered : t.contacts.filtered = s.refiltered.contacts.filtered := by
    rw [ends.contacts, State.recommitContacts_eq]
    simp only [State.recommitOutputs_frame, State.refreshIndications_contacts]
  have persistence : t.contacts.persistence = s.refiltered.contacts.persistence := by
    rw [ends.contacts, State.recommitContacts_eq]
    simp only [State.recommitOutputs_frame, State.refreshIndications_contacts]
  have indications : t.contacts.ind = s.refiltered.indications := by
    rw [ends.contacts, State.recommitContacts_eq]
    simp only [State.recommitOutputs_frame, State.refreshIndications_contacts]
  refine ⟨?_, indications.trans (indications_congr tables filtered).symm, fun i => ?_, fun o => ⟨ends.outputs o, ?_⟩⟩
  · rw [ends.contacts]
    simp
  · obtain ⟨u, before, after⟩ := s.refiltered_visits i
    have due_iff := u.persistenceDue_iff i
    have input : u.input i = s.input i := by simp only [State.input, before.tables]
    rw [before.persistence, before.time, input] at due_iff
    rw [filtered, persistence, after.filtered, after.persistence]
    refine ⟨fun due => ?_, fun waits => ?_⟩
    · rw [← before.raw]
      exact u.recommitInput_due i (due_iff.2 due)
    · have kept : u.recommitInput i = u := if_neg (mt due_iff.1 waits)
      rw [kept]
      exact ⟨before.filtered, before.persistence⟩
  · have commanded : t.contacts.commanded = (s.recommitContacts old).contacts.commanded := by rw [ends.contacts]
    have output : s.refiltered.refreshIndications.output o = s.output o := by
      simp only [State.output, State.refreshIndications_frame, State.refiltered_tables]
    rw [commanded, State.recommitContacts_eq, State.recommitOutputs_commanded, output,
      State.refreshIndications_contacts, State.refiltered_commanded]

end Sys2Proof.Machine
end

section
/-! O60, the point table (R40, R41): the live states that a commit carries over or starts, the expiries under shortened
limits, and the stale indications of the new table. -/

namespace Sys2Proof.Machine

variable {s : State} {i : PointNo}

/-! ### The steps of a commit -/

/-- The live states of the new table. -/
def State.renewed (s : State) (old : Image) : State :=
  { s with intake := { s.intake with live := Vector.ofFn fun i : PointNo => s.newLive old i } }

/-- The expiries of the points whose limit has been reached. -/
def State.flagged (s : State) : State := pointNos.foldl (fun s i => if s.staleDue i then s.flagStale i else s) s

/-- The stale indications recomputed, with the notices of those that changed. -/
def State.notified (s : State) : State :=
  staleKeys.foldl (fun u key => u.recommitNotice s.intake.stale s.staleIndications key) (s.withStale s.staleIndications)

theorem State.recommitPoints_eq (s : State) (old : Image) :
    s.recommitPoints old = circuitNos.foldl (fun s c => s.recheckPoints c) (s.renewed old).flagged.notified := by
  unfold State.recommitPoints State.notified State.flagged State.renewed
  dsimp only

theorem State.recommitNotice_intake (s : State) (a b : StaleInd) (key : StaleKey) :
    (s.recommitNotice a b key).intake = s.intake := by
  unfold State.recommitNotice
  split <;> simp

theorem State.recheckAll_intake (s : State) :
    (circuitNos.foldl (fun s c => s.recheckPoints c) s).intake = s.intake :=
  foldl_keeps (fun s : State => s.intake) (fun s c => s.recheckPoints c) (fun a c => by simp) circuitNos s

theorem State.notified_intake (s : State) : s.notified.intake = { s.intake with stale := s.staleIndications } :=
  foldl_keeps (fun s : State => s.intake) (fun u key => u.recommitNotice s.intake.stale s.staleIndications key)
    (fun a key => a.recommitNotice_intake _ _ key) staleKeys (s.withStale s.staleIndications)

/-- The notices and the checks of the circuits leave the point intake. -/
theorem State.recommitPoints_intake (s : State) (old : Image) :
    (s.recommitPoints old).intake =
      { (s.renewed old).flagged.intake with stale := (s.renewed old).flagged.staleIndications } := by
  rw [State.recommitPoints_eq, State.recheckAll_intake, State.notified_intake]

/-! ### One point -/

/-- What the expiry of another point keeps of one point. -/
structure PointKept (i : PointNo) (a b : State) : Prop where
  time : b.time = a.time
  tables : b.tables = a.tables
  live : b.intake.live[i] = a.intake.live[i]
  raised : Raised a.mgmt.latched b.mgmt.latched

theorem PointKept.refl (s : State) : PointKept i s s := ⟨rfl, rfl, rfl, Raised.refl _⟩

theorem PointKept.trans {a b d : State} (h : PointKept i a b) (k : PointKept i b d) : PointKept i a d :=
  ⟨k.time.trans h.time, k.tables.trans h.tables, k.live.trans h.live, h.raised.trans k.raised⟩

theorem State.flagStale_other (s : State) {j : PointNo} (h : j ≠ i) :
    (s.flagStale j).intake.live[i] = s.intake.live[i] := by
  unfold State.flagStale
  split
  · simp only [State.raise_frame, State.setLive_intake]
    exact Vector.getElem_set_ne j.isLt i.isLt (Fin.val_ne_of_ne h)
  · rfl

theorem mem_pointNos (i : PointNo) : i ∈ pointNos := List.mem_finRange i
theorem nodup_pointNos : pointNos.Nodup := List.nodup_finRange 128

theorem State.flagged_visits (s : State) (i : PointNo) :
    ∃ u, PointKept i s u ∧ PointKept i (if u.staleDue i then u.flagStale i else u) s.flagged := by
  refine foldl_visits (g := fun s i => if s.staleDue i then s.flagStale i else s) PointKept.refl PointKept.trans
    (fun a j h => ?_) nodup_pointNos (mem_pointNos i) s
  split
  · exact ⟨by simp, by simp, a.flagStale_other h, State.flagStale_raised (Raised.refl _)⟩
  · exact PointKept.refl a

theorem State.flagged_tables (s : State) : s.flagged.tables = s.tables :=
  foldl_keeps (fun s => s.tables) _ (fun a i => by split <;> simp) pointNos s

/-- The stale indications are read off the live states and the table. -/
theorem staleIndications_congr {a b : State} (tables : b.tables = a.tables) (live : b.intake.live = a.intake.live) :
    b.staleIndications = a.staleIndications := by
  have owned : b.ownedStale = a.ownedStale := by
    funext k n
    simp only [State.ownedStale, tables, live]
  unfold State.staleIndications
  rw [owned]

/-- A live state under a limit at a time. -/
def PointLive.under (q : PointLive) (limit : Nat) (now : Time) : PointLive :=
  { q with stale := decide (limit ≠ 0 ∧ (q.stale = true ∨ (limit ≠ 0 ∧ limit ≤ (now - q.staleRef).toNat))) }

theorem PointLive.fresh_under (now : Time) (limit : Nat) :
    (PointLive.fresh now).under limit now = PointLive.fresh now := by
  simp [PointLive.under, PointLive.fresh]

/-- What the expiries of a commit make of a point that came into the new table as `q`. -/
theorem State.flagged_live {q : PointLive} (used : (s.point i).used = true)
    (live : s.intake.live[i] = some (if (s.point i).limit = 0 then { q with stale := false } else q)) :
    s.flagged.intake.live[i] = some (q.under (s.point i).limit s.time)
    ∧ (q.stale = false → (s.point i).limit ≠ 0 → (s.point i).limit ≤ (s.time - q.staleRef).toNat →
      latchedPair s.flagged.mgmt.latched .stale i.val) := by
  obtain ⟨u, before, after⟩ := s.flagged_visits i
  have due_iff := u.staleDue_iff i
  rw [before.live, live, before.time, show u.point i = s.point i by simp only [State.point, before.tables]] at due_iff
  rw [after.live]
  by_cases limit : (s.point i).limit = 0
  · have still : ¬u.staleDue i = true := fun h => by
      obtain ⟨_, _, _, limited, _⟩ := due_iff.1 h
      exact limited limit
    rw [if_neg still, before.live, live, if_pos limit]
    exact ⟨by simp [PointLive.under, limit], fun _ limited => absurd limit limited⟩
  · rw [if_neg limit] at live due_iff
    have due_iff : u.staleDue i = true ↔ q.stale = false ∧ (s.point i).limit ≤ (s.time - q.staleRef).toNat := by
      rw [due_iff]
      simp [used, limit]
    by_cases due : u.staleDue i = true
    · obtain ⟨fresh, late⟩ := due_iff.1 due
      have flagged := State.flagStale_eq (s := u) (before.live.trans live)
      rw [if_pos due, flagged] at after ⊢
      refine ⟨?_, fun _ _ _ => after.raised.pair _ _ ((State.isLatched_iff _ _ _).1 (State.isLatched_raise _ _ _))⟩
      have turned : q.under (s.point i).limit s.time = { q with stale := true } :=
        congrArg (fun b => { q with stale := b }) (decide_eq_true ⟨limit, .inr ⟨limit, late⟩⟩)
      rw [turned]
      simp
    · rw [if_neg due, before.live, live]
      have keeps : q.stale = decide ((s.point i).limit ≠ 0 ∧ (q.stale = true
          ∨ ((s.point i).limit ≠ 0 ∧ (s.point i).limit ≤ (s.time - q.staleRef).toNat))) := by
        cases stale : q.stale with
        | true => simp [limit]
        | false => simpa [limit, stale] using mt due_iff.2 due
      refine ⟨?_, fun fresh _ late => absurd (due_iff.2 ⟨fresh, late⟩) due⟩
      rw [PointLive.under, ← keeps]

/-! ### What comes into the new table (R40) -/

/-- An entry of a table has the key and the kind of an entry. -/
def PointEntry.carries (o e : PointEntry) : Prop :=
  o.used = true ∧ o.station = e.station ∧ o.channel = e.channel ∧ o.kindCode = e.kindCode

/-- Whether an entry carries over is what the search for its old place decides. -/
theorem carries_iff (o e : PointEntry) :
    (o.used && decide (o.station = e.station) && decide (o.channel = e.channel)
      && decide (o.kindCode = e.kindCode)) = true ↔ o.carries e := by
  simp [PointEntry.carries, and_assoc]

theorem State.carried_none {old : Image} {e : PointEntry} (h : ∀ j, ¬(pointEntry old j).carries e) :
    s.carried old e = none := by
  unfold State.carried
  rw [List.find?_eq_none.2 fun j _ => (mt (carries_iff _ _).1 (h j))]
  rfl

theorem State.carried_one {old : Image} {e : PointEntry} {j : PointNo} (h : (pointEntry old j).carries e)
    (one : ∀ k, (pointEntry old k).carries e → k = j) : s.carried old e = s.intake.live[j] := by
  unfold State.carried
  cases found : pointNos.find? _ with
  | none => exact absurd ((carries_iff _ _).2 h) (List.find?_eq_none.1 found j (mem_pointNos j))
  | some k =>
    have holds := List.find?_some found
    obtain rfl := one k ((carries_iff _ _).1 holds)
    rfl

theorem State.renewed_live (s : State) (old : Image) (i : PointNo) :
    (s.renewed old).intake.live[i] = s.newLive old i := by
  simp [State.renewed]

theorem State.renewed_tables (s : State) (old : Image) : (s.renewed old).tables = s.tables := by
  simp only [State.renewed]

theorem State.renewed_time (s : State) (old : Image) : (s.renewed old).time = s.time := by
  simp only [State.renewed]

theorem State.renewed_point (s : State) (old : Image) (i : PointNo) : (s.renewed old).point i = s.point i := by
  simp only [State.point, State.renewed_tables]

/-- The notices and the checks of the circuits raise conditions and take none away. -/
theorem State.recommitPoints_latched (s : State) (old : Image) :
    Raised (s.renewed old).flagged.mgmt.latched (s.recommitPoints old).mgmt.latched := by
  rw [State.recommitPoints_eq]
  generalize (s.renewed old).flagged = u
  refine foldl_raised (fun _ _ h => State.recheckPoints_raised h) _ ?_
  unfold State.notified
  refine foldl_raised (fun _ _ h => State.recommitNotice_raised h) _ ?_
  rw [State.withStale_mgmt]
  exact Raised.refl _

/-- An entry that is used comes in with what it carries over, or starts. -/
theorem State.newLive_used {old : Image} (used : (s.point i).used = true) {q : PointLive}
    (carried : (s.carried old (s.point i)).getD (PointLive.fresh s.time) = q) :
    s.newLive old i = some (if (s.point i).limit = 0 then { q with stale := false } else q) := by
  unfold State.newLive
  dsimp only
  rw [if_pos used, carried]

/-- A point without live state has none after the expiries. -/
theorem State.flagged_unused (absent : s.intake.live[i] = none) : s.flagged.intake.live[i] = none := by
  obtain ⟨u, before, after⟩ := s.flagged_visits i
  have still : u.staleDue i ≠ true := fun due => by
    obtain ⟨q, live, _⟩ := (u.staleDue_iff i).1 due
    rw [before.live, absent] at live
    exact nomatch live
  rw [after.live, if_neg still, before.live, absent]

/-- What a commit of the point table leaves of the live state of a point (R40, R41). -/
theorem State.recommitPoints_point {s0 t : State} {x : Causes} {old : Image}
    (ends : EventEnd s0 (s.recommitPoints old) t x) (i : PointNo) :
    ((s.point i).used = false → t.intake.live[i] = none)
    ∧ ((s.point i).used = true → (∀ j, ¬(pointEntry old j).carries (s.point i)) →
      t.intake.live[i] = some (PointLive.fresh s.time))
    ∧ ∀ j q, (s.point i).used = true → (pointEntry old j).carries (s.point i) →
      (∀ k, (pointEntry old k).carries (s.point i) → k = j) → s.intake.live[j] = some q →
      t.intake.live[i] = some (q.under (s.point i).limit s.time)
      ∧ (q.stale = false → (s.point i).limit ≠ 0 → (s.point i).limit ≤ (s.time - q.staleRef).toNat →
        t.isLatched .stale i.val = true) := by
  have live : t.intake.live = (s.renewed old).flagged.intake.live := by
    rw [ends.intake, State.recommitPoints_intake]
  have latched : t.mgmt.latched = (s.recommitPoints old).mgmt.latched := ends.latched
  have kept {q : PointLive} (used : (s.point i).used = true)
      (carried : (s.carried old (s.point i)).getD (PointLive.fresh s.time) = q) :
      (s.renewed old).flagged.intake.live[i] = some (q.under (s.point i).limit s.time)
      ∧ (q.stale = false → (s.point i).limit ≠ 0 → (s.point i).limit ≤ (s.time - q.staleRef).toNat →
        latchedPair (s.renewed old).flagged.mgmt.latched .stale i.val) := by
    have came := State.flagged_live (s := s.renewed old) (i := i) (q := q)
    rw [State.renewed_point, State.renewed_time, State.renewed_live] at came
    exact came used (State.newLive_used used carried)
  rw [live]
  refine ⟨fun unused => State.flagged_unused ((s.renewed_live old i).trans ?_), fun used none => ?_,
    fun j q used carries one old_live => ?_⟩
  · unfold State.newLive
    dsimp only
    rw [if_neg (by simp [unused])]
  · have started : (s.carried old (s.point i)).getD (PointLive.fresh s.time) = PointLive.fresh s.time := by
      rw [State.carried_none none, Option.getD_none]
    rw [(kept used started).1, PointLive.fresh_under]
  · have carried : (s.carried old (s.point i)).getD (PointLive.fresh s.time) = q := by
      rw [State.carried_one carries one, old_live, Option.getD_some]
    obtain ⟨left, flags⟩ := kept used carried
    refine ⟨left, fun fresh limited late => ?_⟩
    rw [State.isLatched_iff, latched]
    exact (s.recommitPoints_latched old).pair _ _ (flags fresh limited late)

theorem State.recommitPoints_stale {s0 t : State} {x : Causes} {old : Image}
    (ends : EventEnd s0 (s.recommitPoints old) t x) : t.intake.stale = t.staleIndications := by
  rw [ends.intake, State.recommitPoints_intake]
  refine (staleIndications_congr ?_ ?_).symm
  · rw [ends.tables, State.flagged_tables, State.renewed_tables]
    simp only [State.recommitPoints_frame]
  · rw [ends.intake, State.recommitPoints_intake]

end Sys2Proof.Machine
end

section
/-! O60, the profile table (R77, R93, R94, R112): what a profile commit does to one furnace. Of its account and its
ordered power the re-anchoring and the reduction alone write anything (`FurnaceKept`), and each comes once. -/

namespace Sys2Proof.Machine

variable {s : State} {f : Furnace}

/-! ### The account of a heat -/

/-- What the energy account holds of a heat. -/
def Heat.account (h : Heat) : Nat × Nat × Nat × Option Nat × Option Int × Option Time × Bool :=
  (h.mass, h.energy, h.residue, h.progress, h.temp, h.anchor, h.uncertain)

theorem Heat.superheatTest_account (h : Heat) (now : Time) : (h.superheatTest now).account = h.account := by
  unfold Heat.superheatTest
  split
  · split <;> rfl
  · rfl

/-- The phase test leaves the account. -/
theorem Heat.phaseTest_account (h : Heat) (now : Time) : (h.phaseTest now).account = h.account := by
  unfold Heat.phaseTest
  split <;> exact Heat.superheatTest_account _ now

/-! ### What the other steps keep of a furnace -/

/-- The account and the ordered power of a furnace stay, with what a commit reads of the rest; the loop port takes
placements alone. -/
structure FurnaceKept (f : Furnace) (a b : State) : Prop where
  time : b.time = a.time
  tables : b.tables = a.tables
  params : b.mgmt.params = a.mgmt.params
  account : b.heats[f].account = a.heats[f].account
  ordered : b.power[f].ordered = a.power[f].ordered
  loop : Inserted a.loop b.loop

theorem FurnaceKept.refl (s : State) : FurnaceKept f s s := ⟨rfl, rfl, rfl, rfl, rfl, Inserted.refl _⟩

theorem FurnaceKept.trans {a b d : State} (h : FurnaceKept f a b) (k : FurnaceKept f b d) : FurnaceKept f a d :=
  ⟨k.time.trans h.time, k.tables.trans h.tables, k.params.trans h.params, k.account.trans h.account,
    k.ordered.trans h.ordered, h.loop.trans k.loop⟩

theorem FurnaceKept.fold {g : State → Furnace → State} (step : ∀ a k, FurnaceKept f a (g a k)) (l : List Furnace)
    (s : State) : FurnaceKept f s (l.foldl g s) := by
  induction l generalizing s with
  | nil => exact FurnaceKept.refl s
  | cons k rest ih => exact (step s k).trans (ih _)

/-- A heat record replaced by one of the same account. -/
theorem setHeat_account {k : Furnace} {h : Heat} (same : h.account = s.heats[k].account) :
    (s.setHeat k h).heats[f].account = s.heats[f].account := by
  by_cases e : k = f
  · subst e
    rw [State.setHeat_same, same]
  · rw [State.setHeat_other s h e]

/-- A power record replaced by one of the same ordered power. -/
theorem setPower_ordered {k : Furnace} {p : Power} (same : p.ordered = s.power[k].ordered) :
    (s.setPower k p).power[f].ordered = s.power[f].ordered := by
  by_cases e : k = f
  · subst e
    rw [State.setPower_same, same]
  · rw [State.setPower_other s p e]

theorem State.placeOrder_ordered (s : State) (k : Furnace) (c : OrderClass) :
    (s.placeOrder k c).power[f].ordered = s.power[f].ordered := by
  unfold State.placeOrder
  split
  · exact setPower_ordered rfl
  · rfl

theorem State.setIssued_ordered (s : State) (k : Furnace) (v : Nat) (c : OrderClass) :
    (s.setIssued k v c).power[f].ordered = s.power[f].ordered :=
  (State.placeOrder_ordered _ k c).trans (setPower_ordered rfl)

theorem State.rampExpire_ordered (s : State) (k : Furnace) :
    (s.rampExpire k).power[f].ordered = s.power[f].ordered := by
  unfold State.rampExpire
  refine (setPower_ordered ?_).trans ?_
  · rfl
  split
  · rfl
  · exact s.setIssued_ordered k _ _

theorem State.abandonOn_account (s : State) (p : Furnace → Bool) :
    (s.abandonOn p).heats[f].account = s.heats[f].account := by
  have abandoned (r : Pour) : (s.abandon r true).heats[f].account = s.heats[f].account := by
    have released : (s.abandon r true).heats = (s.releaseFurnace r).heats := by simp [State.abandon]
    rw [released]
    unfold State.releaseFurnace
    dsimp only
    refine (setHeat_account ?_).trans ?_
    · rfl
    · split <;> simp
  unfold State.abandonOn
  split
  · split
    · exact abandoned _
    · rfl
  · split
    · exact abandoned _
    · rfl
  · rfl

/-- The end of an event leaves the account and the ordered power of every furnace. -/
theorem State.settle_kept (s0 s : State) (x : Causes) : FurnaceKept f s (s0.settle s x) := by
  have ends := s0.settle_end s x
  refine ⟨ends.time, ends.tables, by rw [ends.mgmt], ?_, ends.ordered f, ends.inserted⟩
  obtain same | matched := ends.heat f
  · rw [same]
  · rw [matched]; rfl

theorem State.followExpire_kept (s : State) (k : Furnace) : FurnaceKept f s (s.followExpire k) where
  time := by simp
  tables := by simp
  params := by simp
  account := by
    refine (State.abandonOn_account _ _).trans ?_
    simp only [State.raise_frame, State.setPower_heats]
    exact setHeat_account rfl
  ordered := by
    unfold State.followExpire
    simp only [State.tapOnFollow_frame, State.raise_frame]
    exact setPower_ordered rfl
  loop := State.followExpire_inserted (Inserted.refl _)

theorem State.rampExpire_kept (s : State) (k : Furnace) : FurnaceKept f s (s.rampExpire k) where
  time := by simp
  tables := by simp
  params := by simp
  account := by simp
  ordered := s.rampExpire_ordered k
  loop := State.rampExpire_inserted (Inserted.refl _)

theorem State.followAtCommit_kept (s : State) (k : Furnace) : FurnaceKept f s (s.followAtCommit k) := by
  unfold State.followAtCommit
  split
  · exact (s.followExpire_kept k).trans (State.settle_kept s _ _)
  · exact FurnaceKept.refl s

theorem State.rampAtCommit_kept (s : State) (k : Furnace) : FurnaceKept f s (s.rampAtCommit k) := by
  unfold State.rampAtCommit
  split
  · exact (s.rampExpire_kept k).trans (State.settle_kept s _ _)
  · exact FurnaceKept.refl s

theorem State.holdAtCommit_kept (s : State) (k : Furnace) : FurnaceKept f s (s.holdAtCommit k) := by
  unfold State.holdAtCommit
  split
  · refine ⟨by simp, by simp, by simp, ?_, by simp, State.overheld_inserted (Inserted.refl _)⟩
    exact setHeat_account rfl
  · exact FurnaceKept.refl s

theorem State.suspendFollow_kept (s : State) (k : Furnace) : FurnaceKept f s (s.suspendFollow k) := by
  unfold State.suspendFollow
  split
  · exact ⟨rfl, rfl, rfl, rfl, setPower_ordered rfl, Inserted.refl _⟩
  · exact FurnaceKept.refl s

theorem State.compared_kept (s : State) : FurnaceKept f s s.compareAll.tapOnProfile where
  time := by simp
  tables := by simp
  params := by simp
  account := (State.abandonOn_account _ _).trans (by simp)
  ordered := by simp
  loop := State.tapOnProfile_inserted (by simpa using Inserted.refl _)

/-! ### The re-anchoring and the reduction, each once -/

theorem State.reanchorHeat_other (s : State) (old : Profile) {k : Furnace} (h : k ≠ f) :
    FurnaceKept f s (s.reanchorHeat old k) := by
  refine ⟨by simp, by simp, by simp, ?_, by simp, by simpa using Inserted.refl _⟩
  unfold State.reanchorHeat State.updateHeat
  rw [State.setHeat_other s _ h]

theorem State.reduceOrder_other (s : State) {k : Furnace} (h : k ≠ f) : FurnaceKept f s (s.reduceOrder k) := by
  refine ⟨by simp, by simp, by simp, by simp, ?_, by simpa using Inserted.refl _⟩
  unfold State.reduceOrder
  dsimp only
  rw [State.setPower_other s _ h]

/-- The account after the re-anchoring (R93, R94): the energy rewritten, the estimate recomputed. -/
theorem State.reanchorHeat_same (s : State) (old : Profile) (f : Furnace) :
    (s.reanchorHeat old f).heats[f].account
      = ((s.heats[f].reanchor old (s.profile f)).estimate (s.profile f)).account := by
  unfold State.reanchorHeat State.updateHeat
  rw [State.setHeat_same, Heat.phaseTest_account]

theorem State.reduceOrder_same (s : State) (f : Furnace) :
    (s.reduceOrder f).power[f].ordered = min s.power[f].ordered (s.profile f).rated := by
  unfold State.reduceOrder
  dsimp only
  rw [State.setPower_same]

/-- The re-anchoring reads of a heat its account alone. -/
theorem Heat.reanchor_account {h g : Heat} (old p : Profile) (same : h.account = g.account) :
    ((h.reanchor old p).estimate p).account = ((g.reanchor old p).estimate p).account := by
  simp only [Heat.account, Prod.mk.injEq] at same
  obtain ⟨mass, energy, residue, progress, temp, anchor, uncertain⟩ := same
  unfold Heat.reanchor
  rw [mass, progress, temp]
  split
  · simp only [Heat.account, Heat.estimate, mass, energy, residue, anchor, uncertain]
  · split <;> simp only [Heat.account, Heat.estimate, mass, energy, residue, anchor, uncertain]

/-! ### The orders at the new addresses (R112, steps 5 and 6) -/

/-- What the placing of another furnace's order keeps of a furnace's power, and on a busy link of its order slot. -/
structure OrderKept (f : Furnace) (a b : State) : Prop where
  kept : FurnaceKept f a b
  power : b.power[f] = a.power[f]
  order : ∀ x, a.loop.link = .sending x → b.loop.orders[f] = a.loop.orders[f]

theorem OrderKept.refl (s : State) : OrderKept f s s := ⟨FurnaceKept.refl s, rfl, fun _ _ => rfl⟩

theorem OrderKept.trans {a b d : State} (h : OrderKept f a b) (k : OrderKept f b d) : OrderKept f a d :=
  ⟨h.kept.trans k.kept, k.power.trans h.power,
    fun x busy => (k.order x (h.kept.loop.busy x busy).1).trans (h.order x busy)⟩

theorem State.replaceOrder_kept (s : State) (k : Furnace) : FurnaceKept f s (s.replaceOrder k) := by
  refine ⟨by simp, by simp, by simp, by simp, ?_, ?_⟩
  · unfold State.replaceOrder
    split
    · exact s.placeOrder_ordered k _
    · exact setPower_ordered rfl
  · unfold State.replaceOrder
    split
    · exact State.placeOrder_inserted (Inserted.refl _)
    · exact Inserted.refl _

theorem State.replaceOrder_other (s : State) {k : Furnace} (h : k ≠ f) : OrderKept f s (s.replaceOrder k) := by
  have ne : k.val ≠ f.val := Fin.val_ne_of_ne h
  refine ⟨s.replaceOrder_kept k, ?_, fun x busy => ?_⟩
  · unfold State.replaceOrder State.placeOrder
    split
    · exact State.setPower_other s _ h
    · exact State.setPower_other s _ h
  · unfold State.replaceOrder
    split
    next rated =>
      rw [State.placeOrder_busy (of_decide_eq_true rated) busy]
      exact Vector.getElem_set_ne k.isLt f.isLt ne
    next => rfl

/-- A rated furnace's refresh timer restarts. -/
theorem State.replaceOrder_refresh (s : State) (rated : 0 < (s.profile f).rated) :
    (s.replaceOrder f).power[f].refresh = .running s.time s.mgmt.params.orderRefresh := by
  have on : s.rated f = true := decide_eq_true rated
  unfold State.replaceOrder State.placeOrder
  rw [if_pos on, if_pos on]
  simp

/-- With the link busy a rated furnace's slot holds its issued power at its address. -/
theorem State.replaceOrder_order (s : State) (rated : 0 < (s.profile f).rated) {x : List Byte}
    (busy : s.loop.link = .sending x) : ∃ cls, (s.replaceOrder f).loop.orders[f] = some
      { value := (s.replaceOrder f).power[f].issued, station := (s.profile f).inverter,
        channel := (s.profile f).channel, cls := cls } := by
  have placed : s.replaceOrder f = s.placeOrder f .normal := if_pos (decide_eq_true rated)
  rw [placed, State.placeOrder_busy rated busy, mergeOrder_normal]
  simp

theorem State.replaceOrder_stops (s : State) (unrated : (s.profile f).rated = 0) :
    (s.replaceOrder f).power[f].refresh = .idle := by
  unfold State.replaceOrder
  rw [if_neg (by simp [State.rated, unrated]), State.setPower_same]

/-! ### The commit -/

theorem State.driveOutputs_kept (s : State) : OrderKept f s s.driveOutputs :=
  ⟨⟨by simp, by simp, by simp, by simp, by simp, by simpa using Inserted.refl _⟩, by simp, fun _ _ => by simp⟩

/-- A profile commit re-anchors each furnace once, then reduces its order once, then places its order once, and the
rest of it keeps the furnace. -/
theorem State.recommitProfiles_visits (s0 s : State) (f : Furnace) : ∃ u v w,
    FurnaceKept f s u ∧ FurnaceKept f (u.reanchorHeat (s0.profile f) f) v ∧ FurnaceKept f (v.reduceOrder f) w
      ∧ OrderKept f (w.replaceOrder f) (s0.recommitProfiles s) := by
  have anchored (s : State) := foldl_visits (g := fun s f => s.reanchorHeat (s0.profile f) f)
    FurnaceKept.refl FurnaceKept.trans (fun a k h => a.reanchorHeat_other (s0.profile k) h) nodup_furnaces
    (mem_furnaces f) s
  have reduced (s : State) := foldl_visits (g := fun s f => s.reduceOrder f)
    FurnaceKept.refl FurnaceKept.trans (fun a k h => a.reduceOrder_other h) nodup_furnaces (mem_furnaces f) s
  have placed (s : State) := foldl_visits (g := fun s f => s.replaceOrder f)
    OrderKept.refl OrderKept.trans (fun a k h => a.replaceOrder_other h) nodup_furnaces (mem_furnaces f) s
  have held (s : State) := FurnaceKept.fold (f := f) State.holdAtCommit_kept furnaces s
  have suspended (s : State) := FurnaceKept.fold (f := f) State.suspendFollow_kept furnaces s
  have followed (s : State) := FurnaceKept.fold (f := f) State.followAtCommit_kept furnaces s
  have ramped (s : State) := FurnaceKept.fold (f := f) State.rampAtCommit_kept furnaces s
  obtain ⟨u, before, after⟩ := anchored s
  unfold State.recommitProfiles
  dsimp only
  generalize furnaces.foldl (fun s f => s.reanchorHeat (s0.profile f) f) s = a at after ⊢
  have upto := (after.trans (held a)).trans (State.compared_kept _)
  generalize (furnaces.foldl (fun s f => s.holdAtCommit f) a).compareAll.tapOnProfile = b at upto ⊢
  obtain ⟨v, before', after'⟩ := reduced b
  generalize furnaces.foldl (fun s f => s.reduceOrder f) b = d at after' ⊢
  have later := ((after'.trans (suspended d)).trans (State.settle_kept s0 _ (Causes.testing furnaces))).trans
    ((followed _).trans (ramped _))
  generalize furnaces.foldl (fun (s : State) f => s.rampAtCommit f) _ = e at later ⊢
  obtain ⟨w, before'', after''⟩ := placed e
  exact ⟨u, v, w, before, upto.trans before', later.trans before''.kept, after''.trans (State.driveOutputs_kept _)⟩

/-! ### The re-anchored account (R93, R94) -/

theorem Heat.reanchor_fixed (h : Heat) (old p : Profile) :
    (h.reanchor old p).mass = h.mass ∧ (h.reanchor old p).anchor = h.anchor
      ∧ (h.reanchor old p).uncertain = h.uncertain := by
  unfold Heat.reanchor
  split
  · exact ⟨rfl, rfl, rfl⟩
  · split <;> exact ⟨rfl, rfl, rfl⟩

theorem Profile.sameAccount_iff (old p : Profile) : old.sameAccount p = true ↔
    p.meltEnergy = old.meltEnergy ∧ p.heatCapacity = old.heatCapacity ∧ p.liquidus = old.liquidus := by
  simp only [Profile.sameAccount, Bool.and_eq_true, decide_eq_true_eq, and_assoc]
  exact ⟨fun ⟨a, b, c⟩ => ⟨a.symm, b.symm, c.symm⟩, fun ⟨a, b, c⟩ => ⟨a.symm, b.symm, c.symm⟩⟩

/-- Below 100 kg, or with the constants as they were, the account is kept (log entry 30). -/
theorem Heat.reanchor_same {h : Heat} {old p : Profile} (kept : h.mass < 100 ∨ old.sameAccount p = true) :
    h.reanchor old p = h := if_pos kept

/-- With progress at 1000 the account is rewritten by Tp. -/
theorem Heat.reanchor_hot {h : Heat} {old p : Profile} {td : Int} (heavy : 100 ≤ h.mass)
    (changed : ¬old.sameAccount p = true) (progress : h.progress = some 1000) (temp : h.temp = some td) :
    h.reanchor old p = { h with energy := anchorEnergy p h.mass td, residue := 0 } := by
  unfold Heat.reanchor
  rw [if_neg (not_or.2 ⟨by omega, changed⟩)]
  split
  next t _ here =>
    obtain rfl := Option.some.inj (temp.symm.trans here)
    rfl
  next g level other => exact absurd (Option.some.inj (level.symm.trans progress)) (other td temp)
  next absent => exact nomatch absent.symm.trans progress

/-- With progress below 1000 the account is rewritten by it. -/
theorem Heat.reanchor_cool {h : Heat} {old p : Profile} {k : Nat} (heavy : 100 ≤ h.mass)
    (changed : ¬old.sameAccount p = true) (progress : h.progress = some k) (low : k < 1000) :
    h.reanchor old p = { h with energy := ceilDiv (k * h.mass * p.meltEnergy) 1000, residue := 0 } := by
  unfold Heat.reanchor
  rw [if_neg (not_or.2 ⟨by omega, changed⟩)]
  split
  next melted _ =>
    have level := Option.some.inj (melted.symm.trans progress)
    omega
  next g here _ =>
    obtain rfl := Option.some.inj (here.symm.trans progress)
    rfl
  next absent => exact nomatch absent.symm.trans progress

theorem ceilDiv_thousand (a : Nat) : ceilDiv a 1000 = (a + 999) / 1000 := by
  rw [ceilDiv, Nat.add_sub_assoc (by decide)]

theorem anchorEnergy_eq (p : Profile) (m : Nat) (td : Int) :
    anchorEnergy p m td = m * p.meltEnergy
      + ((max p.liquidus (min 1800 td) - p.liquidus).toNat * m * p.heatCapacity + 999) / 1000 := by
  rw [anchorEnergy, ceilDiv_thousand, meltEnergy, anchorTemp]

/-- What a profile commit leaves of a furnace: its account, its ordered power, its refresh timer and its order slot
(R93, R94, R112). -/
theorem State.recommitProfiles_furnace (s0 s : State) (f : Furnace) :
    (s0.recommitProfiles s).heats[f].account
        = ((s.heats[f].reanchor (s0.profile f) (s.profile f)).estimate (s.profile f)).account
      ∧ (s0.recommitProfiles s).power[f].ordered = min s.power[f].ordered (s.profile f).rated
      ∧ ((s.profile f).rated = 0 → (s0.recommitProfiles s).power[f].refresh = .idle)
      ∧ (0 < (s.profile f).rated →
        (s0.recommitProfiles s).power[f].refresh = .running s.time s.mgmt.params.orderRefresh
        ∧ ∀ x, s.loop.link = .sending x → ∃ cls, (s0.recommitProfiles s).loop.orders[f] = some
          { value := (s0.recommitProfiles s).power[f].issued, station := (s.profile f).inverter,
            channel := (s.profile f).channel, cls := cls }) := by
  obtain ⟨u, v, w, first, second, third, last⟩ := s0.recommitProfiles_visits s f
  have profile {a b : State} (h : b.tables = a.tables) : b.profile f = a.profile f := by
    simp only [State.profile, h]
  have tables_v : v.tables = s.tables := by rw [second.tables]; simp [first.tables]
  have tables_w : w.tables = s.tables := by rw [third.tables]; simp [tables_v]
  have time_w : w.time = s.time := by rw [third.time]; simp [second.time, first.time]
  have params_w : w.mgmt.params = s.mgmt.params := by rw [third.params]; simp [second.params, first.params]
  have loop_w : Inserted s.loop w.loop := by
    have anchored : Inserted u.loop v.loop := by simpa using second.loop
    have reduced : Inserted v.loop w.loop := by simpa using third.loop
    exact (first.loop.trans anchored).trans reduced
  refine ⟨?_, ?_, fun unrated => ?_, fun rated => ⟨?_, fun x busy => ?_⟩⟩
  · rw [last.kept.account, (w.replaceOrder_kept f).account, third.account]
    simp only [State.reduceOrder_frame]
    rw [second.account, State.reanchorHeat_same, profile first.tables]
    exact Heat.reanchor_account _ _ first.account
  · rw [last.kept.ordered, (w.replaceOrder_kept f).ordered, third.ordered, State.reduceOrder_same, profile tables_v,
      second.ordered]
    simp only [State.reanchorHeat_frame, first.ordered]
  · rw [last.power]
    exact w.replaceOrder_stops (by rw [profile tables_w, unrated])
  · rw [last.power, w.replaceOrder_refresh (by rwa [profile tables_w]), time_w, params_w]
  · obtain ⟨busy_w, _⟩ := loop_w.busy x busy
    obtain ⟨busy_p, _⟩ := (FurnaceKept.loop (f := f) (w.replaceOrder_kept f)).busy x busy_w
    rw [last.power, last.order x busy_p, ← profile tables_w]
    exact w.replaceOrder_order (by rwa [profile tables_w]) busy_w

end Sys2Proof.Machine
end

section
/-! O60. A passed commit (R39), table by table. -/

namespace Sys2Proof.Machine

/-- The state that a passed validation's completion found, with the record and the new active copy. -/
def State.activated (s : State) (n : TableNo) : State := (s.recordVerdict n .passed none).activate n

theorem exec_passed {s : State} {dt : Time} {n : TableNo} (pin : s.pinLow = false)
    (under : s.mgmt.validator.validating = some n) (passed : s.validate n = none) :
    exec (.validationComplete dt) s = .next
      ((s.advance dt).commitEffects ((s.advance dt).activated n) n (s.tables.copies n).active) := by
  refine (exec_validationComplete pin under).trans (congrArg Host.Outcome.next ?_)
  unfold State.completeValidation
  rw [show (s.advance dt).validate n = none from passed]
  rfl

/-- What an account re-anchored from `h` holds (R93, R94): the mass, the anchor time and the flag stay, the energy is
kept or rewritten, and the estimate is that of the new entry. -/
theorem Heat.reanchored_account {g h : Heat} {old new : Profile}
    (anchored : g.account = ((h.reanchor old new).estimate new).account) :
    let same := new.meltEnergy = old.meltEnergy ∧ new.heatCapacity = old.heatCapacity ∧ new.liquidus = old.liquidus
    g.mass = h.mass ∧ g.anchor = h.anchor ∧ g.uncertain = h.uncertain
    ∧ g.progress = progressOf new g.mass g.energy ∧ g.temp = tempOf new g.mass g.energy
    ∧ (h.mass < 100 ∨ same → g.energy = h.energy ∧ g.residue = h.residue)
    ∧ (∀ td, 100 ≤ h.mass → ¬same → h.progress = some 1000 → h.temp = some td → g.residue = 0
      ∧ g.energy = h.mass * new.meltEnergy
        + ((max new.liquidus (min 1800 td) - new.liquidus).toNat * h.mass * new.heatCapacity + 999) / 1000)
    ∧ ∀ k, 100 ≤ h.mass → ¬same → h.progress = some k → k < 1000 → g.residue = 0
      ∧ g.energy = (k * h.mass * new.meltEnergy + 999) / 1000 := by
  simp only [Heat.account, Heat.estimate, Prod.mk.injEq] at anchored
  obtain ⟨mass, energy, residue, progress, temp, anchor, uncertain⟩ := anchored
  obtain ⟨mass_kept, anchor_kept, uncertain_kept⟩ := h.reanchor_fixed old new
  have account := Profile.sameAccount_iff old new
  refine ⟨mass.trans mass_kept, anchor.trans anchor_kept, uncertain.trans uncertain_kept, ?_, ?_, fun kept => ?_,
    fun td heavy changed melted hot => ?_, fun k heavy changed level low => ?_⟩
  · rw [progress, mass, energy]
  · rw [temp, mass, energy]
  · rw [energy, residue, Heat.reanchor_same (kept.imp_right account.2)]
    exact ⟨rfl, rfl⟩
  · rw [energy, residue, Heat.reanchor_hot heavy (mt account.1 changed) melted hot]
    exact ⟨rfl, anchorEnergy_eq new h.mass td⟩
  · rw [energy, residue, Heat.reanchor_cool heavy (mt account.1 changed) level low]
    exact ⟨rfl, ceilDiv_thousand _⟩

/-- Settles O60: each table's commit treats every subject once, and the end of the event moves little of it. -/
theorem commitsActOnTheShop : Obligations.CommitsActOnTheShop := by
  unfold Obligations.CommitsActOnTheShop
  intro dt n s pin under passed
  refine ⟨_, exec_passed pin under passed, fun profile f => ?_, fun cooling c => ?_, fun point => ?_,
    fun contact => ?_⟩
  · subst profile
    obtain ⟨account, ordered, stops, placed⟩ :=
      (s.advance dt).recommitProfiles_furnace ((s.advance dt).activated .profile) f
    obtain ⟨mass, anchor, uncertain, progress, temp, kept, hot, cool⟩ := Heat.reanchored_account account
    exact ⟨mass, anchor, uncertain, progress, temp, kept, hot, cool, ordered, stops, placed⟩
  · subst cooling
    have ends := (s.advance dt).settle_end
      (((s.advance dt).activated .cooling).recommitCooling s.tables.cooling.active) Causes.none
    obtain ⟨kept, dry, leak, off, waits, expires, settles, trips⟩ := State.recommitCooling_circuit ends c
    refine ⟨kept, dry, fun was new wet => ?_, off, waits, expires, settles, fun cause was new due ended first => ?_⟩
    · obtain ⟨⟨state, start, trip⟩, latched⟩ := leak was new wet
      exact ⟨state, start, trip, latched⟩
    · obtain ⟨⟨state, start, trip⟩, latched⟩ := trips cause was new due ended first
      exact ⟨state, start, trip, latched⟩
  · subst point
    have ends := (s.advance dt).settle_end
      (((s.advance dt).activated .point).recommitPoints s.tables.point.active) Causes.none
    refine ⟨State.recommitPoints_stale ends, fun i => ?_⟩
    obtain ⟨unused, started, carried⟩ := State.recommitPoints_point ends i
    refine ⟨unused, started, fun j q used carries one live => ?_⟩
    obtain ⟨left, latched⟩ := carried j q used carries one live
    exact ⟨left, fun fresh ⟨limited, late⟩ => latched fresh limited late⟩
  · subst contact
    have ends := (s.advance dt).settle_end
      (((s.advance dt).activated .contact).recommitContacts s.tables.contact.active) Causes.none
    exact State.recommitContacts_contacts ends

end Sys2Proof.Machine
end

section
/-! O2. Every command is an event of its own time, or one of the reset pin; no event touches the waiting queue, the time
base or the pin (00_scope.md, Time base; R55). -/

namespace Sys2Proof.Machine

variable {s : State}

/-- What an event leaves of the waiting queue, the time base and the reset pin once its time has passed: all of it. -/
structure ClockKept (a b : State) : Prop where
  pending : b.pending = a.pending
  time : b.time = a.time
  pinLow : b.pinLow = a.pinLow

theorem ArrivalKeeps.clock (a : State) : ArrivalKeeps (ClockKept a) where
  loop _ _ h := ⟨h.pending, h.time, h.pinLow⟩
  frame _ _ h := ⟨h.pending, h.time, h.pinLow⟩
  command s i h := by
    obtain ⟨pending, time, pinLow, _⟩ := s.runCommand_frame i
    exact ⟨pending.trans h.pending, time.trans h.time, pinLow.trans h.pinLow⟩
  restart s h := by
    obtain ⟨pending, time, pinLow, _⟩ := s.warmRestart_frame
    exact ⟨pending.trans h.pending, time.trans h.time, pinLow.trans h.pinLow⟩
  overrun _ h := ⟨h.pending, h.time, h.pinLow⟩
  items s station seq order body h := by
    obtain ⟨pending, time, pinLow, _⟩ := s.items_frame station seq order body
    exact ⟨pending.trans h.pending, time.trans h.time, pinLow.trans h.pinLow⟩
  demand s d h := ⟨by simpa using h.pending, by simpa using h.time, by simpa using h.pinLow⟩
  cancel s i h := ⟨by simpa using h.pending, by simpa using h.time, by simpa using h.pinLow⟩
  malformed _ h := ⟨h.pending, h.time, h.pinLow⟩

theorem State.arrive_clock (s : State) (bytes : List Byte) : ClockKept s (s.arrive bytes) :=
  (ArrivalKeeps.clock s).arrive ⟨rfl, rfl, rfl⟩

theorem State.single_clock (s : State) (i : Instr) : ClockKept s ((s.openFrame 1).runCommand i).recorded := by
  obtain ⟨pending, time, pinLow, _⟩ := (s.openFrame 1).runCommand_frame i
  exact ⟨pending, time, pinLow⟩

/-- An operation that acts on a condition. -/
theorem ite_clock {p : Prop} [Decidable p] {t : State} (h : ClockKept s t) : ClockKept s (if p then t else s) := by
  split
  · exact h
  · exact ⟨rfl, rfl, rfl⟩

/-- An expiry keeps what its operation keeps. -/
theorem State.expire_clock {due : Bool} {k : State → State} (h : ClockKept s (k s)) : ClockKept s (s.expire due k) :=
  State.expire_keeps (P := ClockKept s)
    (fun _ _ h => ⟨by simpa using h.pending, by simpa using h.time, by simpa using h.pinLow⟩) (fun _ => h)
    ⟨rfl, rfl, rfl⟩

/-- A command that carries a time is an event of that time. -/
theorem exec_event {c : Instr} {dt : Time} (h : elapsed c = some dt) :
    ∃ k : State → State, (∀ s, exec c s = .next (s.event dt k)) ∧ ∀ u : State, ClockKept u (k u) := by
  have kept {k : State → State} (pending : ∀ u : State, (k u).pending = u.pending)
      (time : ∀ u : State, (k u).time = u.time) (pinLow : ∀ u : State, (k u).pinLow = u.pinLow) (u : State) :
      ClockKept u (k u) := ⟨pending u, time u, pinLow u⟩
  by_cases hc : (encodeCommand c).isSome = true
  · obtain ⟨dt', source, seq, rfl⟩ | ⟨dt', same, he⟩ := exec_command hc
    · obtain rfl := Option.some.inj h
      exact ⟨_, fun _ => rfl, kept (by simp) (by simp) (by simp)⟩
    · obtain rfl := Option.some.inj (same.symm.trans h)
      exact ⟨_, he, fun u => u.single_clock c⟩
  cases c
  case coldReset => exact nomatch h
  case resetPinHeldLow => exact nomatch h
  all_goals first | exact absurd rfl hc | obtain rfl := Option.some.inj h
  case frameArrival dt bytes => exact ⟨_, fun _ => rfl, fun u => u.arrive_clock bytes⟩
  case tableData dt bytes => exact ⟨_, fun _ => rfl, fun u => u.single_clock (.tableData dt bytes)⟩
  case linkCompletion =>
    refine ⟨_, fun _ => rfl, fun u => ?_⟩
    unfold State.completeLink
    split <;> exact ⟨rfl, rfl, rfl⟩
  case validationComplete =>
    refine ⟨_, fun _ => rfl, fun u => ?_⟩
    unfold State.finishValidation
    split
    · exact ⟨by simp, by simp, by simp⟩
    · exact ⟨rfl, rfl, rfl⟩
  case rawLevelChange => exact ⟨_, fun _ => rfl, kept (by simp) (by simp) (by simp)⟩
  case loopSilenceExpiry => exact ⟨_, fun _ => rfl, fun u => ite_clock ⟨by simp, by simp, by simp⟩⟩
  case refreshTimerExpiry => exact ⟨_, fun _ => rfl, fun u => ite_clock ⟨by simp, by simp, by simp⟩⟩
  case returnTimerExpiry => exact ⟨_, fun _ => rfl, fun u => ite_clock ⟨by simp, by simp, by simp⟩⟩
  all_goals exact ⟨_, fun _ => rfl, fun u => u.expire_clock ⟨by simp, by simp, by simp⟩⟩

/-- Settles O2: a command with a time is an event, which acts only with the reset pin high and then keeps queue, time
base and pin; the two commands of the pin keep the queue. -/
theorem commandsKeepQueueAndClock : Obligations.CommandsKeepQueueAndClock := by
  unfold Obligations.CommandsKeepQueueAndClock
  intro c s
  cases timed : elapsed c with
  | some dt =>
    obtain ⟨k, acts, keeps⟩ := exec_event timed
    refine ⟨_, acts s, ?_⟩
    cases pin : s.pinLow with
    | true =>
      have idle : s.event dt k = s := if_pos pin
      rw [idle]
      exact ⟨rfl, fun _ _ => ⟨fun _ => rfl, nofun⟩⟩
    | false =>
      rw [s.event_high pin]
      obtain ⟨pending, time, pinLow⟩ := keeps (s.advance dt)
      refine ⟨pending, fun dt' same => ⟨nofun, fun _ => ⟨?_, pinLow.trans pin⟩⟩⟩
      obtain rfl := Option.some.inj same
      exact time
  | none =>
    cases c
    case coldReset => exact ⟨_, rfl, rfl, nofun⟩
    case resetPinHeldLow => exact ⟨_, rfl, rfl, nofun⟩
    all_goals exact nomatch timed

end Sys2Proof.Machine
end

section
/-! O10. Every command leaves every output at its level (R50 to R54): the end of an event drives them all, and what does
not end one moves nothing that a level is read off. -/

namespace Sys2Proof.Machine

variable {s t : State}

/-! ### What a level is read off -/

/-- Nothing that an output's level is read off has moved, and no output has. -/
structure OutputsKept (a b : State) : Prop where
  pinLow : b.pinLow = a.pinLow
  map : b.tables.contact.active = a.tables.contact.active
  driven : b.contacts.driven = a.contacts.driven
  commanded : b.contacts.commanded = a.contacts.commanded
  frozen : b.contacts.frozen = a.contacts.frozen
  heats : b.heats = a.heats
  circuits : b.circuits = a.circuits
  ready : b.taps.ready = a.taps.ready
  run : b.watch.run = a.watch.run
  expired : b.watch.state = .expired ↔ a.watch.state = .expired

theorem OutputsKept.refl (s : State) : OutputsKept s s := ⟨rfl, rfl, rfl, rfl, rfl, rfl, rfl, rfl, rfl, Iff.rfl⟩

theorem OutputsKept.outputLevel (h : OutputsKept s t) (o : OutputNo) : t.outputLevel o = s.outputLevel o := by
  have entry : t.output o = s.output o := by unfold State.output; rw [h.map]
  have manual : t.manualLevel o = s.manualLevel o := by
    unfold State.manualLevel
    simp only [entry, h.expired, h.frozen, h.commanded]
  have alarm : t.alarm = s.alarm := by
    unfold State.alarm
    rw [h.circuits, h.heats]
  unfold State.outputLevel
  simp only [entry, manual, alarm, h.circuits, h.run, h.ready]

theorem OutputsKept.outputsSafe (kept : OutputsKept s t) (h : s.outputsSafe) : t.outputsSafe := fun pin o => by
  rw [kept.driven, kept.outputLevel o]
  exact h (kept.pinLow.symm.trans pin) o

/-- The level of a MANUAL output (R50). -/
theorem State.outputLevel_manual {o : OutputNo} (manual : (s.output o).function = fnManual) :
    s.outputLevel o = s.manualLevel o := by
  unfold State.outputLevel
  simp [manual, fnManual, fnEmergencyWater, fnSupplyTrip, fnAlarm, fnReadyLamp]

/-- The end of an event drives every output (R50). -/
theorem State.settle_outputsSafe (s0 s : State) (x : Causes) : (s0.settle s x).outputsSafe :=
  fun _ => (State.settle_end s0 s x).outputs

theorem State.driveOutputs_outputsSafe (s : State) : s.driveOutputs.outputsSafe := fun _ => s.driveOutputs_level

/-! ### Commands -/

theorem State.itemSetParameter_outputsSafe {n : Byte} {v : BitVec 32} (h : s.outputsSafe) :
    (s.itemSetParameter n v).state.outputsSafe := by
  unfold State.itemSetParameter
  dsimp only
  split
  · exact h
  · split_ifs
    · exact h
    · exact h
    · exact h
    · exact h
    · exact settle_outputsSafe _ _ _

theorem State.itemResetCircuit_outputsSafe {n : Byte} (h : s.outputsSafe) :
    (s.itemResetCircuit n).state.outputsSafe := by
  unfold State.itemResetCircuit
  split
  · exact h
  · exact ite_item_keeps (ite_item_keeps h (settle_outputsSafe _ _ _)) h

/-- A heartbeat moves the watchdog between EXPECT_A and EXPECT_B. -/
theorem State.beat_kept (s : State) : OutputsKept s s.beat := by
  unfold State.beat
  split
  next was => exact ⟨rfl, rfl, rfl, rfl, rfl, rfl, rfl, rfl, rfl, by simp [was]⟩
  next was => exact ⟨rfl, rfl, rfl, rfl, rfl, rfl, rfl, rfl, rfl, by simp [was]⟩
  · exact OutputsKept.refl s
  · exact OutputsKept.refl s
  · exact OutputsKept.refl s

theorem State.itemSetOutput_outputsSafe {n level : Byte} (h : s.outputsSafe) :
    (s.itemSetOutput n level).state.outputsSafe := by
  unfold State.itemSetOutput
  split
  · exact h
  · exact ite_item_keeps h (ite_item_keeps h (ite_item_keeps h (driveOutputs_outputsSafe _)))

theorem State.itemWdStart_outputsSafe (h : s.outputsSafe) : s.itemWdStart.state.outputsSafe := by
  unfold State.itemWdStart
  split
  · exact settle_outputsSafe _ _ _
  · exact settle_outputsSafe _ _ _
  · exact h
  · exact h
  · exact h

theorem State.itemWdForce_outputsSafe (h : s.outputsSafe) : s.itemWdForce.state.outputsSafe := by
  unfold State.itemWdForce
  split
  · exact settle_outputsSafe _ _ _
  · exact settle_outputsSafe _ _ _
  · exact settle_outputsSafe _ _ _
  · exact settle_outputsSafe _ _ _
  · exact h

theorem State.itemWdRestart_outputsSafe (h : s.outputsSafe) : s.itemWdRestart.state.outputsSafe := by
  unfold State.itemWdRestart
  split
  · exact settle_outputsSafe _ _ _
  · exact h
  · exact h
  · exact h
  · exact h

theorem State.itemAllStop_outputsSafe {b : Bool} {source : Byte} (h : s.outputsSafe) :
    (s.itemAllStop b source).state.outputsSafe := by
  unfold State.itemAllStop
  split
  · exact settle_outputsSafe _ _ _
  · exact h

/-- Table data and RELOAD STAGING write a staging copy, and no level is read off one. -/
theorem Tables.setCopies_contact_active (t : Tables) (n : TableNo) (c : Copies) (h : c.active = (t.copies n).active) :
    (t.setCopies n c).contact.active = t.contact.active := by
  cases n
  case contact => exact h
  all_goals rfl

theorem State.itemTableData_kept (s : State) (bytes : List Byte) : OutputsKept s (s.itemTableData bytes).state := by
  refine ⟨by simp, ?_, by simp, by simp, by simp, by simp, by simp, by simp, by simp, by simp⟩
  unfold State.itemTableData
  split
  · rfl
  · split
    · rfl
    · split
      · rfl
      · split
        · rfl
        · exact Tables.setCopies_contact_active _ _ _ rfl

theorem State.itemReloadStaging_kept (s : State) : OutputsKept s s.itemReloadStaging.state := by
  refine ⟨by simp, ?_, by simp, by simp, by simp, by simp, by simp, by simp, by simp, by simp⟩
  unfold State.itemReloadStaging
  split
  · rfl
  · split
    · rfl
    · split
      · rfl
      · exact Tables.setCopies_contact_active _ _ _ rfl

theorem State.runCommand_outputsSafe (s : State) (i : Instr) (h : s.outputsSafe) :
    (s.runCommand i).state.outputsSafe := by
  have settled {u : State} {x : Causes} : (s.settle u x).outputsSafe := settle_outputsSafe _ _ _
  have quiet {u : State} (kept : OutputsKept s u) : u.outputsSafe := kept.outputsSafe h
  cases i
  case setParameter => exact itemSetParameter_outputsSafe h
  case openHeat => exact onFurnace_keeps h fun _ => ite_item_keeps h (ite_item_keeps h settled)
  case drain => exact onFurnace_keeps h fun _ => ite_item_keeps h settled
  case setMass => exact onFurnace_keeps h fun _ => ite_item_keeps h (ite_item_keeps h settled)
  case setBand => exact onFurnace_keeps h fun _ => ite_item_keeps h (ite_item_keeps h settled)
  case approve => exact onFurnace_keeps h fun _ => ite_item_keeps h (ite_item_keeps h (ite_item_keeps h settled))
  case revoke => exact onFurnace_keeps h fun _ => settled
  case resetFurnace => exact onFurnace_keeps h fun _ => ite_item_keeps h (ite_item_keeps h settled)
  case resetCircuit => exact itemResetCircuit_outputsSafe h
  case wdStart => exact itemWdStart_outputsSafe h
  case heartbeat => exact ite_item_keeps (ite_item_keeps (s.beat_kept.outputsSafe h) settled) h
  case wdPause => exact ite_item_keeps h (ite_item_keeps h settled)
  case wdForce => exact itemWdForce_outputsSafe h
  case wdRestart => exact itemWdRestart_outputsSafe h
  case allStop => exact itemAllStop_outputsSafe h
  case resume => exact ite_item_keeps h (ite_item_keeps h settled)
  case releaseTaps => exact ite_item_keeps settled h
  case setOutput => exact itemSetOutput_outputsSafe h
  case tableData dt bytes => exact quiet (s.itemTableData_kept bytes)
  case reloadStaging => exact quiet s.itemReloadStaging_kept
  all_goals
    refine quiet ⟨?_, ?_, ?_, ?_, ?_, ?_, ?_, ?_, ?_, ?_⟩
    all_goals simp [State.runCommand]

/-! ### Arrivals -/

theorem State.matchedItem_outputsSafe {i : PointNo} {seq : Byte} {it : SampleItem} (h : s.outputsSafe) :
    (s.matchedItem i seq it).outputsSafe := by
  unfold State.matchedItem
  dsimp only
  split_ifs
  · exact h
  · exact settle_outputsSafe _ _ _
  · exact settle_outputsSafe _ _ _

theorem State.item_outputsSafe {station seq : Byte} {order : Bool} {it : SampleItem} (h : s.outputsSafe) :
    (s.item station seq order it).outputsSafe := by
  unfold State.item
  split
  · exact matchedItem_outputsSafe h
  · exact h

theorem State.items_outputsSafe {station seq : Byte} {order : Bool} {body : List Byte} (h : s.outputsSafe) :
    (s.items station seq order body).outputsSafe := by
  have taken : ((sampleItems body).foldl (fun s it => s.item station seq order it) s).outputsSafe :=
    List.foldlRecOn _ _ h fun _ hu _ _ => item_outputsSafe hu
  unfold State.items
  dsimp only
  split
  · exact taken
  · exact taken

theorem ArrivalKeeps.outputsSafe : ArrivalKeeps State.outputsSafe where
  loop _ _ h := h
  frame _ _ h := h
  command := State.runCommand_outputsSafe
  restart _ _ := State.driveOutputs_outputsSafe _
  overrun _ h := h
  items _ _ _ _ _ h := State.items_outputsSafe h
  demand _ _ _ := State.settle_outputsSafe _ _ _
  cancel _ _ _ := State.settle_outputsSafe _ _ _
  malformed _ h := h

/-! ### Events -/

theorem State.placeStatus_kept (s : State) (k : StatusKind) (d : Option Byte) (f : Option Furnace) (p : Option Nat) :
    OutputsKept s (s.placeStatus k d f p) := by
  constructor <;> simp

theorem State.placeOrder_kept (s : State) (f : Furnace) (c : OrderClass) : OutputsKept s (s.placeOrder f c) := by
  constructor <;> simp

theorem State.finishValidation_outputsSafe (h : s.outputsSafe) : s.finishValidation.outputsSafe := by
  unfold State.finishValidation State.completeValidation
  split
  · split
    · exact h
    · unfold State.commitEffects
      split
      · exact settle_outputsSafe _ _ _
      · exact driveOutputs_outputsSafe _
      · exact settle_outputsSafe _ _ _
      · exact settle_outputsSafe _ _ _
  · exact h

theorem State.expire_outputsSafe {due : Bool} {k : State → State} (h : s.outputsSafe) :
    (s.expire due k).outputsSafe := by
  unfold State.expire
  split
  · exact settle_outputsSafe _ _ _
  · exact h

theorem State.returnExpire_outputsSafe (s : State) : s.returnExpire.outputsSafe := by
  unfold State.returnExpire
  split
  · exact (State.placeStatus_kept _ _ _ _ _).outputsSafe (settle_outputsSafe _ _ _)
  · exact settle_outputsSafe _ _ _

/-- Every command leaves every output at its level. -/
theorem State.exec_outputsSafe {c : Instr} (h : s.outputsSafe) (ht : exec c s = .next t) : t.outputsSafe := by
  have event {dt : Time} {k : State → State} (hk : ∀ u : State, u.outputsSafe → (k u).outputsSafe) :
      (s.event dt k).outputsSafe := State.event_keeps (fun _ hu => hu) hk h
  by_cases hc : (encodeCommand c).isSome = true
  · obtain ⟨dt, source, seq, rfl⟩ | ⟨dt, _, he⟩ := exec_command hc
    · obtain rfl := Host.Outcome.next.inj ht
      exact event fun u hu => ArrivalKeeps.outputsSafe.restartCommand hu
    · rw [he s] at ht
      obtain rfl := Host.Outcome.next.inj ht
      exact event fun u hu => (u.openFrame 1).runCommand_outputsSafe c hu
  cases c
  all_goals first | exact absurd rfl hc | obtain rfl := Host.Outcome.next.inj ht
  case coldReset a r raw =>
    obtain ⟨t, cold, _, _, _, _, _, outputs, _⟩ := coldResetMeetsInvariants a r raw s
    obtain rfl := Host.Outcome.next.inj cold
    exact outputs
  case resetPinHeldLow => exact nofun
  case frameArrival => exact event fun _ => ArrivalKeeps.outputsSafe.arrive
  case linkCompletion => exact event fun u hu => by unfold State.completeLink; split <;> exact hu
  case validationComplete => exact event fun _ => finishValidation_outputsSafe
  case rawLevelChange => exact event fun _ _ => settle_outputsSafe _ _ _
  case loopSilenceExpiry => exact event fun u hu => by split <;> exact hu
  case refreshTimerExpiry =>
    exact event fun u hu => by
      split
      · exact (u.placeOrder_kept _ _).outputsSafe hu
      · exact hu
  case returnTimerExpiry =>
    exact event fun u hu => by
      split
      · exact u.returnExpire_outputsSafe
      · exact hu
  case tableData dt bytes => exact event fun u hu => (u.openFrame 1).runCommand_outputsSafe (.tableData dt bytes) hu
  all_goals exact event fun _ => expire_outputsSafe

/-- Settles O10: a command either ends in an event's end, which drives every output, or moves nothing that a level is
read off. -/
theorem outputsFollowTheirFunctions : Obligations.OutputsFollowTheirFunctions := by
  unfold Obligations.OutputsFollowTheirFunctions
  intro s t h ht
  unfold step at ht
  split at ht
  · obtain rfl := Host.Outcome.next.inj ht
    exact h
  next c rest _ => exact State.exec_outputsSafe (s := s.withPending rest) h ht

end Sys2Proof.Machine
end

section
/-! O26 and O27. The contact unit's commands (R48, R52) as single items. -/

namespace Sys2Proof.Machine

variable {s : State} {dt : Time}

/-- The latch's data fits the room of a frame of one item. -/
theorem changeData_fits (c : Contacts) :
    (encOpt 7 encSnapshot c.snapshot ++ encFlag c.changePending ++ encFlag c.overrun).length ≤ 45 := by
  simp only [List.length_append, encOpt_length width_encSnapshot, encFlag_length]
  decide

/-- Removing a pair keeps every other one. -/
theorem State.unlatch_eq (s : State) (k : Kind) (n : Nat) : s.unlatch k n = s.withMgmt { s.mgmt with
    latched := s.mgmt.latched.filter fun x => decide (¬(x.kind = k ∧ x.subject = n)) } := by
  simp only [State.unlatch, decide_not, Bool.decide_and]

/-- Settles O26: the data always fits, so the command is taken. -/
theorem changesAreAcknowledged : Obligations.ChangesAreAcknowledged := by
  unfold Obligations.ChangesAreAcknowledged
  intro dt s pin
  have acts : exec (.ackChange dt) s = .next (((s.advance dt).openFrame 1).itemAckChange).recorded :=
    congrArg Host.Outcome.next (State.single_high pin)
  rw [acts, State.itemAckChange, State.answer_opened (changeData_fits _), State.unlatch_eq]
  rfl

/-- SET OUTPUT on a MANUAL output that its safe mode does not hold takes the level (R52, R53). -/
theorem State.itemSetOutput_taken {n level : Byte} {o : OutputNo} (h : outputOf n.toNat = some o)
    (bit : level.toNat ≤ 1) (manual : (s.output o).function = fnManual)
    (free : ¬(s.watch.state = .expired ∧ ((s.output o).mode = modeHold ∨ (s.output o).mode = modeSafe))) :
    s.itemSetOutput n level = .ok (s.withContacts { s.contacts with
      commanded := s.contacts.commanded.set o (decide (level = 1)) }).driveOutputs := by
  unfold State.itemSetOutput
  rw [h]
  dsimp only
  rw [if_neg (Nat.not_lt.2 bit), if_neg (not_not.2 manual), if_neg free]

/-- A MANUAL output that its safe mode does not hold follows its commanded level (R52, R53). -/
theorem State.outputLevel_commanded {o : OutputNo} (manual : (s.output o).function = fnManual)
    (free : ¬(s.watch.state = .expired ∧ ((s.output o).mode = modeHold ∨ (s.output o).mode = modeSafe))) :
    s.outputLevel o = s.contacts.commanded[o] := by
  rw [State.outputLevel_manual manual]
  unfold State.manualLevel
  split_ifs with expired hold safe
  · exact absurd ⟨expired, .inl hold⟩ free
  · exact absurd ⟨expired, .inr safe⟩ free
  · rfl
  · rfl

/-- Settles O27: the refusals in R52's order, and the taken level, which drives the output. -/
theorem manualOutputsAreSet : Obligations.ManualOutputsAreSet := by
  unfold Obligations.ManualOutputsAreSet
  intro dt n level s pin
  have refused {r : Result} (h : ((s.advance dt).openFrame 1).itemSetOutput n level
      = .plain ((s.advance dt).openFrame 1) r) : exec (.setOutput dt n level) s = .next (s.refused dt r) :=
    congrArg Host.Outcome.next (State.single_plain pin h)
  refine ⟨fun none => refused ?_, fun o some => ⟨fun high => refused ?_, fun bit barred => refused ?_,
    fun bit manual free => ?_⟩⟩
  · simp only [State.itemSetOutput, none]
  · simp only [State.itemSetOutput, some, if_pos high]
  · simp only [State.itemSetOutput, some, if_neg (Nat.not_lt.2 bit)]
    by_cases manual : (s.output o).function = fnManual
    · exact (if_neg (not_not.2 manual)).trans (if_pos (barred.resolve_left (not_not.2 manual)))
    · exact if_pos manual
  · have acts : exec (.setOutput dt n level) s
        = .next (((s.advance dt).openFrame 1).itemSetOutput n level).recorded :=
      congrArg Host.Outcome.next (State.single_high pin)
    rw [State.itemSetOutput_taken some bit (by exact manual) (by exact free)] at acts
    refine ⟨_, acts, rfl, State.driveOutputs_level _, ?_⟩
    refine (State.driveOutputs_level _ o).trans ?_
    rw [State.outputLevel_commanded (by exact manual) (by exact free)]
    exact Vector.getElem_set_self _

end Sys2Proof.Machine
end

section
/-! O24, O25. Filtering (R44), the indications (R45) and the change latch (R46, R47). -/

namespace Sys2Proof.Machine

variable {s : State} {dt : Time} {i : InputNo}

/-- The end of an event reads no time of the state that the event found. -/
theorem State.settle_advance (s u : State) (dt : Time) (x : Causes) : (s.advance dt).settle u x = s.settle u x := rfl

/-- A raw level change is an event that always ends. -/
theorem exec_rawLevelChange {closed : Bool} (pin : s.pinLow = false) :
    exec (.rawLevelChange dt i closed) s = .next (s.settle ((s.advance dt).rawChange i closed) Causes.none) := by
  show Host.Outcome.next (s.event dt _) = _
  rw [State.event_high pin, State.settle_advance]

theorem exec_persistenceTimerExpiry (pin : s.pinLow = false) :
    exec (.persistenceTimerExpiry dt i) s =
      .next ((s.advance dt).expire ((s.advance dt).persistenceDue i) fun u => u.filteredChange i) :=
  congrArg Host.Outcome.next (State.event_high pin)

/-- The indications after a change of a filtered level are those of the new levels (R45). -/
theorem State.filteredChange_levels (s : State) (i : InputNo) :
    (s.filteredChange i).contacts.filtered = s.contacts.filtered.set i s.contacts.raw[i]
      ∧ (s.filteredChange i).contacts.persistence = s.contacts.persistence.set i .idle
      ∧ (s.filteredChange i).contacts.ind = (s.filteredChange i).indications := by
  have indications : (s.filteredChange i).indications = (s.takeRaw i).indications :=
    indications_congr (by simp [State.filteredChange]) (by simp [State.filteredChange])
  rw [indications]
  simp [State.filteredChange, State.refreshIndications_contacts, State.takeRaw]

/-- What a change of a filtered level leaves of the contact unit and the tables at the end of its event. -/
theorem EventEnd.filteredChange {s0 t : State} {x : Causes} (ends : EventEnd s0 (s.filteredChange i) t x) :
    t.contacts.raw = s.contacts.raw ∧ t.contacts.filtered = s.contacts.filtered.set i s.contacts.raw[i]
      ∧ t.contacts.persistence = s.contacts.persistence.set i .idle ∧ t.contacts.ind = t.indications
      ∧ t.contacts.commanded = s.contacts.commanded ∧ t.tables = s.tables := by
  obtain ⟨filtered, persistence, ind⟩ := s.filteredChange_levels i
  have levels : t.contacts.filtered = (s.filteredChange i).contacts.filtered := by rw [ends.contacts]
  rw [indications_congr ends.tables levels, ends.tables, ends.contacts]
  exact ⟨by simp, filtered, persistence, ind, by simp, by simp⟩

/-- Settles O24: a raw level that leaves the filtered one waits for its timer or, in class NONE, is taken at once. -/
theorem rawLevelsAreFiltered : Obligations.RawLevelsAreFiltered := by
  unfold Obligations.RawLevelsAreFiltered
  intro dt i closed s pin
  have ended {u : State} (same : (s.advance dt).rawChange i closed = u) :
      ∃ t, exec (.rawLevelChange dt i closed) s = .next t ∧ EventEnd s u t :=
    ⟨_, exec_rawLevelChange pin, same ▸ State.settle_end _ _ _⟩
  refine ⟨fun same => ended ?_, fun moved back => ended ?_, fun moved left timed => ended ?_, fun moved left none => ?_⟩
  · exact if_pos same
  · exact (if_neg moved).trans (if_pos back)
  · exact (if_neg moved).trans ((if_neg left).trans (if_neg timed))
  · have taken : (s.advance dt).rawChange i closed =
        ((s.advance dt).withContacts { s.contacts with raw := s.contacts.raw.set i closed }).filteredChange i :=
      (if_neg moved).trans ((if_neg left).trans (if_pos none))
    obtain ⟨t, acts, ends⟩ := ended taken
    obtain ⟨raw, filtered, persistence, ind, commanded, tables⟩ := ends.filteredChange
    have level : (s.contacts.raw.set i closed)[i] = closed := Vector.getElem_set_self _
    refine ⟨t, acts, raw, ?_, persistence, ind, commanded, tables⟩
    rw [filtered]
    exact congrArg (s.contacts.filtered.set i ·) level

/-- A change of a filtered level whose edge is selected takes the change latch with the new levels (R46, R47). -/
theorem State.filteredChange_selected (h : edgeSelected (s.input i).edge s.contacts.raw[i] = true) :
    (s.filteredChange i).contacts.snapshot =
        some { levels := levelWord (s.filteredChange i).contacts.filtered, time := s.time, input := i }
      ∧ (s.filteredChange i).contacts.changePending = true
      ∧ (s.filteredChange i).contacts.overrun = (s.contacts.overrun || s.contacts.changePending) := by
  have selected :
      edgeSelected ((s.takeRaw i).refreshIndications.input i).edge (s.takeRaw i).contacts.raw[i] = true := by
    simpa [State.input] using h
  unfold State.filteredChange State.edge
  dsimp only
  rw [if_pos selected]
  split <;> simp

/-- A change of a filtered level whose edge is not selected leaves the change latch (R46). -/
theorem State.filteredChange_unselected (h : edgeSelected (s.input i).edge s.contacts.raw[i] = false) :
    (s.filteredChange i).contacts.snapshot = s.contacts.snapshot
      ∧ (s.filteredChange i).contacts.changePending = s.contacts.changePending
      ∧ (s.filteredChange i).contacts.overrun = s.contacts.overrun := by
  have unselected :
      ¬edgeSelected ((s.takeRaw i).refreshIndications.input i).edge (s.takeRaw i).contacts.raw[i] = true := by
    simpa [State.input] using h
  unfold State.filteredChange State.edge
  dsimp only
  rw [if_neg unselected]
  simp

/-- Settles O25: a due timer lets the raw level through, and the edge takes the latch where it is selected. -/
theorem persistenceExpiryMovesTheLevel : Obligations.PersistenceExpiryMovesTheLevel := by
  unfold Obligations.PersistenceExpiryMovesTheLevel
  intro dt i s pin
  have expiry := exec_persistenceTimerExpiry (dt := dt) (i := i) pin
  have due_iff := (s.advance dt).persistenceDue_iff i
  have undue (early : ¬(s.advance dt).persistenceDue i = true) :
      exec (.persistenceTimerExpiry dt i) s = .next (s.advance dt) :=
    expiry.trans (congrArg Host.Outcome.next (if_neg early))
  refine ⟨fun t0 running => ⟨fun late => ?_, fun early => undue fun due => ?_⟩, fun idle => undue fun due => ?_⟩
  · have ends := (s.advance dt).settle_end ((s.advance dt).filteredChange i) Causes.none
    rw [State.expire, if_pos (due_iff.2 ⟨t0, running, late⟩)] at expiry
    generalize (s.advance dt).settle ((s.advance dt).filteredChange i) Causes.none = t at expiry ends
    obtain ⟨raw, filtered, persistence, ind, commanded, tables⟩ := ends.filteredChange
    refine ⟨t, expiry, raw, filtered, persistence, ind, commanded, tables, fun selected => ?_, fun unselected => ?_⟩
    · obtain ⟨snapshot, pending, overrun⟩ := State.filteredChange_selected (s := s.advance dt) selected
      rw [ends.contacts]
      exact ⟨snapshot, pending, overrun⟩
    · obtain ⟨snapshot, pending, overrun⟩ := State.filteredChange_unselected (s := s.advance dt) unselected
      rw [ends.contacts]
      exact ⟨snapshot, pending, overrun⟩
  · obtain ⟨t1, running', late⟩ := due_iff.1 due
    obtain rfl := Timer.running.inj (running.symm.trans running')
    exact absurd late (Nat.not_le.2 early)
  · obtain ⟨t1, running, _⟩ := due_iff.1 due
    exact nomatch idle.symm.trans running

end Sys2Proof.Machine
end

section
/-! O48. The entry to EXPIRED (R53, R155, R179, R182). -/

namespace Sys2Proof.Machine

variable {s : State} {dt : Time}

theorem exec_watchdogTimerExpiry (pin : s.pinLow = false) : exec (.watchdogTimerExpiry dt) s =
    .next ((s.advance dt).expire (s.advance dt).watchDue State.enterExpired) :=
  congrArg Host.Outcome.next (State.event_high pin)

theorem State.watchDue_iff (s : State) : s.watchDue = true ↔
    ∃ t0, s.watch.timer = .running t0 ∧ (s.watch.state = .expectA ∨ s.watch.state = .expectB)
      ∧ s.mgmt.params.watchdogTimeout ≤ (s.time - t0).toNat := by
  have expecting : s.watch.state.expecting = true ↔ s.watch.state = .expectA ∨ s.watch.state = .expectB := by
    cases s.watch.state <;> simp [WatchState.expecting]
  unfold State.watchDue
  cases s.watch.timer with
  | idle => exact ⟨nofun, nofun⟩
  | running t0 =>
    rw [Bool.and_eq_true, expecting]
    refine ⟨fun ⟨state, late⟩ => ⟨t0, rfl, state, of_decide_eq_true late⟩, fun ⟨t1, same, state, late⟩ => ?_⟩
    obtain rfl := Timer.running.inj same
    exact ⟨state, decide_eq_true late⟩

theorem State.enterExpired_watch (s : State) : s.enterExpired.watch =
    { s.watch with state := .expired, timer := .idle, expiries := min 255 (s.watch.expiries + 1) } := by
  simp [State.enterExpired, bump8]

/-- An entry to EXPIRED latches WATCHDOG_EXPIRED (R182). -/
theorem State.enterExpired_latched (s : State) : s.enterExpired.isLatched .watchdogExpired 0 = true := by
  rw [State.isLatched_iff]
  unfold State.enterExpired
  refine (State.tapOnExpired_raised (Raised.refl _)).pair _ _ ?_
  simp only [State.applySafeModes_frame]
  exact (State.isLatched_iff _ _ _).1 (State.isLatched_raise _ _ _)

/-- An output with safe mode HOLD freezes at its driven level (R53). -/
theorem State.enterExpired_frozen {o : OutputNo} (h : s.holds o = true) :
    s.enterExpired.contacts.frozen[o] = s.contacts.driven[o] := by
  have entry {u : State} (same : u.tables = s.tables) : u.holds o = true := by
    unfold State.holds State.output
    rw [same]
    exact h
  simp [State.enterExpired, State.applySafeModes, entry]

/-- A MANUAL output in EXPIRED is driven as its safe mode says (R53). -/
theorem State.outputLevel_expired {o : OutputNo} (manual : (s.output o).function = fnManual)
    (expired : s.watch.state = .expired) :
    ((s.output o).mode = modeHold → s.outputLevel o = s.contacts.frozen[o])
      ∧ ((s.output o).mode = modeSafe → s.outputLevel o = decide ((s.output o).level = 1))
      ∧ ((s.output o).mode = modeFollow → s.outputLevel o = s.contacts.commanded[o]) := by
  rw [State.outputLevel_manual manual, State.manualLevel, if_pos expired]
  refine ⟨fun hold => if_pos hold, fun safe => ?_, fun follow => ?_⟩
  · simp [safe, modeSafe, modeHold]
  · simp [follow, modeFollow, modeSafe, modeHold]

/-- No furnace is ready unless the watchdog expects a heartbeat (R155). -/
theorem State.not_isReady_of_expired (h : s.watch.state = .expired) (f : Furnace) : s.isReady f = false := by
  simp [State.isReady, h, WatchState.expecting]

/-- An event that leaves no furnace ready leaves the ready list empty (R156). -/
theorem EventEnd.ready_nil {s u t : State} {x : Causes} (h : EventEnd s u t x) (unready : ∀ f, t.isReady f = false) :
    t.taps.ready = [] := by
  have unlisted : t.taps.readyFurnaces = [] := List.eq_nil_iff_forall_not_mem.2 fun f listed =>
    Bool.false_ne_true ((unready f).symm.trans ((h.ready f).1 listed))
  exact List.map_eq_nil_iff.1 unlisted

/-- Settles O48: what the entry to EXPIRED makes of watchdog, outputs and ready list, at the end of its event. -/
theorem watchdogExpiryAppliesSafeModes : Obligations.WatchdogExpiryAppliesSafeModes := by
  unfold Obligations.WatchdogExpiryAppliesSafeModes
  intro dt s pin
  have expiry := exec_watchdogTimerExpiry (dt := dt) pin
  have due_iff := (s.advance dt).watchDue_iff
  have undue (early : ¬(s.advance dt).watchDue = true) : exec (.watchdogTimerExpiry dt) s = .next (s.advance dt) :=
    expiry.trans (congrArg Host.Outcome.next (if_neg early))
  refine ⟨fun t0 running expecting => ⟨fun late => ?_, fun early => undue fun due => ?_⟩,
    fun still => undue fun due => ?_⟩
  · have ends := (s.advance dt).settle_end (s.advance dt).enterExpired Causes.none
    rw [State.expire, if_pos (due_iff.2 ⟨t0, running, expecting, late⟩)] at expiry
    generalize (s.advance dt).settle (s.advance dt).enterExpired Causes.none = t at expiry ends
    have watch := ends.watch.trans (State.enterExpired_watch _)
    have expired : t.watch.state = .expired := by rw [watch]
    have tables : t.tables = s.tables := by rw [ends.tables]; simp
    have commanded : t.contacts.commanded = s.contacts.commanded := by rw [ends.contacts]; simp
    have entry (o : OutputNo) : t.output o = s.output o := by unfold State.output; rw [tables]
    refine ⟨t, expiry, watch, ?_, ?_, commanded, tables, fun o manual => ?_⟩
    · rw [State.isLatched_iff, ends.mgmt, ← State.isLatched_iff]
      exact State.enterExpired_latched _
    · exact ends.ready_nil (State.not_isReady_of_expired expired)
    · obtain ⟨hold, safe, follow⟩ := State.outputLevel_expired (s := t) (by rw [entry]; exact manual) expired
      rw [entry] at hold safe follow
      rw [ends.outputs o]
      refine ⟨fun mode => (hold mode).trans ?_, safe, fun mode => (follow mode).trans ?_⟩
      · have held : s.holds o = true := by simp [State.holds, manual, mode]
        rw [ends.contacts]
        exact State.enterExpired_frozen (s := s.advance dt) held
      · rw [commanded]
  · obtain ⟨t1, running', _, late⟩ := due_iff.1 due
    obtain rfl := Timer.running.inj (running.symm.trans running')
    exact absurd late (Nat.not_le.2 early)
  · obtain ⟨t1, running, expecting, _⟩ := due_iff.1 due
    obtain idle | ⟨notA, notB⟩ := still
    · exact nomatch idle.symm.trans running
    · exact expecting.elim notA notB

end Sys2Proof.Machine
end

section
/-! O28, O29, O30. The commands on a heat (R61, R68, R69, R73 to R75) as single items that end an event: the item's
result stands beside everything that the end of the event reads. -/

namespace Sys2Proof.Machine

variable {s : State} {dt : Time}

/-! ### The end of an event in an item -/

section
variable {u t : State} {x : Causes} {r : Result} {d : List Byte}

theorem Granted.reported {m : Option (Demand × Furnace)} {p : Pour} :
    Granted s u t x m p ↔ Granted s (u.reported r d) (t.reported r d) x m p := by
  cases m <;> exact ⟨fun ⟨a, b, c, d, e, f⟩ => ⟨a, b, c, d, e, f⟩, fun ⟨a, b, c, d, e, f⟩ => ⟨a, b, c, d, e, f⟩⟩

theorem Matched.reported {demand : Demand} {f : Furnace} :
    Matched s u x demand f ↔ Matched s (u.reported r d) x demand f :=
  ⟨fun ⟨a, b, c, d, e⟩ => ⟨a, b, c, d, e⟩, fun ⟨a, b, c, d, e⟩ => ⟨a, b, c, d, e⟩⟩

theorem TapEnd.reported {m : Option (Demand × Furnace)} {g : Option Pour} (h : TapEnd s u t m g) :
    TapEnd s (u.reported r d) (t.reported r d) m g where
  heats := by cases m <;> exact h.heats
  queue := h.queue
  listed := h.listed
  waiting := by cases m <;> exact h.waiting
  permitted := h.permitted
  loop := by cases m <;> cases g <;> exact h.loop

/-- The end of an event does not read the frame under execution, and leaves it. -/
theorem EventEnd.reported (h : EventEnd s u t x) : EventEnd s (u.reported r d) (t.reported r d) x where
  pending := h.pending
  time := h.time
  pinLow := h.pinLow
  intake := h.intake
  tables := h.tables
  orderClamps := h.orderClamps
  watch := h.watch
  mgmt := congrArg (fun y : Mgmt => { y with frame := { items := 1, results := [r], data := d } }) h.mgmt
  contacts := h.contacts
  outputs := h.outputs
  water := h.water
  circuits := h.circuits
  ready := h.ready
  taps := h.taps
  tap := by
    obtain ⟨m, g, hm, hg, tap⟩ := h.tap
    exact ⟨m, g, fun d f => (hm d f).trans Matched.reported, fun p => (hg p).trans Granted.reported, tap.reported⟩
  holding := h.holding
  kept := h.kept
  remade := h.remade

/-- A taken item without data, in the frame of its own that its effect leaves open. -/
theorem ItemOut.ok_recorded (frame : u.mgmt.frame = { items := 1, results := [], data := [] }) :
    (ItemOut.ok u).recorded = u.reported .ok [] := by
  unfold ItemOut.recorded
  simp only [ItemOut.ok_state, frame]
  rfl

/-- An item that is taken and ends an event on `u`, as a command outside any frame. -/
theorem exec_item_taken {i : Instr} {item : State → ItemOut} (pin : s.pinLow = false)
    (acts : exec i s = .next (s.single dt item))
    (taken : item ((s.advance dt).openFrame 1) = .ok (((s.advance dt).openFrame 1).settle (u.openFrame 1) x)) :
    ∃ t, exec i s = .next t ∧ EventEnd s (u.reported .ok []) t x := by
  have ends := s.settle_end (u.openFrame 1) x
  have frame : (s.settle (u.openFrame 1) x).mgmt.frame = { items := 1, results := [], data := [] } :=
    congrArg Mgmt.frame ends.mgmt
  refine ⟨_, acts.trans (congrArg Host.Outcome.next (State.single_high pin)), ?_⟩
  rw [taken, show ((s.advance dt).openFrame 1).settle (u.openFrame 1) x = s.settle (u.openFrame 1) x from rfl,
    ItemOut.ok_recorded frame]
  exact ends.reported

end

/-! ### A furnace number -/

section
variable {i : Instr} {n : Byte} {f : Furnace} {item : State → Furnace → ItemOut}

theorem State.onFurnace_some (own : furnaceOf n.toNat = some f) (s : State) (k : Furnace → ItemOut) :
    s.onFurnace n k = k f := by
  unfold State.onFurnace
  rw [own]

/-- A furnace number outside 1 to 6 is refused RANGE. -/
theorem exec_furnace_none (pin : s.pinLow = false) (outside : furnaceOf n.toNat = none)
    (acts : exec i s = .next (s.single dt fun u => u.onFurnace n (item u))) :
    exec i s = .next (s.refused dt .range) := by
  refine exec_read_refused pin acts ?_
  unfold State.onFurnace
  rw [outside]

theorem exec_furnace_refused {r : Result} (pin : s.pinLow = false) (own : furnaceOf n.toNat = some f)
    (acts : exec i s = .next (s.single dt fun u => u.onFurnace n (item u)))
    (refused : item ((s.advance dt).openFrame 1) f = .plain ((s.advance dt).openFrame 1) r) :
    exec i s = .next (s.refused dt r) :=
  exec_read_refused pin acts ((State.onFurnace_some own _ _).trans refused)

theorem exec_furnace_taken {u : State} {x : Causes} (pin : s.pinLow = false) (own : furnaceOf n.toNat = some f)
    (acts : exec i s = .next (s.single dt fun u => u.onFurnace n (item u)))
    (taken : item ((s.advance dt).openFrame 1) f = .ok (((s.advance dt).openFrame 1).settle (u.openFrame 1) x)) :
    ∃ t, exec i s = .next t ∧ EventEnd s (u.reported .ok []) t x :=
  exec_item_taken pin acts ((State.onFurnace_some own _ _).trans taken)

end

/-! ### OPEN HEAT and DRAIN (R61, R73) -/

theorem Phase.isTap_iff (p : Phase) : p.isTap = true ↔ p = .tapAssigned ∨ p = .tapping := by
  cases p <;> simp [Phase.isTap]

/-- Settles O28: the refusals of OPEN HEAT and DRAIN, and the record that each leaves. -/
theorem heatsAreOpenedAndDrained : Obligations.HeatsAreOpenedAndDrained := by
  unfold Obligations.HeatsAreOpenedAndDrained
  intro dt n id s pin
  refine ⟨fun outside => ⟨?_, ?_⟩, fun f own => ⟨fun barred => ?_, fun rated empty => ?_, fun tap => ?_,
    fun free standing => ?_⟩⟩
  · exact exec_furnace_none pin outside rfl
  · exact exec_furnace_none pin outside rfl
  · refine exec_furnace_refused pin own rfl ?_
    by_cases unrated : (!s.rated f) = true
    · exact if_pos unrated
    · have rated : s.rated f ≠ false := by simpa using unrated
      exact (if_neg unrated).trans (if_pos (barred.resolve_left rated))
  · refine exec_furnace_taken pin own rfl ?_
    have notUnrated : ¬(!s.rated f) = true := by simp [rated]
    exact (if_neg notUnrated).trans (if_neg (not_not.2 empty))
  · exact exec_furnace_refused pin own rfl (if_pos ((Phase.isTap_iff _).2 tap))
  · exact exec_furnace_taken pin own rfl (if_neg fun tap => ((Phase.isTap_iff _).1 tap).elim free standing)

/-! ### SET MASS and SET BAND (R74, R75) -/

theorem Phase.isOpenMetal_iff (p : Phase) : p.isOpenMetal = true ↔ p = .melting ∨ p = .superheat ∨ p = .holding := by
  cases p <;> simp [Phase.isOpenMetal]

/-- A correction below 100 kg leaves the heat in MELTING without an estimate, an approval or a hold (R60, R74). -/
theorem State.correctMass_light {m : Nat} (light : m < 100) (s : State) (f : Furnace) :
    s.correctMass f m = s.setHeat f { s.heats[f].rescale m with
      progress := none, temp := none, phase := .melting, approval := none, holdStart := none, holdTimer := .idle } :=
  (if_pos light).trans (State.updateHeat_light light rfl)

theorem bandTempOk_iff (t : Int) : bandTempOk t = true ↔ 1000 ≤ t ∧ t ≤ 1800 := by simp [bandTempOk]

theorem Bands.ok_iff (b : Bands) : b.ok = true ↔ (1000 ≤ b.holdLow ∧ b.holdLow ≤ 1800)
    ∧ (1000 ≤ b.holdHigh ∧ b.holdHigh ≤ 1800) ∧ (1000 ≤ b.tapLow ∧ b.tapLow ≤ 1800)
    ∧ (1000 ≤ b.tapHigh ∧ b.tapHigh ≤ 1800) ∧ b.holdLow ≤ b.holdHigh ∧ b.tapLow ≤ b.tapHigh := by
  simp only [Bands.ok, Bool.and_eq_true, bandTempOk_iff, decide_eq_true_eq, and_assoc]

/-- New bands move the heat by the SUPERHEAT test, and its holding state by a comparison (R75, R129). -/
theorem State.setBands_eq (s : State) (f : Furnace) (b : Bands) :
    let banded := ({ s.heats[f] with bands := some b } : Heat).superheatTest s.time
    s.setBands f b = { s with
      heats := s.heats.set f banded
      holding := s.holding.set f (s.holding[f].after banded (s.profile f) s.time) } := by
  unfold State.setBands State.compare
  rw [State.setHeat_same]
  rfl

/-- Settles O29: the refusals of SET MASS and SET BAND, the scaled account, and the compared bands. -/
theorem massAndBandsAreSet : Obligations.MassAndBandsAreSet := by
  unfold Obligations.MassAndBandsAreSet
  intro dt n m a b c d s pin
  refine ⟨fun outside => ⟨?_, ?_⟩, fun f own => ?_⟩
  · exact exec_furnace_none pin outside rfl
  · exact exec_furnace_none pin outside rfl
  intro h p open3 scaled after inside good bands banded
  have barred : (!h.phase.isOpenMetal || decide (h.mass = 0)) = true ↔ ¬open3 ∨ h.mass = 0 := by
    rw [Bool.or_eq_true, Bool.not_eq_true', ← Bool.not_eq_true, Phase.isOpenMetal_iff, decide_eq_true_eq]
  have admitted (metal : open3) (mass : h.mass ≠ 0) := mt barred.1 (not_or.2 ⟨not_not.2 metal, mass⟩)
  have disordered : (!bands.ok) = true ↔ ¬good := by
    rw [Bool.not_eq_true', ← Bool.not_eq_true, Bands.ok_iff]
  have inOrder (fit : good) := mt disordered.1 (not_not.2 fit)
  refine ⟨fun shut => ?_, fun metal mass out => ?_, fun metal mass some below light => ?_,
    fun metal mass heavy below => ?_, fun bad => ?_, fun fit closed => ?_, fun fit opened => ?_⟩
  · exact exec_furnace_refused pin own rfl (if_pos (barred.2 shut))
  · exact exec_furnace_refused pin own rfl ((if_neg (admitted metal mass)).trans (if_pos out))
  · have inRange : ¬(m.toNat = 0 ∨ p.capacity < m.toNat) := by omega
    have corrected := State.correctMass_light light ((s.advance dt).openFrame 1) f
    refine exec_furnace_taken pin own rfl ((if_neg (admitted metal mass)).trans ((if_neg inRange).trans ?_))
    rw [corrected]
    rfl
  · have inRange : ¬(m.toNat = 0 ∨ p.capacity < m.toNat) := by omega
    refine exec_furnace_taken pin own rfl ((if_neg (admitted metal mass)).trans ((if_neg inRange).trans ?_))
    rw [State.correctMass, if_neg (Nat.not_lt.2 heavy)]
    rfl
  · exact exec_furnace_refused pin own rfl (if_pos (disordered.2 bad))
  · have noHeat : h.id.isNone = true := Option.isNone_iff_eq_none.2 closed
    exact exec_furnace_refused pin own rfl ((if_neg (inOrder fit)).trans (if_pos noHeat))
  · have heat : ¬h.id.isNone = true := mt Option.isNone_iff_eq_none.1 opened
    refine exec_furnace_taken pin own rfl ((if_neg (inOrder fit)).trans ((if_neg heat).trans ?_))
    rw [State.setBands_eq]
    rfl

/-! ### APPROVE and REVOKE (R68, R69) -/

/-- Settles O30: the refusals of APPROVE in their order, the approval it grants, and the one that REVOKE voids. -/
theorem approvalsAreGrantedAndRevoked : Obligations.ApprovalsAreGrantedAndRevoked := by
  unfold Obligations.ApprovalsAreGrantedAndRevoked
  intro dt n id m s pin
  refine ⟨fun outside => ⟨?_, ?_⟩, fun f own => ?_⟩
  · exact exec_furnace_none pin outside rfl
  · exact exec_furnace_none pin outside rfl
  intro h after fits molten
  have valid : ¬(m.toNat = 0 ∨ 240 < m.toNat) ↔ fits := by
    simp only [fits]
    omega
  have solid : ¬(h.phase = .empty ∨ h.phase = .melting) ↔ molten := not_or
  refine ⟨fun unfit => ?_, fun fit cold => ?_, fun fit hot other => ?_, fun fit hot same => ?_, ?_⟩
  · exact exec_furnace_refused pin own rfl (if_pos (not_not.1 (mt valid.1 unfit)))
  · exact exec_furnace_refused pin own rfl ((if_neg (valid.2 fit)).trans (if_pos (not_not.1 (mt solid.1 cold))))
  · exact exec_furnace_refused pin own rfl ((if_neg (valid.2 fit)).trans ((if_neg (solid.2 hot)).trans (if_pos other)))
  · have named : ¬h.id ≠ some id.toNat := not_not.2 same
    exact exec_furnace_taken pin own rfl ((if_neg (valid.2 fit)).trans ((if_neg (solid.2 hot)).trans (if_neg named)))
  · exact exec_furnace_taken pin own rfl rfl

end Sys2Proof.Machine
end

section
/-! O31. The expiries of a heat's approval, hold and dip-age timers (R69, R71, R156). -/

namespace Sys2Proof.Machine

variable {s : State} {dt : Time} {f : Furnace}

/-- An expiry that is not due lets time pass (log entry 4). -/
theorem exec_expiry_undue {i : Instr} {due : State → Bool} {act : State → State} (pin : s.pinLow = false)
    (acts : exec i s = .next (s.event dt fun u => u.expire (due u) act)) (early : due (s.advance dt) = false) :
    exec i s = .next (s.advance dt) := by
  rw [State.event_high pin] at acts
  exact acts.trans (congrArg Host.Outcome.next (if_neg (by rw [early]; exact nofun)))

/-- An expiry at `limit` ends an event on its effect once so much has elapsed, and lets time pass before (log
entry 4). -/
theorem exec_expiry_timed {i : Instr} {due : State → Bool} {act : State → State} {limit elapsed : Nat}
    (pin : s.pinLow = false) (acts : exec i s = .next (s.event dt fun u => u.expire (due u) act))
    (timed : due (s.advance dt) = decide (limit ≤ elapsed)) :
    (limit ≤ elapsed → ∃ t, exec i s = .next t ∧ EventEnd s (act (s.advance dt)) t)
    ∧ (elapsed < limit → exec i s = .next (s.advance dt)) := by
  refine ⟨fun late => ?_, fun early => ?_⟩
  · rw [State.event_high pin] at acts
    refine ⟨_, acts.trans (congrArg Host.Outcome.next (if_pos ?_)), State.settle_end _ _ _⟩
    exact timed.trans (decide_eq_true late)
  · exact exec_expiry_undue pin acts (timed.trans (decide_eq_false (Nat.not_le.2 early)))

/-! ### When a timer of a heat is due -/

theorem State.approvalDue_some {a : Approval} (granted : s.heats[f].approval = some a) :
    s.approvalDue f = decide (a.minutes * 60000 ≤ (s.time - a.granted).toNat) := by
  unfold State.approvalDue
  rw [granted]
  rfl

theorem State.approvalDue_none (absent : s.heats[f].approval = none) : s.approvalDue f = false := by
  unfold State.approvalDue
  rw [absent]

theorem State.holdDue_running {t0 : Time} (running : s.heats[f].holdTimer = .running)
    (start : s.heats[f].holdStart = some t0) :
    s.holdDue f = decide ((s.profile f).maxHold * 60000 ≤ (s.time - t0).toNat) := by
  unfold State.holdDue
  rw [running, start]
  rfl

theorem State.holdDue_still (still : s.heats[f].holdTimer ≠ .running) : s.holdDue f = false := by
  unfold State.holdDue
  split
  next running _ => exact absurd running still
  next => rfl

theorem State.dipAgeDue_running {t0 : Time} (running : s.taps.dipAge[f] = .running)
    (anchor : s.heats[f].anchor = some t0) :
    s.dipAgeDue f = decide (s.mgmt.params.dipMaxAge * 60000 ≤ (s.time - t0).toNat) := by
  unfold State.dipAgeDue
  rw [running, anchor]
  rfl

theorem State.dipAgeDue_still (still : s.taps.dipAge[f] ≠ .running) : s.dipAgeDue f = false := by
  unfold State.dipAgeDue
  split
  next running _ => exact absurd running still
  next => rfl

/-! ### The ready list -/

/-- A furnace whose dip has aged is not ready (R155, condition 3). -/
theorem State.not_isReady_of_aged (aged : s.taps.dipAge[f] ≠ .running) : s.isReady f = false := by
  simp only [State.isReady, decide_eq_false aged, Bool.and_false, Bool.false_and]

/-- The end of an event lists no furnace whose dip has aged (R156). -/
theorem EventEnd.unlisted_of_aged {u t : State} {x : Causes} (h : EventEnd s u t x)
    (aged : u.taps.dipAge[f] ≠ .running) : f ∉ t.taps.readyFurnaces := by
  have kept : t.taps.dipAge = u.taps.dipAge := by rw [h.taps]
  rw [h.ready f, State.not_isReady_of_aged (by rwa [kept])]
  exact Bool.false_ne_true

/-- Settles O31: each timer's expiry is due exactly where it has run out, and ends its event on its effect. -/
theorem heatTimersExpire : Obligations.HeatTimersExpire := by
  unfold Obligations.HeatTimersExpire
  intro dt f s pin
  have approval {a : Approval} (granted : s.heats[f].approval = some a) :=
    exec_expiry_timed (i := .approvalTimerExpiry dt f) pin rfl (State.approvalDue_some (s := s.advance dt) granted)
  have hold {t0 : Time} (running : s.heats[f].holdTimer = .running) (start : s.heats[f].holdStart = some t0) :=
    exec_expiry_timed (i := .holdTimerExpiry dt f) pin rfl (State.holdDue_running (s := s.advance dt) running start)
  have dip {t0 : Time} (running : s.taps.dipAge[f] = .running) (anchor : s.heats[f].anchor = some t0) :=
    exec_expiry_timed (i := .dipAgeTimerExpiry dt f) pin rfl
      (State.dipAgeDue_running (s := s.advance dt) running anchor)
  have expired : ((s.advance dt).setDipAge f .expired).taps.dipAge[f] = .expired := Vector.getElem_set_self _
  refine ⟨fun a granted => approval granted, fun absent => exec_expiry_undue pin rfl (State.approvalDue_none absent),
    fun t0 running start => hold running start, fun still => exec_expiry_undue pin rfl (State.holdDue_still still),
    fun t0 running anchor => ⟨fun late => ?_, (dip running anchor).2⟩,
    fun still => exec_expiry_undue pin rfl (State.dipAgeDue_still still)⟩
  obtain ⟨t, acts, ends⟩ := (dip running anchor).1 late
  exact ⟨t, acts, ends.unlisted_of_aged (by rw [expired]; exact nofun), ends⟩

end Sys2Proof.Machine
end

section
/-! O33. Dips (R66, R67, R87): the account that a dip anchors gives back the dip's temperature (R85, R86). -/

namespace Sys2Proof.Machine

variable {s : State} {f : Furnace}

/-- Rounding k degrees of a mass up to a whole kJ keeps the quotient, as a degree is worth at least 1 kJ (R86, R87). -/
theorem ceil_degrees {k w : Nat} (worth : 1000 ≤ w) : (k * w + 999) / 1000 * 1000 / w = k := by
  refine Nat.div_eq_of_lt_le ?_ ?_
  · omega
  · rw [Nat.succ_mul]
    omega

/-- The account anchored at a temperature is that of a molten heat at it (R85, R86, R87). -/
theorem Heat.estimate_anchored {p : Profile} {h : Heat} {td : Int} (melt : 500 ≤ p.meltEnergy)
    (heat : 500 ≤ p.heatCapacity) (liquidus : p.liquidus ≤ 1800) (heavy : 100 ≤ h.mass) :
    let anchored := ({ h with energy := anchorEnergy p h.mass td, residue := 0 } : Heat).estimate p
    anchored.progress = some 1000 ∧ anchored.temp = some (max p.liquidus (min 1800 td)) := by
  have full : progressOf p h.mass (anchorEnergy p h.mass td) = some 1000 :=
    progressOf_full heavy (by omega) (Nat.le_add_right _ _)
  have worth : 1000 ≤ h.mass * p.heatCapacity := by
    calc 1000 ≤ 100 * 500 := by decide
      _ ≤ h.mass * p.heatCapacity := Nat.mul_le_mul heavy heat
  have degrees : (anchorEnergy p h.mass td - meltEnergy p h.mass) * 1000 / (h.mass * p.heatCapacity) =
      (max p.liquidus (min 1800 td) - p.liquidus).toNat := by
    rw [anchorEnergy_eq, meltEnergy, Nat.add_sub_cancel_left, Nat.mul_assoc]
    exact ceil_degrees worth
  refine ⟨full, (if_pos full).trans ?_⟩
  dsimp only
  rw [degrees]
  congr 1
  omega

/-- A heat that a dip of `td` at `now` anchors, before its estimate (R66, R87). -/
def Heat.anchoredAt (h : Heat) (p : Profile) (td : Int) (now : Time) (stale : Bool) : Heat := { h with
  dip := some { temp := td, time := now }
  energy := h.mass * p.meltEnergy
    + ((max p.liquidus (min 1800 td) - p.liquidus).toNat * h.mass * p.heatCapacity + 999) / 1000
  residue := 0, anchor := some now, uncertain := h.uncertain && stale }

/-- DIP_LOW for a dip below the liquidus (R67). -/
def State.dipTold (u : State) (f : Furnace) (liquidus td : Int) : State :=
  if td < liquidus then u.raise .dipLow (numberOf f) else u

theorem State.dipTold_withReceiver (u : State) (r : Receiver) (f : Furnace) (liquidus td : Int) :
    (u.dipTold f liquidus td).withReceiver r = (u.withReceiver r).dipTold f liquidus td := by
  unfold State.dipTold
  split
  · exact State.raise_withReceiver u r _ _
  · rfl

theorem State.dip_cool {td : Int} (metal : s.heats[f].phase ≠ .empty) (solid : s.heats[f].progress ≠ some 1000) :
    s.dip f td = { s with
      heats := s.heats.set f { s.heats[f] with dip := some { temp := td, time := s.time } } } :=
  (if_neg metal).trans (if_neg solid)

theorem State.dip_molten {td : Int} (metal : s.heats[f].phase ≠ .empty) (molten : s.heats[f].progress = some 1000) :
    s.dip f td = State.dipTold { s with
      heats := s.heats.set f (((s.heats[f].anchoredAt (s.profile f) td s.time s.intake.stale.power[f]).estimate
        (s.profile f)).phaseTest s.time)
      taps := { s.taps with dipAge := s.taps.dipAge.set f .running } } f (s.profile f).liquidus td := by
  refine (if_neg metal).trans ((if_pos molten).trans ?_)
  unfold Heat.anchoredAt
  rw [← anchorEnergy_eq]
  rfl

theorem PointEntry.causes_dip {e : PointEntry} (kind : e.kind = some .dipTemp) : e.causes = Causes.none := by
  unfold PointEntry.causes PointEntry.permitFurnaces
  rw [kind]
  rfl

theorem PointEntry.staleKey_dip {e : PointEntry} (kind : e.kind = some .dipTemp) : e.staleKey = none := by
  unfold PointEntry.staleKey
  rw [kind]
  rfl

theorem State.deliver_dip {e : PointEntry} (kind : e.kind = some .dipTemp) (owner : furnaceOf e.owner.toNat = some f)
    (s : State) (v : Int) (n : Nat) : s.deliver e v n = s.dip f v := by
  unfold State.deliver
  rw [kind, owner]

/-- Settles O33: the event of an accepted dip ends on the one branch of the dip that its heat takes. -/
theorem dipAnchorsTheEstimate : Obligations.DipAnchorsTheEstimate := by
  unfold Obligations.DipAnchorsTheEstimate
  refine ⟨fun p h td melt heat liquidus heavy => Heat.estimate_anchored melt heat liquidus heavy,
    fun dt bytes fr i l v f s accepted kind owner => ?_⟩
  have ends (change : State → State)
      (free : ∀ u : State, (change u).withReceiver Receiver.empty = change (u.withReceiver Receiver.empty))
      (acts : ∀ x : Intake, x.stale.power[f] = s.intake.stale.power[f] →
        (s.handing dt bytes fr x).dip f v = change (s.handing dt bytes fr x)) :
      ∃ t, exec (.frameArrival dt bytes) s = .next t ∧ EventEnd s (change (s.sampled dt fr t.intake)) t := by
    have ended := accepted.ends (dt := dt) kind rfl change free fun x stale => by
      refine (State.deliver_dip kind owner _ v _).trans (acts x ?_)
      have power := stale (.power f)
      rw [PointEntry.staleKey_dip kind] at power
      simpa [StaleInd.get] using power
    rwa [PointEntry.causes_dip kind] at ended
  refine ⟨fun empty => ?_, fun metal solid => ?_, fun metal molten => ?_⟩
  · exact ends id (fun _ => rfl) fun _ _ => if_pos empty
  · exact ends (fun u => { u with
      heats := u.heats.set f { s.heats[f] with dip := some { temp := v, time := s.time + dt } } })
      (fun _ => rfl) fun _ _ => State.dip_cool metal solid
  · refine ends (fun u => State.dipTold { u with
      heats := u.heats.set f (((s.heats[f].anchoredAt (s.profile f) v (s.time + dt) s.intake.stale.power[f]).estimate
        (s.profile f)).phaseTest (s.time + dt))
      taps := { u.taps with dipAge := u.taps.dipAge.set f .running } } f (s.profile f).liquidus v)
      (fun u => State.dipTold_withReceiver _ _ _ _ _) fun x stale => ?_
    have taken := State.dip_molten (s := s.handing dt bytes fr x) (td := v) metal molten
    rw [show (s.handing dt bytes fr x).intake.stale.power[f] = s.intake.stale.power[f] from stale] at taken
    exact taken

end Sys2Proof.Machine
end

section
/-! O46. The return timer (R165, R169): the pour it accounts, on a furnace that a tilt fault locks out. -/

namespace Sys2Proof.Machine

variable {s : State} {dt : Time} {r : Pour} {f : Furnace}

/-! ### A poured heat -/

theorem Heat.poured_mass (h : Heat) (p : Profile) (left : Nat) : (h.poured p left).mass = left := by
  unfold Heat.poured
  split_ifs with empty
  · exact empty.symm
  · rfl
  · rfl

theorem Heat.poured_phase (h : Heat) (p : Profile) (left : Nat) :
    (h.poured p left).phase = if left = 0 then .empty else if left < 100 then .melting else .holding := by
  unfold Heat.poured
  split_ifs <;> rfl

theorem State.accountPour_heat (s : State) (r : Pour) : (s.accountPour r).heats[r.furnace] =
    s.heats[r.furnace].poured (s.profile r.furnace) (s.heats[r.furnace].mass - s.finalMass r) := by
  unfold State.accountPour
  rw [State.pourOff_eq]
  exact Vector.getElem_set_self _

/-! ### A tilt fault -/

theorem State.tiltFault_heat (s : State) (f : Furnace) : (s.tiltFault f).heats[f] = { s.heats[f] with
    lockout := if s.heats[f].lockout = some .follow then some .follow else some .tilt } := by
  unfold State.tiltFault State.lockTilt
  simp

theorem State.tiltFault_finalMass (s : State) (r : Pour) : (s.tiltFault r.furnace).finalMass r = s.finalMass r := by
  unfold State.finalMass
  rw [State.tiltFault_heat]
  simp

/-- A locked furnace is not ready (R155, condition 1). -/
theorem State.not_isReady_of_locked (locked : s.heats[f].lockout ≠ none) : s.isReady f = false := by
  have held : s.heats[f].lockout.isNone = false := Bool.eq_false_iff.2 (mt Option.isNone_iff_eq_none.1 locked)
  simp only [State.isReady, held, Bool.and_false, Bool.false_and]

/-! ### The end of an event -/

/-- The end of an event matches no furnace that is not ready, and leaves its heat whole (R161). -/
theorem EventEnd.heat_unready {u t : State} {x : Causes} (h : EventEnd s u t x) (unready : u.isReady f = false) :
    t.heats[f] = u.heats[f] := by
  obtain ⟨m, g, matched, _, ends⟩ := h.tap
  rw [ends.heats]
  cases m with
  | none => rfl
  | some p =>
    obtain ⟨d, k⟩ := p
    have ready : u.isReady k = true := ((matched d k).1 rfl).isReady
    have other : k ≠ f := by
      rintro rfl
      exact Bool.false_ne_true (unready.symm.trans ready)
    exact Vector.getElem_set_ne k.isLt f.isLt (Fin.val_ne_of_ne other)

/-- The end of an event starts no return: it moves the station to ASSIGNED or PERMITTED, if at all (R161, R162). -/
theorem EventEnd.not_returning {u t : State} {x : Causes} (h : EventEnd s u t x)
    (away : u.taps.station ≠ .returning) : t.taps.station ≠ .returning := by
  obtain ⟨m, g, _, _, ends⟩ := h.tap
  cases g with
  | none =>
    have station : t.taps.station = (u.stationAfter m).1 := congrArg Prod.fst (ends.waiting rfl).1
    rw [station]
    cases m with
    | none => exact away
    | some p => exact nofun
  | some q =>
    rw [(ends.permitted q rfl).1]
    exact nofun

/-- A status placed on a busy link waits in its FIFO, whatever the FIFO held (R15). -/
theorem LoopPort.mem_placeStatus {l : LoopPort} {b : List Byte} (busy : l.link = .sending b) (x : Status) :
    x ∈ (l.placeStatus x).statuses := by
  have still {l' : LoopPort} (link : l'.link = .sending b) : l'.kick = l' := kick_busy _ (by rw [link]; exact nofun)
  unfold LoopPort.placeStatus
  split
  · rw [still (by exact busy)]
    exact List.mem_concat_self
  · rw [still (by exact busy)]
    exact List.mem_concat_self

/-! ### The expiry -/

theorem exec_returnTimerExpiry (pin : s.pinLow = false) : exec (.returnTimerExpiry dt) s =
    .next (if s.taps.returnTimer.due (s.time + dt) then (s.advance dt).returnExpire else s.advance dt) :=
  congrArg Host.Outcome.next (State.event_high pin)

/-- The changes that the expiry makes before its event ends: the tilt fault, and the accounted pour (R169). -/
def State.faultedPour (s : State) (r : Pour) : State := (s.tiltFault r.furnace).accountPour r

theorem State.faultedPour_heat (s : State) (r : Pour) : (s.faultedPour r).heats[r.furnace] =
    ({ s.heats[r.furnace] with
      lockout := if s.heats[r.furnace].lockout = some .follow then some .follow else some .tilt } : Heat).poured
      (s.profile r.furnace) (s.heats[r.furnace].mass - s.finalMass r) := by
  have profile : (s.tiltFault r.furnace).profile r.furnace = s.profile r.furnace := by
    unfold State.profile
    simp
  unfold State.faultedPour
  rw [State.accountPour_heat, State.tiltFault_finalMass, State.tiltFault_heat, profile]

theorem State.faultedPour_locked (s : State) (r : Pour) : (s.faultedPour r).heats[r.furnace].lockout ≠ none := by
  rw [State.faultedPour_heat, Heat.poured_lockout]
  dsimp only
  split <;> exact nofun

theorem State.faultedPour_latched (s : State) (r : Pour) :
    (s.faultedPour r).isLatched .tiltFault (numberOf r.furnace) = true := by
  unfold State.isLatched State.faultedPour
  simp only [State.accountPour_frame]
  exact State.isLatched_raise _ _ _

theorem State.faultedPour_inserted (s : State) (r : Pour) : Inserted s.loop (s.faultedPour r).loop := by
  have loop : (s.faultedPour r).loop = (s.tiltFault r.furnace).loop := by
    unfold State.faultedPour
    simp
  rw [loop]
  exact State.tiltFault_inserted (Inserted.refl _)

/-- The expiry in RETURNING ends its event on the accounted pour, and then answers SHORT (R169). -/
theorem State.returnExpire_eq (station : s.taps.station = .returning) (pour : s.taps.pour = some r) :
    s.returnExpire = (s.settle (s.faultedPour r) Causes.none).placeStatus .short (some r.demand.id)
      (some r.furnace) (some (s.finalMass r)) := by
  unfold State.returnExpire
  rw [station, pour]
  dsimp only
  rw [State.tiltFault_finalMass]
  rfl

/-- Settles O46: the locked furnace cannot be matched again, so the end of the event leaves its heat as poured. -/
theorem returnExpiryAccountsThePour : Obligations.ReturnExpiryAccountsThePour := by
  unfold Obligations.ReturnExpiryAccountsThePour
  intro dt r t0 ms s pin pour running f h p
  have expiry := exec_returnTimerExpiry (dt := dt) pin
  rw [running] at expiry
  refine ⟨fun late station => ?_, fun early => ?_⟩
  · rw [if_pos ((FixedTimer.due_running _ _ _).2 late),
      State.returnExpire_eq (s := s.advance dt) station pour] at expiry
    have ends := (s.advance dt).settle_end ((s.advance dt).faultedPour r) Causes.none
    generalize (s.advance dt).settle ((s.advance dt).faultedPour r) Causes.none = t at expiry ends
    have locked := (s.advance dt).faultedPour_locked r
    have whole := ends.heat_unready (State.not_isReady_of_locked locked)
    have unready : t.isReady f = false := State.not_isReady_of_locked (by rw [whole]; exact locked)
    have heat : t.heats[f] = ({ h with
        lockout := if h.lockout = some .follow then some .follow else some .tilt } : Heat).poured
        (s.profile f) (h.mass - p) := whole.trans ((s.advance dt).faultedPour_heat r)
    have free : ((s.advance dt).faultedPour r).taps.station = .idle := by simp [State.faultedPour]
    have params : t.mgmt.params = s.mgmt.params := by rw [ends.mgmt]; simp [State.faultedPour]
    refine ⟨_, expiry, ?_, ?_, ?_, ?_, fun listed => ?_, ?_, ?_, fun b busy => ?_⟩
    · exact (congrArg Heat.mass heat).trans (Heat.poured_mass _ _ _)
    · exact (congrArg Heat.phase heat).trans (Heat.poured_phase _ _ _)
    · exact (congrArg Heat.lockout heat).trans (Heat.poured_lockout _ _ _)
    · show t.isLatched .tiltFault (numberOf f) = true
      rw [State.isLatched_iff, ends.mgmt, ← State.isLatched_iff]
      exact (s.advance dt).faultedPour_latched r
    · exact Bool.false_ne_true (unready.symm.trans ((ends.ready f).1 listed))
    · show t.taps.returnTimer = .idle
      rw [ends.taps]
      simp [State.faultedPour]
    · exact ends.not_returning (by rw [free]; exact nofun)
    · have port := ((s.advance dt).faultedPour_inserted r).trans ends.inserted
      rw [← params]
      exact LoopPort.mem_placeStatus (port.busy b busy).1 _
  · exact expiry.trans (congrArg Host.Outcome.next (if_neg (mt (FixedTimer.due_running _ _ _).1 (Nat.not_le.2 early))))

end Sys2Proof.Machine
end

section
/-! The division of the supply (R104, R105): what a class is served, and what the classes together are. -/

namespace Sys2Proof.Machine

/-! ### The left-over kW -/

/-- The claims whose share is below their demand. -/
def openClaims (l : List Claim) : Nat := (l.filter fun x => decide (x.share < x.demand)).length

/-- A claim with one kW more, where it is still open and fewer than `k` open claims stand before it. -/
def Claim.topped (x : Claim) (before k : Nat) : Claim :=
  { x with share := x.share + if x.share < x.demand ∧ before < k then 1 else 0 }

theorem openClaims_cons (x : Claim) (l : List Claim) :
    openClaims (x :: l) = openClaims l + if x.share < x.demand then 1 else 0 := by
  by_cases h : x.share < x.demand <;> simp [openClaims, h]

theorem giveLeftover_cons (k : Nat) (x : Claim) (l : List Claim) :
    giveLeftover k (x :: l) = x.topped 0 k :: giveLeftover (k - if x.share < x.demand then 1 else 0) l := by
  cases k with
  | zero => simp [giveLeftover, Claim.topped]
  | succ k => by_cases h : x.share < x.demand <;> simp [giveLeftover, Claim.topped, h]

/-- A left-over kW goes to each open claim in turn, while there is one. -/
theorem giveLeftover_getElem? (k : Nat) (l : List Claim) (i : Nat) :
    (giveLeftover k l)[i]? = l[i]?.map fun x => x.topped (openClaims (l.take i)) k := by
  induction l generalizing k i with
  | nil => rfl
  | cons x l ih =>
    rw [giveLeftover_cons]
    cases i with
    | zero => rfl
    | succ i =>
      rw [List.getElem?_cons_succ, List.getElem?_cons_succ, ih, List.take_succ_cons, openClaims_cons]
      congr 1
      funext y
      have shifted (n m : Nat) : n < k - m ↔ n + m < k := by omega
      simp only [Claim.topped, shifted]

theorem mem_giveLeftover {k : Nat} {l : List Claim} {x : Claim} (h : x ∈ giveLeftover k l) :
    ∃ y ∈ l, ∃ before, x = y.topped before k := by
  obtain ⟨i, hi⟩ := List.mem_iff_getElem?.1 h
  rw [giveLeftover_getElem?, Option.map_eq_some_iff] at hi
  obtain ⟨y, hy, rfl⟩ := hi
  exact ⟨y, List.mem_of_getElem? hy, _, rfl⟩

theorem shareSum_cons (x : Claim) (l : List Claim) : shareSum (x :: l) = x.share + shareSum l := by
  simp [shareSum]

theorem demandSum_cons (x : Claim) (l : List Claim) : demandSum (x :: l) = x.demand + demandSum l := by
  simp [demandSum]

theorem shareSum_append (a b : List Claim) : shareSum (a ++ b) = shareSum a + shareSum b := by simp [shareSum]

theorem shareSum_giveLeftover (k : Nat) (l : List Claim) :
    shareSum (giveLeftover k l) = shareSum l + min k (openClaims l) := by
  induction l generalizing k with
  | nil => simp [giveLeftover, shareSum, openClaims]
  | cons x l ih =>
    rw [giveLeftover_cons, shareSum_cons, shareSum_cons, ih, openClaims_cons, Claim.topped]
    by_cases h : x.share < x.demand
    · simp only [h, true_and, if_true]
      split <;> omega
    · simp only [h, false_and, if_false]
      omega

/-! ### Floor shares -/

/-- A claim with the floor share of a remainder `r` among demands that sum to `total` (R105). -/
def Claim.floored (r total : Nat) (x : Claim) : Claim := { x with share := r * x.demand / total }

/-- Where the remainder is short, a floor share leaves a claim open exactly where it demands anything. -/
theorem Claim.floored_open {r total : Nat} (short : r < total) (x : Claim) :
    (x.floored r total).share < (x.floored r total).demand ↔ 0 < x.demand := by
  show r * x.demand / total < x.demand ↔ 0 < x.demand
  rw [Nat.div_lt_iff_lt_mul (by omega), Nat.mul_comm x.demand]
  exact ⟨fun h => Nat.pos_of_ne_zero fun zero => by simp [zero] at h, fun pos => Nat.mul_lt_mul_of_pos_right short pos⟩

/-- The claims with a demand above 0. -/
def liveClaims (l : List Claim) : Nat := (l.filter fun x => decide (0 < x.demand)).length

theorem openClaims_floored {r total : Nat} (short : r < total) (l : List Claim) :
    openClaims (l.map (Claim.floored r total)) = liveClaims l := by
  simp only [openClaims, liveClaims, List.filter_map, List.length_map]
  congr 2
  funext x
  exact decide_eq_decide.2 (x.floored_open short)

/-- The floor shares lose less than one kW for each claim with a demand. -/
theorem floored_bounds (r : Nat) {total : Nat} (some : 0 < total) (l : List Claim) :
    total * shareSum (l.map (Claim.floored r total)) ≤ r * demandSum l
    ∧ r * demandSum l ≤ total * shareSum (l.map (Claim.floored r total)) + liveClaims l * (total - 1) := by
  induction l with
  | nil => simp [shareSum, demandSum]
  | cons x l ih =>
    obtain ⟨low, high⟩ := ih
    have whole := Nat.div_add_mod (r * x.demand) total
    have lost : r * x.demand % total ≤ (if 0 < x.demand then 1 else 0) * (total - 1) := by
      split
      next =>
        have := Nat.mod_lt (r * x.demand) some
        omega
      next none => simp [Nat.eq_zero_of_not_pos none]
    have live : liveClaims (x :: l) = liveClaims l + if 0 < x.demand then 1 else 0 := by
      by_cases h : 0 < x.demand <;> simp [liveClaims, h]
    rw [List.map_cons, shareSum_cons, demandSum_cons, live, Nat.mul_add, Nat.mul_add, Nat.add_mul]
    show total * (r * x.demand / total) + _ ≤ _ ∧ _ ≤ total * (r * x.demand / total) + _ + _
    omega


theorem liveClaims_pos {l : List Claim} (some : 0 < demandSum l) : 0 < liveClaims l := by
  induction l with
  | nil => simp [demandSum] at some
  | cons x l ih =>
    rw [demandSum_cons] at some
    by_cases h : 0 < x.demand
    · simp [liveClaims, h]
    · have := ih (by omega)
      simpa [liveClaims, h] using this

/-- What the floor shares leave of a remainder is less than the claims that take it. -/
theorem leftover_lt {r : Nat} {l : List Claim} (short : r < demandSum l) :
    shareSum (l.map (Claim.floored r (demandSum l))) ≤ r
    ∧ r - shareSum (l.map (Claim.floored r (demandSum l))) < liveClaims l := by
  obtain ⟨low, high⟩ := floored_bounds r (by omega : 0 < demandSum l) l
  have live := liveClaims_pos (by omega : 0 < demandSum l)
  generalize demandSum l = total at *
  generalize shareSum (l.map (Claim.floored r total)) = floors at *
  have within : floors ≤ r := Nat.le_of_mul_le_mul_left (by rw [Nat.mul_comm total r]; exact low) (by omega)
  refine ⟨within, Nat.lt_of_mul_lt_mul_left (a := total) ?_⟩
  calc total * (r - floors) = r * total - total * floors := by rw [Nat.mul_sub, Nat.mul_comm total r]
    _ ≤ liveClaims l * (total - 1) := by omega
    _ < liveClaims l * total := Nat.mul_lt_mul_of_pos_left (by omega) live
    _ = total * liveClaims l := Nat.mul_comm _ _

/-! ### A class -/

theorem serveClass_enough {r : Nat} {l : List Claim} (enough : demandSum l ≤ r) :
    serveClass r l = l.map fun x => { x with share := x.demand } := if_pos enough

theorem serveClass_short {r : Nat} {l : List Claim} (short : r < demandSum l) : serveClass r l =
    giveLeftover (r - shareSum (l.map (Claim.floored r (demandSum l)))) (l.map (Claim.floored r (demandSum l))) :=
  if_neg (Nat.not_le.2 short)

/-- A claim without its share. -/
def Claim.key (x : Claim) : Furnace × Nat := (x.furnace, x.demand)

theorem giveLeftover_keys (k : Nat) (l : List Claim) : (giveLeftover k l).map Claim.key = l.map Claim.key := by
  induction l generalizing k with
  | nil => rfl
  | cons x l ih => rw [giveLeftover_cons, List.map_cons, List.map_cons, ih]; rfl

/-- A class served keeps its furnaces and demands in order. -/
theorem serveClass_keys (r : Nat) (l : List Claim) : (serveClass r l).map Claim.key = l.map Claim.key := by
  rcases Nat.lt_or_ge r (demandSum l) with short | enough
  · rw [serveClass_short short, giveLeftover_keys, List.map_map]
    rfl
  · rw [serveClass_enough enough, List.map_map]
    rfl

theorem Claim.topped_within {x : Claim} (h : x.share ≤ x.demand) (before k : Nat) :
    (x.topped before k).share ≤ x.demand := by
  unfold Claim.topped
  dsimp only
  split <;> omega

theorem Claim.floored_within {r total : Nat} (short : r < total) (x : Claim) :
    (x.floored r total).share ≤ x.demand :=
  Nat.div_le_of_le_mul (Nat.mul_le_mul_right _ short.le)

theorem serveClass_within {r : Nat} {l : List Claim} {x : Claim} (h : x ∈ serveClass r l) : x.share ≤ x.demand := by
  rcases Nat.lt_or_ge r (demandSum l) with short | enough
  · rw [serveClass_short short] at h
    obtain ⟨y, hy, before, rfl⟩ := mem_giveLeftover h
    obtain ⟨z, _, rfl⟩ := List.mem_map.1 hy
    exact Claim.topped_within (z.floored_within short) _ _
  · rw [serveClass_enough enough] at h
    obtain ⟨y, _, rfl⟩ := List.mem_map.1 h
    exact Nat.le_refl _

/-- A short remainder goes out to the last kW. -/
theorem shareSum_short {r : Nat} {l : List Claim} (short : r < demandSum l) : shareSum (serveClass r l) = r := by
  obtain ⟨within, left⟩ := leftover_lt short
  rw [serveClass_short short, shareSum_giveLeftover, openClaims_floored short]
  omega

theorem shareSum_enough {r : Nat} {l : List Claim} (enough : demandSum l ≤ r) :
    shareSum (serveClass r l) = demandSum l := by
  rw [serveClass_enough enough, shareSum, List.map_map]
  rfl

theorem shareSum_serveClass_le (r : Nat) (l : List Claim) : shareSum (serveClass r l) ≤ r := by
  rcases Nat.lt_or_ge r (demandSum l) with short | enough
  · exact (shareSum_short short).le
  · exact (shareSum_enough enough).le.trans enough

/-! ### The classes together -/

/-- The shares of all classes never sum to more than the supply they are served from. -/
theorem shareSum_serveClasses_le (r : Nat) (ls : List (List Claim)) : shareSum (serveClasses r ls) ≤ r := by
  induction ls generalizing r with
  | nil => exact Nat.zero_le _
  | cons l ls ih =>
    have first := shareSum_serveClass_le r l
    have rest := ih (r - shareSum (serveClass r l))
    rw [serveClasses, shareSum_append]
    omega

/-- A served claim is a claim of one of the classes with another share, of its demand at most. -/
theorem mem_serveClasses {r : Nat} {ls : List (List Claim)} {x : Claim} (h : x ∈ serveClasses r ls) :
    (∃ l ∈ ls, x.key ∈ l.map Claim.key) ∧ x.share ≤ x.demand := by
  induction ls generalizing r with
  | nil => exact nomatch h
  | cons l ls ih =>
    rcases List.mem_append.1 h with first | rest
    · exact ⟨⟨l, List.mem_cons_self, serveClass_keys r l ▸ List.mem_map_of_mem first⟩, serveClass_within first⟩
    · obtain ⟨⟨k, hk, key⟩, within⟩ := ih rest
      exact ⟨⟨k, List.mem_cons_of_mem _ hk, key⟩, within⟩

theorem share_le_shareSum {l : List Claim} {x : Claim} (h : x ∈ l) : x.share ≤ shareSum l :=
  List.le_sum_of_mem (List.mem_map_of_mem h)

/-- The share of one claim of a class that is short: the floor share, and a left-over kW while there is one. -/
theorem serveClass_share {r : Nat} {l : List Claim} (short : r < demandSum l) {i : Nat} {x : Claim}
    (h : (serveClass r l)[i]? = some x) :
    x.share = r * x.demand / demandSum l + if 0 < x.demand ∧ liveClaims (l.take i)
      < r - shareSum (l.map (Claim.floored r (demandSum l))) then 1 else 0 := by
  rw [serveClass_short short, giveLeftover_getElem?, ← List.map_take, openClaims_floored short, List.getElem?_map,
    Option.map_map, Option.map_eq_some_iff] at h
  obtain ⟨y, _, rfl⟩ := h
  have live := y.floored_open short
  simp only [Function.comp, Claim.topped, live]
  rfl

/-- Settles O35: full demands where the remainder allows, else floor shares and the left-over kW one each. -/
theorem classesAreServedExactly : Obligations.ClassesAreServedExactly := by
  unfold Obligations.ClassesAreServedExactly
  refine ⟨fun r l => ⟨serveClass_keys r l, fun enough x h => ?_, fun short => ?_⟩,
    fun r l rest => ⟨rfl, shareSum_serveClasses_le r _⟩, fun ls x h => ?_, fun s d k => ?_⟩
  · rw [serveClass_enough enough] at h
    obtain ⟨y, _, rfl⟩ := List.mem_map.1 h
    rfl
  · have floors : (l.map fun y => r * y.demand / demandSum l).sum
        = shareSum (l.map (Claim.floored r (demandSum l))) := by
      rw [shareSum, List.map_map]
      rfl
    rw [floors]
    exact ⟨shareSum_short short, fun x => serveClass_within, (leftover_lt short).2, fun i x => serveClass_share short⟩
  · exact Nat.le_zero.1 ((share_le_shareSum h).trans (shareSum_serveClasses_le 0 ls))
  · have ascending : furnaces.Pairwise (· < ·) := by decide
    rw [State.claims, List.map_map]
    simpa [Function.comp_def] using ascending.filter _

end Sys2Proof.Machine
end

section
/-! O36. The remake of the allocation (R101, R103, R104, R107), and what a furnace's demand and grant are bounded by in
a state that a remake has left. -/

namespace Sys2Proof.Machine

/-! ### The grants of served claims -/

theorem grantOf_cons (x : Claim) (l : List Claim) (f : Furnace) :
    grantOf (x :: l) f = if x.furnace = f then x.share else grantOf l f := by
  by_cases h : x.furnace = f <;> simp [grantOf, h]

/-- A furnace is granted the share of a claim of its own, or nothing. -/
theorem grantOf_cases (l : List Claim) (f : Furnace) :
    (∃ x ∈ l, x.furnace = f ∧ grantOf l f = x.share) ∨ grantOf l f = 0 := by
  unfold grantOf
  split
  next x found => exact .inl ⟨x, List.mem_of_find?_eq_some found, by simpa using List.find?_some found, rfl⟩
  next => exact .inr rfl

/-- A value of one furnace alone, summed over the furnaces. -/
theorem sum_furnaces_single (g : Furnace) (n : Nat) : (furnaces.map fun f => if g = f then n else 0).sum = n := by
  fin_cases g <;> simp [furnaces]

/-- The grants sum to at most the shares. -/
theorem sum_grantOf_le (l : List Claim) : (furnaces.map (grantOf l)).sum ≤ shareSum l := by
  induction l with
  | nil => decide
  | cons x l ih =>
    rw [shareSum_cons]
    calc (furnaces.map (grantOf (x :: l))).sum
        ≤ (furnaces.map fun f => (if x.furnace = f then x.share else 0) + grantOf l f).sum := by
          refine List.sum_le_sum fun f _ => ?_
          rw [grantOf_cons]
          split <;> omega
      _ = x.share + (furnaces.map (grantOf l)).sum := by rw [List.sum_map_add, sum_furnaces_single]
      _ ≤ x.share + shareSum l := Nat.add_le_add_left ih _

/-! ### Demands and grants of a state -/

variable (s : State)

theorem State.demandOf_le_rated (f : Furnace) : s.demandOf f ≤ (s.profile f).rated := by
  unfold State.demandOf
  dsimp only
  split
  · exact Nat.zero_le _
  · exact Nat.min_le_right _ _

/-- In ALL_STOP nothing is demanded (R102). -/
theorem State.demandOf_allStop (stopped : s.watch.run = .allStop) (f : Furnace) : s.demandOf f = 0 := by
  have base : s.baseDemand f = 0 := by simp [State.baseDemand, stopped]
  simp [State.demandOf, State.cappedDemand, base]

/-- Under a FOLLOW lockout nothing is demanded (R102). -/
theorem State.demandOf_follow {f : Furnace} (locked : s.heats[f].lockout = some .follow) : s.demandOf f = 0 := by
  have base : s.baseDemand f = 0 := by
    unfold State.baseDemand
    dsimp only
    split_ifs
    · rfl
    · rfl
    · rfl
  simp [State.demandOf, State.cappedDemand, base]

/-- A furnace's claim is for its demand, and stands in the class of its phase (R104). -/
theorem State.key_mem_claims {d : Vector Nat 6} {k : Nat} {x : Claim} (h : x.key ∈ (s.claims d k).map Claim.key) :
    x.demand = d[x.furnace] ∧ (s.heats[x.furnace].phase).class = some k := by
  rw [State.claims, List.map_map] at h
  obtain ⟨f, hf, same⟩ := List.mem_map.1 h
  obtain ⟨rfl, demand⟩ := Prod.mk.inj same
  exact ⟨demand.symm, by simpa using (List.mem_filter.1 hf).2⟩

theorem State.mem_served {d : Vector Nat 6} {x : Claim} (h : x ∈ s.served d) :
    x.share ≤ d[x.furnace] ∧ ∃ k, (s.heats[x.furnace].phase).class = some k := by
  obtain ⟨⟨l, hl, key⟩, within⟩ := mem_serveClasses h
  obtain ⟨k, rfl⟩ : ∃ k, l = s.claims d k := by
    simp only [List.mem_cons, List.not_mem_nil, or_false] at hl
    obtain rfl | rfl | rfl := hl
    exacts [⟨1, rfl⟩, ⟨2, rfl⟩, ⟨3, rfl⟩]
  obtain ⟨demand, cls⟩ := s.key_mem_claims key
  exact ⟨demand ▸ within, k, cls⟩

/-- A grant is within its demand (R105). -/
theorem State.grantOf_served_le (d : Vector Nat 6) (f : Furnace) : grantOf (s.served d) f ≤ d[f] := by
  obtain ⟨x, hx, rfl, grant⟩ | none := grantOf_cases (s.served d) f
  · rw [grant]
    exact (s.mem_served hx).1
  · rw [none]
    exact Nat.zero_le _

/-- A furnace in EMPTY is in no class and has no grant (R104). -/
theorem State.grantOf_served_empty (d : Vector Nat 6) {f : Furnace} (empty : s.heats[f].phase = .empty) :
    grantOf (s.served d) f = 0 := by
  obtain ⟨x, hx, rfl, _⟩ | none := grantOf_cases (s.served d) f
  · obtain ⟨k, cls⟩ := (s.mem_served hx).2
    rw [empty] at cls
    exact nomatch cls
  · exact none

theorem State.demands_getElem (f : Furnace) : s.demands[f] = s.demandOf f := by simp [State.demands]

/-! ### A remade allocation -/

/-- The allocation is that of a remake: d and G are those of the state, and I is within G. -/
def State.allocated : Prop := ∀ f : Furnace, s.power[f].demand = s.demandOf f
  ∧ s.power[f].grant = grantOf (s.served s.demands) f ∧ s.power[f].issued ≤ s.power[f].grant

variable {s}

theorem State.allocated.grant_le (h : s.allocated) (f : Furnace) : s.power[f].grant ≤ s.power[f].demand := by
  obtain ⟨demand, grant, _⟩ := h f
  rw [demand, grant, ← s.demands_getElem f]
  exact s.grantOf_served_le _ f

theorem State.allocated.demand_le (h : s.allocated) (f : Furnace) : s.power[f].demand ≤ (s.profile f).rated :=
  (h f).1 ▸ s.demandOf_le_rated f

theorem State.allocated.grantSum_le (h : s.allocated) : s.grantSum ≤ s.availablePower := by
  have grants : s.grantSum = (furnaces.map (grantOf (s.served s.demands))).sum :=
    congrArg List.sum (List.map_congr_left fun f _ => (h f).2.1)
  rw [grants]
  exact (sum_grantOf_le _).trans (shareSum_serveClasses_le _ _)

/-- A state that a remake has left keeps to its supply (R104, R105, R107, R183). -/
theorem State.allocated.supplySafe (h : s.allocated) : s.supplySafe := by
  refine ⟨fun f => ⟨(h f).2.2, h.grant_le f, h.demand_le f⟩, h.grantSum_le, fun stopped f => ?_⟩
  have bound := h.grant_le f
  rw [(h f).1, s.demandOf_allStop stopped f] at bound
  exact Nat.le_zero.1 bound

variable (s)

/-- What a remake gives a furnace (R103 to R107). -/
theorem State.remake_furnace (f : Furnace) : s.remake.power[f].demand = s.demandOf f
    ∧ s.remake.power[f].grant = grantOf (s.served s.demands) f
    ∧ s.remake.power[f].issued = min s.power[f].issued s.remake.power[f].grant
    ∧ s.remake.power[f].ordered = s.power[f].ordered ∧ s.remake.power[f].actual = s.power[f].actual := by
  rw [State.remake_power, State.applyGrant_same]
  exact ⟨rfl, rfl, rfl, rfl, rfl⟩

theorem State.remake_demandOf (f : Furnace) : s.remake.demandOf f = s.demandOf f :=
  State.demandOf_congr f (by simp) (by simp) (by simp) (by simp) (by simp) (by simp) (s.remake_furnace f).2.2.2.1

theorem State.remake_allocated : s.remake.allocated := by
  intro f
  obtain ⟨demand, grant, issued, _⟩ := s.remake_furnace f
  have served : s.remake.served s.remake.demands = s.served s.demands := by
    rw [State.demands_congr s.remake_demandOf, State.served_congr (v := s) (by simp) (by simp)]
  refine ⟨demand.trans (s.remake_demandOf f).symm, grant.trans (congrArg (grantOf · f) served.symm), ?_⟩
  rw [issued]
  exact Nat.min_le_right _ _

/-- Of the rest of the state a remake moves the loop port alone. -/
theorem State.remake_eq : s.remake = { s with power := s.remake.power, loop := s.remake.loop } := by
  obtain ⟨pending, time, pinLow, intake, tables, contacts, heats, clamps, holding, circuits, taps, watch, mgmt⟩ :=
    s.remake_frame
  generalize s.remake = t at *
  cases t
  rw [State.mk.injEq]
  exact ⟨pending, time, pinLow, rfl, intake, tables, contacts, heats, rfl, clamps, holding, circuits, taps, watch, mgmt⟩

/-- Settles O36: a remake gives each furnace its demand and its grant, and cuts I to the grant. -/
theorem remakeDividesTheSupply : Obligations.RemakeDividesTheSupply := by
  unfold Obligations.RemakeDividesTheSupply
  intro s t
  have allocated : t.allocated := s.remake_allocated
  have profiles (f : Furnace) : t.profile f = s.profile f := by simp [t, State.profile]
  have supply : t.availablePower = s.availablePower := by simp [t, State.availablePower]
  refine ⟨fun f => ?_, supply ▸ allocated.grantSum_le, s.remake_eq⟩
  obtain ⟨demand, grant, issued, ordered, actual⟩ := s.remake_furnace f
  exact ⟨demand, profiles f ▸ allocated.demand_le f, allocated.grant_le f, issued,
    fun empty => grant.trans (s.grantOf_served_empty _ empty), ordered, actual⟩

end Sys2Proof.Machine
end

section
/-! SUPPORT. What an event's own changes can make of the allocation before its end (R98, R107, R108, R113, R118): no
demand and no grant moves and no I rises above its grant, unless the shop enters ALL_STOP, which is an input of the
allocation. -/

namespace Sys2Proof.Machine

/-- From `x` to `y` demand and grant stay, and I stays within the grant. -/
structure Power.Kept (x y : Power) : Prop where
  demand : y.demand = x.demand
  grant : y.grant = x.grant
  issued : x.issued ≤ x.grant → y.issued ≤ y.grant

theorem Power.Kept.refl (x : Power) : x.Kept x := ⟨rfl, rfl, id⟩

theorem Power.Kept.trans {x y z : Power} (h : x.Kept y) (k : y.Kept z) : x.Kept z :=
  ⟨k.demand.trans h.demand, k.grant.trans h.grant, k.issued ∘ h.issued⟩

/-- From `a` to `b` every furnace keeps its demand and its grant, unless the shop has entered ALL_STOP. -/
inductive AllocationKept (a b : State) : Prop where
  | kept (run : b.watch.run = a.watch.run) (power : ∀ f : Furnace, (a.power[f]).Kept b.power[f])
  | stopped (before : a.watch.run = .run) (after : b.watch.run = .allStop)

theorem AllocationKept.refl (a : State) : AllocationKept a a := .kept rfl fun _ => Power.Kept.refl _

theorem AllocationKept.trans {a b c : State} (h : AllocationKept a b) (k : AllocationKept b c) :
    AllocationKept a c := by
  cases h with
  | kept run power =>
    cases k with
    | kept run' power' => exact .kept (run'.trans run) fun f => (power f).trans (power' f)
    | stopped before after => exact .stopped (run.symm.trans before) after
  | stopped before after =>
    cases k with
    | kept run' _ => exact .stopped before (run'.trans after)
    | stopped before' _ => exact nomatch after.symm.trans before'

variable {a s t : State}

/-- What moves neither the power records nor the run state. -/
theorem AllocationKept.same (h : AllocationKept a s) (power : t.power = s.power)
    (run : t.watch.run = s.watch.run) : AllocationKept a t :=
  h.trans (.kept run fun _ => by rw [power]; exact Power.Kept.refl _)

theorem AllocationKept.fold {β : Type} {g : State → β → State}
    (step : ∀ u b, AllocationKept a u → AllocationKept a (g u b)) (l : List β) (h : AllocationKept a s) :
    AllocationKept a (l.foldl g s) := List.foldlRecOn l g h fun u hu b _ => step u b hu

theorem ite_allocation {p : Prop} [Decidable p] {u v : State} (h : AllocationKept a u) (k : AllocationKept a v) :
    AllocationKept a (if p then u else v) := by
  split
  · exact h
  · exact k

/-- One furnace's record is replaced. -/
theorem State.setPower_allocation {f : Furnace} {p : Power} (h : AllocationKept a s) (kept : (s.power[f]).Kept p) :
    AllocationKept a (s.setPower f p) := by
  refine h.trans (.kept rfl fun g => ?_)
  by_cases other : f = g
  · subst other
    rw [State.setPower_same]
    exact kept
  · rw [State.setPower_other s p other]
    exact Power.Kept.refl _

/-! ### The power allocator -/

theorem State.placeOrder_allocation {f : Furnace} {c : OrderClass} (h : AllocationKept a s) :
    AllocationKept a (s.placeOrder f c) :=
  h.trans (.kept (by simp) fun g => by rw [State.placeOrder_power]; exact ⟨rfl, rfl, id⟩)

/-- A ramp expiry raises I to the grant at most (R108). -/
theorem State.rampExpire_allocation {f : Furnace} (h : AllocationKept a s) : AllocationKept a (s.rampExpire f) := by
  have within : s.rampTarget f ≤ s.power[f].grant := Nat.min_le_left _ _
  have raised : AllocationKept a (s.setIssued f (s.rampTarget f) .normal) :=
    placeOrder_allocation (setPower_allocation h ⟨rfl, rfl, fun _ => within⟩)
  unfold State.rampExpire
  exact setPower_allocation (ite_allocation h raised) ⟨rfl, rfl, id⟩

theorem State.suspendFollow_allocation {f : Furnace} (h : AllocationKept a s) :
    AllocationKept a (s.suspendFollow f) := ite_allocation (setPower_allocation h ⟨rfl, rfl, id⟩) h

theorem State.actualPower_allocation {f : Furnace} {v : Nat} (h : AllocationKept a s) :
    AllocationKept a (s.actualPower f v) := setPower_allocation h ⟨rfl, rfl, id⟩

theorem State.orderPower_allocation {f : Furnace} {v : Nat} (h : AllocationKept a s) :
    AllocationKept a (s.orderPower f v) := by
  have ordered : AllocationKept a (s.setPower f { s.power[f] with ordered := min v (s.profile f).rated }) :=
    setPower_allocation h ⟨rfl, rfl, id⟩
  exact ite_allocation (ordered.same rfl rfl) ordered

theorem State.reduceOrder_allocation {f : Furnace} (h : AllocationKept a s) : AllocationKept a (s.reduceOrder f) :=
  setPower_allocation h ⟨rfl, rfl, id⟩

theorem State.replaceOrder_allocation {f : Furnace} (h : AllocationKept a s) :
    AllocationKept a (s.replaceOrder f) :=
  ite_allocation (placeOrder_allocation h) (setPower_allocation h ⟨rfl, rfl, id⟩)

theorem State.followExpire_allocation {f : Furnace} (h : AllocationKept a s) :
    AllocationKept a (s.followExpire f) := by
  have idle : AllocationKept a ((s.lockFollow f).setPower f { (s.lockFollow f).power[f] with follow := .idle }) :=
    setPower_allocation (h.same rfl rfl) ⟨rfl, rfl, id⟩
  exact idle.same (by simp [State.followExpire]) (by simp [State.followExpire])

/-! ### The contact unit -/

/-- The entry to ALL_STOP is the one event of its own that remakes the allocation (R183). -/
theorem State.enterAllStop_run (s : State) (c : StopCause) (n : Byte) :
    (s.enterAllStop c n).watch.run = .allStop := by
  unfold State.enterAllStop
  split
  next stopped => exact stopped
  next => simp

theorem State.enterAllStop_allocation {c : StopCause} {n : Byte} (h : AllocationKept a s) :
    AllocationKept a (s.enterAllStop c n) := by
  refine h.trans ?_
  cases run : s.watch.run with
  | run => exact .stopped run (s.enterAllStop_run c n)
  | allStop =>
    have same : s.enterAllStop c n = s := by unfold State.enterAllStop; rw [run]
    rw [same]
    exact AllocationKept.refl s

theorem State.edge_allocation {i : InputNo} {rising : Bool} (h : AllocationKept a s) :
    AllocationKept a (s.edge i rising) := h.same (by simp) (by simp)

theorem State.sendNotices_allocation {old : Indications} (h : AllocationKept a s) :
    AllocationKept a (s.sendNotices old) := by
  unfold State.sendNotices State.estopNotice
  refine AllocationKept.fold (fun u f h => ite_allocation h (h.same (by simp) (by simp))) _ ?_
  refine AllocationKept.fold (fun u c h => ite_allocation h (h.same (by simp) (by simp))) _ ?_
  refine AllocationKept.fold (fun u c h => ite_allocation h (h.same (by simp) (by simp))) _ ?_
  refine AllocationKept.fold (fun u c h => ite_allocation h (h.same (by simp) (by simp))) _ ?_
  exact ite_allocation h (ite_allocation (enterAllStop_allocation h) h)

theorem State.refreshIndications_allocation (h : AllocationKept a s) : AllocationKept a s.refreshIndications :=
  sendNotices_allocation (h.same rfl rfl)

theorem State.filteredChange_allocation {i : InputNo} (h : AllocationKept a s) :
    AllocationKept a (s.filteredChange i) :=
  edge_allocation (refreshIndications_allocation (h.same rfl rfl))

theorem State.rawChange_allocation {i : InputNo} {closed : Bool} (h : AllocationKept a s) :
    AllocationKept a (s.rawChange i closed) :=
  ite_allocation h (ite_allocation (h.same rfl rfl)
    (ite_allocation (filteredChange_allocation (h.same rfl rfl)) (h.same rfl rfl)))

theorem State.recommitInput_allocation {i : InputNo} (h : AllocationKept a s) :
    AllocationKept a (s.recommitInput i) := ite_allocation (edge_allocation (h.same rfl rfl)) h

theorem State.recommitOutputs_allocation {m : Image} (h : AllocationKept a s) :
    AllocationKept a (s.recommitOutputs m) := h.same (by simp) (by simp)

theorem State.recommitContacts_allocation {m : Image} (h : AllocationKept a s) :
    AllocationKept a (s.recommitContacts m) := by
  have inputs : AllocationKept a (inputNos.foldl (fun s i => s.recommitInput i) s) :=
    AllocationKept.fold (fun _ _ h => recommitInput_allocation h) _ h
  exact recommitOutputs_allocation (refreshIndications_allocation inputs)

/-! ### Point intake -/

theorem State.staleNotice_allocation {key : StaleKey} (h : AllocationKept a s) :
    AllocationKept a (s.staleNotice key) := by
  cases key with
  | power f => exact suspendFollow_allocation (h.same (by simp) (by simp))
  | cooling c k => exact h.same (by simp [State.staleNotice]) (by simp [State.staleNotice])
  | ladle => exact h.same (by simp [State.staleNotice]) (by simp [State.staleNotice])
  | tilt f => exact h.same (by simp [State.staleNotice]) (by simp [State.staleNotice])

theorem State.freshToOwner_allocation {key : StaleKey} (h : AllocationKept a s) :
    AllocationKept a (s.freshToOwner key) := h.same (by simp) (by simp)

theorem State.turnPointStale_allocation {i : PointNo} {on : Bool} (h : AllocationKept a s) :
    AllocationKept a (s.turnPointStale i on) := by
  unfold State.turnPointStale
  split
  · exact ite_allocation h (ite_allocation (staleNotice_allocation (h.same rfl rfl))
      (freshToOwner_allocation (h.same rfl rfl)))
  · exact h

theorem State.flagStale_allocation {i : PointNo} (h : AllocationKept a s) : AllocationKept a (s.flagStale i) :=
  h.same (by simp) (by simp)

theorem State.deliver_allocation {e : PointEntry} {v : Int} {n : Nat} (h : AllocationKept a s) :
    AllocationKept a (s.deliver e v n) := by
  unfold State.deliver
  dsimp only
  split
  · exact actualPower_allocation (h.same (by simp) (by simp))
  · exact orderPower_allocation h
  all_goals exact h.same (by simp) (by simp)

theorem State.acceptItem_allocation {i : PointNo} {p : PointLive} {seq : Byte} {it : SampleItem}
    (h : AllocationKept a s) : AllocationKept a (s.acceptItem i p seq it) := by
  have counted {x : IntakeCounters} : AllocationKept a (if (s.point i).clamps it.raw = true then
      s.withIntakeCounters x else s) := ite_allocation (h.same rfl rfl) h
  exact deliver_allocation (ite_allocation (turnPointStale_allocation (counted.same rfl rfl)) (counted.same rfl rfl))

theorem State.skipItem_allocation {i : PointNo} {p : PointLive} {seq : Byte} (h : AllocationKept a s) :
    AllocationKept a (s.skipItem i p seq) := h.same (by simp) (by simp)

theorem State.recommitPoints_allocation {m : Image} (h : AllocationKept a s) :
    AllocationKept a (s.recommitPoints m) := by
  unfold State.recommitPoints
  refine AllocationKept.fold (fun u c h => h.same (by simp) (by simp)) _ ?_
  refine AllocationKept.fold (fun u key h => ?_) _ ?_
  · unfold State.recommitNotice
    split
    · exact staleNotice_allocation h
    · exact freshToOwner_allocation h
    · exact h
  refine AllocationKept.same ?_ (State.withStale_power _ _) (congrArg Watch.run (State.withStale_watch _ _))
  refine AllocationKept.fold (fun u i h => ite_allocation (flagStale_allocation h) h) _ ?_
  exact h.same rfl rfl

end Sys2Proof.Machine
end

section
/-! O7. Every command keeps the allocation within the supply (R98, R103 to R108, R183): the end of an event remakes it
where an input has moved, and leaves it otherwise; what ends no event moves nothing that the bounds read. -/

namespace Sys2Proof.Machine

variable {s t : State}

/-! ### What the bounds read -/

/-- From `a` to `b` nothing that the bounds of the supply read has moved but for I within its grant. -/
structure SupplyKept (a b : State) : Prop where
  run : b.watch.run = a.watch.run
  profiles : b.tables.profile.active = a.tables.profile.active
  supply : b.availablePower = a.availablePower
  power : ∀ f : Furnace, (a.power[f]).Kept b.power[f]

theorem SupplyKept.supplySafe (kept : SupplyKept s t) (h : s.supplySafe) : t.supplySafe := by
  obtain ⟨ordered, sum, stopped⟩ := h
  have rated (f : Furnace) : t.profile f = s.profile f := by unfold State.profile; rw [kept.profiles]
  refine ⟨fun f => ?_, ?_, fun stop f => ?_⟩
  · obtain ⟨issued, grant, demand⟩ := ordered f
    obtain ⟨demand', grant', issued'⟩ := kept.power f
    exact ⟨issued' issued, by rwa [grant', demand'], by rwa [demand', rated]⟩
  · have same : t.grantSum = s.grantSum := congrArg List.sum (List.map_congr_left fun f _ => (kept.power f).grant)
    rwa [same, kept.supply]
  · exact (kept.power f).grant.trans (stopped (kept.run.symm.trans stop) f)

/-- What moves no power record, no run state, no profile and no supply. -/
theorem SupplyKept.same (power : t.power = s.power) (run : t.watch.run = s.watch.run)
    (profiles : t.tables.profile.active = s.tables.profile.active) (params : t.mgmt.params = s.mgmt.params) :
    SupplyKept s t :=
  ⟨run, profiles, by unfold State.availablePower; rw [params], fun _ => by rw [power]; exact Power.Kept.refl _⟩

/-- What moves the power records within their grants alone. -/
theorem AllocationKept.supplyKept (h : AllocationKept s t) (watch : t.watch = s.watch) (tables : t.tables = s.tables)
    (mgmt : t.mgmt = s.mgmt) : SupplyKept s t := by
  cases h with
  | kept run power => exact ⟨run, by rw [tables], by unfold State.availablePower; rw [mgmt], power⟩
  | stopped before after =>
    rw [watch] at after
    exact nomatch before.symm.trans after

/-! ### The end of an event -/

/-- An event that has moved an input of the allocation leaves a remade one (R106). -/
theorem EventEnd.allocated {u : State} {x : Causes} (h : EventEnd s u t x) (moved : s.allocInputs ≠ t.allocInputs) :
    t.allocated := by
  intro f
  have remade := h.remade moved f
  rw [remade]
  exact ⟨rfl, rfl, Nat.min_le_right _ _⟩

theorem EventEnd.supplySafe {u : State} {x : Causes} (h : EventEnd s u t x) (safe : s.supplySafe)
    (kept : u.watch.run = s.watch.run → ∀ f : Furnace, (s.power[f]).Kept u.power[f]) : t.supplySafe := by
  by_cases same : s.allocInputs = t.allocInputs
  · have run : t.watch.run = s.watch.run := (congrArg AllocInputs.run same).symm
    have supply : t.availablePower = s.availablePower :=
      congrArg₂ Nat.sub (congrArg AllocInputs.pCap same).symm (congrArg AllocInputs.pReserve same).symm
    refine SupplyKept.supplySafe ⟨run, (congrArg AllocInputs.profile same).symm, supply, fun f => ?_⟩ safe
    rw [h.kept same]
    exact kept (by rw [← h.watch, run]) f
  · exact (h.allocated same).supplySafe

theorem State.settle_supplySafe {s0 : State} {x : Causes} (safe : s0.supplySafe) (h : AllocationKept s0 s) :
    (s0.settle s x).supplySafe := by
  refine (State.settle_end s0 s x).supplySafe safe fun run => ?_
  cases h with
  | kept _ power => exact power
  | stopped before after => exact nomatch after.symm.trans (run.trans before)

/-- An event whose own changes touch neither the power records nor the run state. -/
theorem State.settle_quiet {s0 : State} {x : Causes} (safe : s0.supplySafe) (power : s.power = s0.power)
    (run : s.watch.run = s0.watch.run) : (s0.settle s x).supplySafe :=
  settle_supplySafe safe ((AllocationKept.refl s0).same power run)

/-! ### Commands -/

theorem State.enterExpired_run (s : State) : s.enterExpired.watch.run = s.watch.run := by rw [s.enterExpired_watch]

theorem State.paramWritten_run (s : State) (n : Nat) : (s.paramWritten n).watch.run = s.watch.run := by
  unfold State.paramWritten
  split
  · split
    · simp
    · rfl
  · split
    · exact s.enterExpired_run
    · rfl
  · simp [foldl_keeps (fun s : State => s.watch)]
  · rfl

theorem State.itemSetParameter_supplySafe {n : Byte} {v : BitVec 32} (h : s.supplySafe) :
    (s.itemSetParameter n v).state.supplySafe := by
  unfold State.itemSetParameter
  dsimp only
  split
  · exact h
  · split_ifs
    · exact h
    · exact h
    · exact h
    · exact h
    · exact settle_quiet h (by simp) (paramWritten_run _ _)

theorem State.itemResetCircuit_supplySafe {n : Byte} (h : s.supplySafe) :
    (s.itemResetCircuit n).state.supplySafe := by
  unfold State.itemResetCircuit
  split
  · exact h
  · exact ite_item_keeps (ite_item_keeps h (settle_quiet h (by simp) (by simp))) h

theorem State.itemWdStart_supplySafe (h : s.supplySafe) : s.itemWdStart.state.supplySafe := by
  unfold State.itemWdStart
  split
  · exact settle_quiet h rfl rfl
  · exact settle_quiet h rfl rfl
  · exact h
  · exact h
  · exact h

theorem State.itemWdForce_supplySafe (h : s.supplySafe) : s.itemWdForce.state.supplySafe := by
  have forced : (s.settle s.enterExpired Causes.none).supplySafe := settle_quiet h (by simp) s.enterExpired_run
  unfold State.itemWdForce
  split
  · exact forced
  · exact forced
  · exact forced
  · exact forced
  · exact h

theorem State.itemWdRestart_supplySafe (h : s.supplySafe) : s.itemWdRestart.state.supplySafe := by
  unfold State.itemWdRestart
  split
  · exact settle_quiet h rfl rfl
  · exact h
  · exact h
  · exact h
  · exact h

theorem State.beat_supplyKept (s : State) : SupplyKept s s.beat := by
  refine SupplyKept.same (by simp) ?_ (by simp) (by simp)
  unfold State.beat
  split <;> rfl

theorem State.itemHeartbeat_supplySafe {token : BitVec 16} (h : s.supplySafe) :
    (s.itemHeartbeat token).state.supplySafe := by
  have expired : (s.settle s.enterExpired Causes.none).supplySafe := settle_quiet h (by simp) s.enterExpired_run
  exact ite_item_keeps (ite_item_keeps (s.beat_supplyKept.supplySafe h) expired) h

theorem State.itemAllStop_supplySafe {b : Bool} {source : Byte} (h : s.supplySafe) :
    (s.itemAllStop b source).state.supplySafe := by
  unfold State.itemAllStop
  split
  · exact settle_supplySafe h (enterAllStop_allocation (AllocationKept.refl s))
  · exact h

/-- RESUME moves the run state, which is an input of the allocation. -/
theorem State.itemResume_supplySafe (h : s.supplySafe) : s.itemResume.state.supplySafe := by
  unfold State.itemResume
  split
  · exact h
  next stopped =>
    exact ite_item_keeps h ((State.settle_end _ _ _).supplySafe h fun run => absurd run.symm stopped)

/-- Table data and RELOAD STAGING write a staging copy, and the allocator reads none. -/
theorem Tables.setCopies_profile_active (t : Tables) (n : TableNo) (c : Copies) (h : c.active = (t.copies n).active) :
    (t.setCopies n c).profile.active = t.profile.active := by
  cases n
  case profile => exact h
  all_goals rfl

theorem State.itemTableData_supplyKept (s : State) (bytes : List Byte) :
    SupplyKept s (s.itemTableData bytes).state := by
  refine SupplyKept.same (by simp) (by simp) ?_ (by simp)
  unfold State.itemTableData
  split
  · rfl
  · split
    · rfl
    · split
      · rfl
      · split
        · rfl
        · exact Tables.setCopies_profile_active _ _ _ rfl

theorem State.itemReloadStaging_supplyKept (s : State) : SupplyKept s s.itemReloadStaging.state := by
  refine SupplyKept.same (by simp) (by simp) ?_ (by simp)
  unfold State.itemReloadStaging
  split
  · rfl
  · split
    · rfl
    · split
      · rfl
      · exact Tables.setCopies_profile_active _ _ _ rfl

theorem State.runCommand_supplySafe (s : State) (i : Instr) (h : s.supplySafe) :
    (s.runCommand i).state.supplySafe := by
  have quiet {u : State} {x : Causes} (power : u.power = s.power) (run : u.watch.run = s.watch.run) :
      (s.settle u x).supplySafe := settle_quiet h power run
  cases i
  case setParameter => exact itemSetParameter_supplySafe h
  case openHeat => exact onFurnace_keeps h fun _ => ite_item_keeps h (ite_item_keeps h (quiet rfl rfl))
  case drain => exact onFurnace_keeps h fun _ => ite_item_keeps h (quiet rfl rfl)
  case setMass =>
    exact onFurnace_keeps h fun _ => ite_item_keeps h (ite_item_keeps h (quiet (by simp) (by simp)))
  case setBand => exact onFurnace_keeps h fun _ => ite_item_keeps h (ite_item_keeps h (quiet rfl rfl))
  case approve =>
    exact onFurnace_keeps h fun _ => ite_item_keeps h (ite_item_keeps h (ite_item_keeps h (quiet rfl rfl)))
  case revoke => exact onFurnace_keeps h fun _ => quiet rfl rfl
  case resetFurnace => exact onFurnace_keeps h fun _ => ite_item_keeps h (ite_item_keeps h (quiet rfl rfl))
  case resetCircuit => exact itemResetCircuit_supplySafe h
  case wdStart => exact itemWdStart_supplySafe h
  case heartbeat => exact itemHeartbeat_supplySafe h
  case wdPause => exact ite_item_keeps h (ite_item_keeps h (quiet rfl rfl))
  case wdForce => exact itemWdForce_supplySafe h
  case wdRestart => exact itemWdRestart_supplySafe h
  case allStop => exact itemAllStop_supplySafe h
  case resume => exact itemResume_supplySafe h
  case releaseTaps => exact ite_item_keeps (quiet rfl rfl) h
  case tableData dt bytes => exact (s.itemTableData_supplyKept bytes).supplySafe h
  case reloadStaging => exact s.itemReloadStaging_supplyKept.supplySafe h
  all_goals
    refine SupplyKept.supplySafe (SupplyKept.same ?_ ?_ ?_ ?_) h
    all_goals simp [State.runCommand]

/-! ### The warm restart and arrivals -/

/-- A warm restart remakes the allocation, and what follows the remake moves nothing of it. -/
theorem State.warmRestart_supplySafe (s : State) : s.warmRestart.supplySafe := by
  rw [s.warmRestart_eq]
  have remade := (s.cleared.placeZeros.restartTaps.compareAll.remake_allocated).supplySafe
  generalize s.cleared.placeZeros.restartTaps.compareAll.remake = u at remade
  exact SupplyKept.supplySafe (SupplyKept.same (by simp) (by simp) (by simp) (by simp)) remade

theorem State.matchedItem_supplySafe {i : PointNo} {seq : Byte} {it : SampleItem} (h : s.supplySafe) :
    (s.matchedItem i seq it).supplySafe := by
  unfold State.matchedItem
  dsimp only
  split_ifs
  · exact h
  · exact settle_supplySafe h (skipItem_allocation (AllocationKept.refl s))
  · exact settle_supplySafe h (acceptItem_allocation (AllocationKept.refl s))

theorem State.item_supplySafe {station seq : Byte} {order : Bool} {it : SampleItem} (h : s.supplySafe) :
    (s.item station seq order it).supplySafe := by
  unfold State.item
  split
  · exact matchedItem_supplySafe h
  · exact h

theorem State.items_supplySafe {station seq : Byte} {order : Bool} {body : List Byte} (h : s.supplySafe) :
    (s.items station seq order body).supplySafe := by
  have taken : ((sampleItems body).foldl (fun s it => s.item station seq order it) s).supplySafe :=
    List.foldlRecOn _ _ h fun _ hu _ _ => item_supplySafe hu
  unfold State.items
  dsimp only
  split
  · exact taken
  · exact taken

theorem ArrivalKeeps.supplySafe : ArrivalKeeps State.supplySafe where
  loop _ _ h := h
  frame _ _ h := h
  command := State.runCommand_supplySafe
  restart s _ := s.warmRestart_supplySafe
  overrun _ h := h
  items _ _ _ _ _ h := State.items_supplySafe h
  demand _ _ h := State.settle_quiet h (by simp) (by simp)
  cancel _ _ h := State.settle_quiet h (by simp) (by simp)
  malformed _ h := h

/-! ### The commits of the tables -/

theorem State.compared_allocation {a : State} (h : AllocationKept a s) :
    AllocationKept a s.compareAll.tapOnProfile := h.same (by simp) (by simp)

/-- The blocks' parts in a profile commit before its event ends (R77, R72, R112, R115, R130, R171). -/
theorem State.profilesCommitted_allocation {s0 : State} (h : AllocationKept t s) : AllocationKept t
    (furnaces.foldl (fun s f => s.suspendFollow f) (furnaces.foldl (fun s f => s.reduceOrder f)
      (furnaces.foldl (fun s f => s.holdAtCommit f)
        (furnaces.foldl (fun s f => s.reanchorHeat (s0.profile f) f) s)).compareAll.tapOnProfile)) := by
  refine AllocationKept.fold (fun _ _ h => suspendFollow_allocation h) _ ?_
  refine AllocationKept.fold (fun _ _ h => reduceOrder_allocation h) _ ?_
  refine compared_allocation ?_
  refine AllocationKept.fold (fun _ _ h => h.same (by simp) (by simp)) _ ?_
  exact AllocationKept.fold (fun _ _ h => h.same (by simp) (by simp)) _ h

theorem State.followAtCommit_supplySafe {f : Furnace} (h : s.supplySafe) : (s.followAtCommit f).supplySafe := by
  unfold State.followAtCommit
  split
  · exact settle_supplySafe h (followExpire_allocation (AllocationKept.refl s))
  · exact h

theorem State.rampAtCommit_supplySafe {f : Furnace} (h : s.supplySafe) : (s.rampAtCommit f).supplySafe := by
  unfold State.rampAtCommit
  split
  · exact settle_supplySafe h (rampExpire_allocation (AllocationKept.refl s))
  · exact h

theorem State.replaceOrder_supplySafe {f : Furnace} (h : s.supplySafe) : (s.replaceOrder f).supplySafe :=
  ((replaceOrder_allocation (AllocationKept.refl s)).supplyKept (by simp) (by simp) (by simp)).supplySafe h

theorem State.recommitProfiles_supplySafe {s0 : State} (safe : s0.supplySafe) (h : AllocationKept s0 s) :
    (s0.recommitProfiles s).supplySafe := by
  have ended := settle_supplySafe (x := Causes.testing furnaces) safe (profilesCommitted_allocation (s0 := s0) h)
  have followed := List.foldlRecOn furnaces (fun s f => s.followAtCommit f) (motive := State.supplySafe) ended
    fun _ h _ _ => followAtCommit_supplySafe h
  have ramped := List.foldlRecOn furnaces (fun s f => s.rampAtCommit f) (motive := State.supplySafe) followed
    fun _ h _ _ => rampAtCommit_supplySafe h
  have placed := List.foldlRecOn furnaces (fun s f => s.replaceOrder f) (motive := State.supplySafe) ramped
    fun _ h _ _ => replaceOrder_supplySafe h
  exact placed

theorem State.commitEffects_supplySafe {s0 : State} {n : TableNo} {old : Image} (safe : s0.supplySafe)
    (h : AllocationKept s0 s) : (s0.commitEffects s n old).supplySafe := by
  unfold State.commitEffects
  split
  · exact settle_supplySafe safe (recommitPoints_allocation h)
  · exact recommitProfiles_supplySafe safe h
  · exact settle_supplySafe safe (AllocationKept.fold (fun _ _ h => h.same (by simp) (by simp)) _ h)
  · exact settle_supplySafe safe (recommitContacts_allocation h)

theorem State.finishValidation_supplySafe (h : s.supplySafe) : s.finishValidation.supplySafe := by
  unfold State.finishValidation State.completeValidation
  split
  · split
    · exact SupplyKept.supplySafe (SupplyKept.same (by simp) (by simp) (by simp) (by simp)) h
    · exact commitEffects_supplySafe h ((AllocationKept.refl s).same rfl rfl)
  · exact h

/-! ### Events -/

theorem State.expire_supplySafe {due : Bool} {k : State → State} (h : s.supplySafe)
    (hk : AllocationKept s (k s)) : (s.expire due k).supplySafe := by
  unfold State.expire
  split
  · exact settle_supplySafe h hk
  · exact h

theorem State.returnExpire_supplySafe (h : s.supplySafe) : s.returnExpire.supplySafe := by
  unfold State.returnExpire
  split
  next r _ _ =>
    have ended : (s.settle ((s.tiltFault r.furnace).accountPour r) Causes.none).supplySafe :=
      settle_quiet h (by simp) (by simp)
    exact SupplyKept.supplySafe (SupplyKept.same (by simp) (by simp) (by simp) (by simp)) ended
  · exact settle_quiet h rfl rfl

/-- Every command keeps the allocation within the supply. -/
theorem State.exec_supplySafe {c : Instr} (h : s.supplySafe) (ht : exec c s = .next t) : t.supplySafe := by
  have event {dt : Time} {k : State → State} (hk : ∀ u : State, u.supplySafe → (k u).supplySafe) :
      (s.event dt k).supplySafe := State.event_keeps (fun _ hu => hu) hk h
  have expiry {dt : Time} {due : State → Bool} {k : State → State} (hk : ∀ u : State, AllocationKept u (k u)) :
      (s.event dt fun u => u.expire (due u) k).supplySafe := event fun u hu => expire_supplySafe hu (hk u)
  have quiet {u v : State} (power : v.power = u.power) (run : v.watch.run = u.watch.run) : AllocationKept u v :=
    (AllocationKept.refl u).same power run
  by_cases hc : (encodeCommand c).isSome = true
  · obtain ⟨dt, source, seq, rfl⟩ | ⟨dt, _, he⟩ := exec_command hc
    · obtain rfl := Host.Outcome.next.inj ht
      exact event fun u hu => ArrivalKeeps.supplySafe.restartCommand hu
    · rw [he s] at ht
      obtain rfl := Host.Outcome.next.inj ht
      exact event fun u hu => (u.openFrame 1).runCommand_supplySafe c hu
  cases c
  all_goals first | exact absurd rfl hc | obtain rfl := Host.Outcome.next.inj ht
  case coldReset a r raw =>
    obtain ⟨t, cold, _, _, supply, _⟩ := coldResetMeetsInvariants a r raw s
    obtain rfl := Host.Outcome.next.inj cold
    exact supply
  case resetPinHeldLow => exact h
  case frameArrival => exact event fun _ => ArrivalKeeps.supplySafe.arrive
  case linkCompletion => exact event fun u hu => by unfold State.completeLink; split <;> exact hu
  case validationComplete => exact event fun _ => finishValidation_supplySafe
  case rawLevelChange =>
    exact event fun u hu => settle_supplySafe hu (rawChange_allocation (AllocationKept.refl u))
  case persistenceTimerExpiry => exact expiry fun u => filteredChange_allocation (AllocationKept.refl u)
  case staleTimerExpiry =>
    exact expiry fun u => turnPointStale_allocation (flagStale_allocation (AllocationKept.refl u))
  case loopSilenceExpiry => exact event fun u hu => by split <;> exact hu
  case rampTimerExpiry => exact expiry fun u => rampExpire_allocation (AllocationKept.refl u)
  case refreshTimerExpiry =>
    refine event fun u hu => ?_
    split
    · exact ((placeOrder_allocation (AllocationKept.refl u)).supplyKept (by simp) (by simp) (by simp)).supplySafe hu
    · exact hu
  case followTimerExpiry => exact expiry fun u => followExpire_allocation (AllocationKept.refl u)
  case returnTimerExpiry => exact event fun u hu => by split; exacts [returnExpire_supplySafe hu, hu]
  case watchdogTimerExpiry => exact expiry fun u => quiet (by simp) u.enterExpired_run
  case tableData dt bytes => exact event fun u hu => (u.openFrame 1).runCommand_supplySafe (.tableData dt bytes) hu
  all_goals exact expiry fun u => quiet (by simp) (by simp)

/-- Settles O7: the end of an event remakes the allocation where an input has moved, and every other operation keeps
demand and grant, and I within the grant. -/
theorem issuedPowerStaysWithinSupply : Obligations.IssuedPowerStaysWithinSupply := by
  unfold Obligations.IssuedPowerStaysWithinSupply
  intro s t h ht
  unfold step at ht
  split at ht
  · obtain rfl := Host.Outcome.next.inj ht
    exact h
  next c rest _ => exact State.exec_supplySafe (s := s.withPending rest) h ht

end Sys2Proof.Machine
end

section
/-! O32. RESET FURNACE (R117) as a single item that ends an event. -/

namespace Sys2Proof.Machine

variable {s : State}

theorem State.stillDelivers_iff (s : State) (f : Furnace) : s.stillDelivers f = true ↔
    s.heats[f].lockout = some .follow ∧ ∃ a, s.power[f].actual = some a ∧ (s.profile f).tolerance < a := by
  unfold State.stillDelivers
  rw [Bool.and_eq_true, decide_eq_true_eq]
  cases s.power[f].actual <;> simp

/-- The pairs of a furnace's two faults leave the set together (R117). -/
theorem State.unlatch_faults (s : State) (f : Furnace) :
    (s.unlatch .followFault (numberOf f)).unlatch .tiltFault (numberOf f) = s.withMgmt { s.mgmt with
      latched := s.mgmt.latched.filter fun x =>
        decide (¬((x.kind = .followFault ∨ x.kind = .tiltFault) ∧ x.subject = f.val + 1)) } := by
  rw [State.unlatch_eq, State.unlatch_eq]
  simp only [State.withMgmt_mgmt, List.filter_filter]
  refine congrArg (fun l => s.withMgmt { s.mgmt with latched := l }) (List.filter_congr fun x _ => ?_)
  rw [← Bool.decide_and, decide_eq_decide, ← not_or, or_comm, ← or_and_right]
  rfl

/-- Settles O32: the refusals of RESET FURNACE in their order, and the lockout and the two pairs that it clears. -/
theorem furnacesAreReset : Obligations.FurnacesAreReset := by
  unfold Obligations.FurnacesAreReset
  intro dt n s pin
  refine ⟨fun outside => exec_furnace_none pin outside rfl, fun f own => ?_⟩
  intro h tilted delivers left
  have unsafe_iff : s.tiltUnsafe f = true ↔ tilted := s.tiltUnsafe_iff f
  have delivers_iff : s.stillDelivers f = true ↔ delivers := s.stillDelivers_iff f
  refine ⟨fun barred => ?_, fun level off => ?_⟩
  · refine exec_furnace_refused pin own rfl ?_
    by_cases tilt : tilted
    · exact if_pos (unsafe_iff.2 tilt)
    · exact (if_neg (mt unsafe_iff.1 tilt)).trans (if_pos (delivers_iff.2 (barred.resolve_left tilt)))
  · refine exec_furnace_taken pin own rfl
      ((if_neg (mt unsafe_iff.1 level)).trans ((if_neg (mt delivers_iff.1 off)).trans ?_))
    dsimp only
    rw [State.unlatch_faults]
    rfl

end Sys2Proof.Machine
end

section
/-! O37. The ramp expiry (R107, R108, R110, R113). It moves one power record alone, so the end of its event remakes
nothing and matches nothing: the ready list is already that of the state it found. -/

namespace Sys2Proof.Machine

variable {s u t : State} {x : Causes} {f : Furnace}

/-! ### Events that move no input of readiness -/

/-- Where the list already holds the ready furnaces, an evaluation leaves it (R156). -/
theorem State.listedAnew_self (h : s.readySafe) : s.listedAnew = s.taps.ready := by
  obtain ⟨_, listed⟩ := h
  have kept : (s.taps.ready.filter fun r => s.isReady r.furnace) = s.taps.ready :=
    List.filter_eq_self.2 fun r hr => (listed r.furnace).1 (List.mem_map_of_mem hr)
  have joined : (furnaces.filter fun f => s.isReady f && !decide (f ∈ s.taps.readyFurnaces)) = [] :=
    List.filter_eq_nil_iff.2 fun f _ => by
      simp [listed f]
  rw [State.listedAnew, kept, joined, List.map_nil, List.append_nil]

/-- The blocks that readiness and the allocation read, but for the power records, stand as they stood. -/
structure BlocksKept (a b : State) : Prop where
  heats : b.heats = a.heats
  holding : b.holding = a.holding
  circuits : b.circuits = a.circuits
  intake : b.intake = a.intake
  tables : b.tables = a.tables
  taps : b.taps = a.taps
  watch : b.watch = a.watch
  mgmt : b.mgmt = a.mgmt

theorem BlocksKept.listedAnew (h : BlocksKept s u) (safe : s.readySafe) : u.listedAnew = s.taps.ready := by
  have ready (f : Furnace) : u.isReady f = s.isReady f :=
    State.isReady_congr f (by rw [h.heats]) h.tables (by rw [h.taps]) (fun c => by rw [h.circuits]) h.watch
  have still : u.readySafe := by
    simp only [State.readySafe, h.taps, ready]
    exact safe
  rw [State.listedAnew_self still, h.taps]

/-- With the list of the ready furnaces as it was, such an event makes no match (R161). -/
theorem BlocksKept.unmatched (h : BlocksKept s u) (safe : s.readySafe) (d : Demand) (f : Furnace) :
    ¬Matched s u Causes.none d f := by
  intro m
  obtain moved | moved | ⟨r, _, moved⟩ | busy | released := m.attempt
  · exact moved (h.listedAnew safe).symm
  · exact moved (by rw [h.taps])
  · rw [h.heats] at moved
    exact moved.elim (absurd rfl) (absurd rfl)
  · exact busy (by rw [← h.taps]; exact m.station)
  · exact Bool.false_ne_true released

/-- The end of such an event leaves heats and power records, and of the orders those that the event placed. -/
theorem EventEnd.quiet (h : EventEnd s u t) (blocks : BlocksKept s u) (safe : s.readySafe)
    (ordered : ∀ f : Furnace, u.power[f].ordered = s.power[f].ordered) : t.heats = u.heats ∧ t.power = u.power
      ∧ ∀ b, u.loop.link = .sending b → t.loop.orders = u.loop.orders := by
  obtain ⟨m, g, matched, _, ends⟩ := h.tap
  obtain rfl : m = none := Option.eq_none_iff_forall_not_mem.2 fun ⟨d, k⟩ hm =>
    blocks.unmatched safe d k ((matched d k).1 hm)
  have heats : t.heats = s.heats := ends.heats.trans blocks.heats
  have holding : t.holding = s.holding := by
    refine Vector.ext fun i hi => ?_
    have same := h.holding ⟨i, hi⟩
    rw [if_pos ⟨by rw [blocks.heats], by rw [heats, blocks.heats]⟩, blocks.holding] at same
    exact same
  have circuits (c : CircuitNo) : t.circuits[c] = s.circuits[c] := by
    refine (h.circuits c fun ⟨tested, _⟩ => ?_).trans (by rw [blocks.circuits])
    obtain state | ⟨k, _, mass⟩ | profiles := tested
    · exact state (by rw [blocks.circuits])
    · exact mass (by rw [blocks.heats])
    · exact profiles (by rw [blocks.tables])
  have inputs : t.allocInputs = s.allocInputs :=
    State.allocInputs_congr heats holding (Vector.ext fun i hi => circuits ⟨i, hi⟩) (h.tables.trans blocks.tables)
      (h.watch.trans blocks.watch) (h.intake.trans blocks.intake) (h.mgmt.trans blocks.mgmt)
      fun f => (h.ordered f).trans (ordered f)
  have power : t.power = u.power := h.kept inputs.symm
  refine ⟨ends.heats, power, fun b link => ?_⟩
  have uncut : cutOrder u t = fun l _ => l := by
    funext l k
    unfold cutOrder
    rw [power]
    exact if_neg fun cut => Nat.lt_irrefl _ cut.1
  have placed : t.loop = t.grantTold u.loop g := by
    rw [ends.loop, uncut]
    rfl
  rw [placed]
  cases g with
  | none => rfl
  | some r =>
    show (u.loop.placePermit _ _).orders = _
    rw [LoopPort.placePermit_busy link]

/-! ### The ramp expiry -/

theorem State.rampExpire_blocks (s : State) (dt : Time) (f : Furnace) :
    BlocksKept s ((s.advance dt).rampExpire f) := by
  constructor <;> simp

theorem State.rampExpire_other {g : Furnace} (other : g ≠ f) : (s.rampExpire f).power[g] = s.power[g] := by
  unfold State.rampExpire
  dsimp only
  rw [State.setPower_other _ _ other.symm]
  split
  · rfl
  · unfold State.setIssued
    rw [State.placeOrder_power_other _ _ other, State.setPower_other _ _ other.symm]

/-- I takes a new value, its follow timer restarts, and with an order the refresh timer starts anew (R110, R113). -/
theorem State.setIssued_same (s : State) (f : Furnace) (v : Nat) (c : OrderClass) :
    (s.setIssued f v c).power[f] = { s.power[f] with
      issued := v, follow := s.power[f].follow.restart s.time
      refresh := if 0 < (s.profile f).rated then .running s.time s.mgmt.params.orderRefresh
        else s.power[f].refresh } := by
  have rated : s.rated f = decide (0 < (s.profile f).rated) := rfl
  have same (u : State) (p : Power) : (u.setPower f p).rated f = u.rated f := rfl
  unfold State.setIssued State.placeOrder
  dsimp only
  rw [same, rated]
  by_cases pos : 0 < (s.profile f).rated
  · simp only [pos, decide_true, if_true, State.withLoop_power, State.setPower_same, State.setPower_time,
      State.setPower_mgmt]
  · simp only [pos, decide_false, if_false, Bool.false_eq_true, State.setPower_same]

/-- The ramp timer after an expiry that has made `u` (R108). -/
def State.ramped (s u : State) (f : Furnace) : State :=
  u.setPower f { u.power[f] with ramp := if s.rampTarget f = u.power[f].grant then .idle else .running s.time }

theorem State.rampExpire_level (level : s.power[f].issued = s.rampTarget f) : s.rampExpire f = s.ramped s f := by
  unfold State.rampExpire
  dsimp only
  rw [if_pos level]
  rfl

theorem State.rampExpire_moves (moves : s.power[f].issued ≠ s.rampTarget f) :
    s.rampExpire f = s.ramped (s.setIssued f (s.rampTarget f) .normal) f := by
  unfold State.rampExpire
  dsimp only
  rw [if_neg moves]
  rfl

theorem State.le_rampTarget (within : s.power[f].issued ≤ s.power[f].grant) : s.power[f].issued ≤ s.rampTarget f :=
  Nat.le_min.2 ⟨within, Nat.le_min.2 ⟨Nat.le_add_right _ _, Nat.le_add_right _ _⟩⟩

/-- A ramp expiry takes I to its target, which is at or above it while I is within G (R108, R110, R113). -/
theorem State.rampExpire_same (within : s.power[f].issued ≤ s.power[f].grant) :
    (s.rampExpire f).power[f] = { s.power[f] with
      issued := s.rampTarget f
      ramp := if s.rampTarget f = s.power[f].grant then .idle else .running s.time
      follow := if s.power[f].issued < s.rampTarget f then s.power[f].follow.restart s.time else s.power[f].follow
      refresh := if s.power[f].issued < s.rampTarget f ∧ 0 < (s.profile f).rated then
          .running s.time s.mgmt.params.orderRefresh
        else s.power[f].refresh } := by
  by_cases level : s.power[f].issued = s.rampTarget f
  · rw [State.rampExpire_level level, State.ramped, State.setPower_same]
    simp only [level, Nat.lt_irrefl, false_and, if_false]
  · have rise : s.power[f].issued < s.rampTarget f := Nat.lt_of_le_of_ne (State.le_rampTarget within) level
    rw [State.rampExpire_moves level, State.ramped, State.setPower_same, State.setIssued_same]
    simp only [rise, true_and, if_true]

theorem State.setIssued_loop (s : State) (f : Furnace) (v : Nat) {b : List Byte}
    (link : s.loop.link = .sending b) (rated : 0 < (s.profile f).rated) :
    (s.setIssued f v .normal).loop = { s.loop with orders := s.loop.orders.set f (some (mergeOrder s.loop.orders[f]
      { value := v, station := (s.profile f).inverter, channel := (s.profile f).channel, cls := .normal })) } := by
  unfold State.setIssued
  dsimp only
  rw [State.placeOrder_busy (s := s.setPower f _) rated link, State.setPower_same]
  rfl

/-- A rise places a NORMAL order of the new I (R110). -/
theorem State.rampExpire_orders {b : List Byte} (link : s.loop.link = .sending b)
    (rise : s.power[f].issued < s.rampTarget f) (rated : 0 < (s.profile f).rated) :
    (s.rampExpire f).loop = { s.loop with orders := s.loop.orders.set f (some
      { value := s.rampTarget f, station := (s.profile f).inverter, channel := (s.profile f).channel
        cls := .normal }) } := by
  have some : s.rampTarget f ≠ 0 := by omega
  rw [State.rampExpire_moves rise.ne, State.ramped, State.setPower_loop, s.setIssued_loop f _ link rated,
    mergeOrder_normal]
  simp only [some, decide_false, Bool.false_and, Bool.false_eq_true, if_false]

theorem State.rampDue_running {t0 : Time} (running : s.power[f].ramp = .running t0) :
    s.rampDue f = decide ((s.profile f).rampInterval ≤ (s.time - t0).toNat) := by
  unfold State.rampDue
  rw [running]
  rfl

theorem State.rampDue_idle (idle : s.power[f].ramp = .idle) : s.rampDue f = false := by
  unfold State.rampDue
  rw [idle]

/-- Settles O37: a due ramp timer raises I to its target on one power record, and the end of the event moves no other. -/
theorem rampExpiryRaisesThePower : Obligations.RampExpiryRaisesThePower := by
  unfold Obligations.RampExpiryRaisesThePower
  intro dt f s pin
  refine ⟨fun t0 running => ?_, fun idle => exec_expiry_undue pin rfl (State.rampDue_idle idle)⟩
  have timed := exec_expiry_timed (i := .rampTimerExpiry dt f) pin rfl
    (State.rampDue_running (s := s.advance dt) running)
  refine ⟨fun late safe within => ?_, timed.2⟩
  obtain ⟨t, acts, ends⟩ := timed.1 late
  obtain ⟨heats, power, orders⟩ := ends.quiet (s.rampExpire_blocks dt f) safe fun _ => State.rampExpire_ordered _ f
  refine ⟨t, acts, ?_, ?_, ?_, ?_, fun g other => ?_, fun b link rise rated => ?_⟩
  · rw [ends.time]; simp
  · rw [heats]; simp
  · rw [ends.watch]; simp
  · rw [power]
    exact State.rampExpire_same (s := s.advance dt) within
  · rw [power]
    exact State.rampExpire_other (s := s.advance dt) other
  · have placed := State.rampExpire_orders (s := s.advance dt) link rise rated
    rw [orders b (by rw [placed]; exact link), placed]
    rfl

end Sys2Proof.Machine
end

section
/-! O39. The follow expiry (R114, R116): the lockout alone takes the furnace's demand to 0 (R102), and the remake at the
end of the event does the rest. -/

namespace Sys2Proof.Machine

variable {s : State} {f : Furnace}

/-! ### Lockouts -/

theorem State.setHeat_lockout {k : Furnace} {h : Heat} (same : h.lockout = s.heats[k].lockout) :
    (s.setHeat k h).heats[f].lockout = s.heats[f].lockout := by
  by_cases own : k = f
  · subst own
    rw [State.setHeat_same, same]
  · rw [State.setHeat_other s h own]

theorem State.abandon_lockout (s : State) (r : Pour) (a : Bool) :
    (s.abandon r a).heats[f].lockout = s.heats[f].lockout := by
  have released : (s.abandon r a).heats = (s.releaseFurnace r).heats := by
    unfold State.abandon
    cases a <;> simp
  rw [released]
  unfold State.releaseFurnace
  dsimp only
  refine (State.setHeat_lockout ?_).trans ?_
  · rfl
  · split <;> simp

/-- An abandonment leaves every lockout (R166). -/
theorem State.abandonOn_lockout (s : State) (p : Furnace → Bool) :
    (s.abandonOn p).heats[f].lockout = s.heats[f].lockout := by
  unfold State.abandonOn
  split
  · split
    · exact s.abandon_lockout _ _
    · rfl
  · split
    · exact s.abandon_lockout _ _
    · rfl
  · rfl

/-! ### The follow expiry -/

theorem State.followExpire_lockout (s : State) (f : Furnace) :
    (s.followExpire f).heats[f].lockout = some .follow := by
  refine (State.abandonOn_lockout _ _).trans ?_
  simp only [State.raise_frame, State.setPower_heats]
  exact congrArg Heat.lockout (s.setHeat_same f _)

theorem State.followExpire_follow (s : State) (f : Furnace) : (s.followExpire f).power[f].follow = .idle := by
  unfold State.followExpire
  simp only [State.tapOnFollow_frame, State.raise_frame, State.setPower_same]

theorem State.followExpire_latched (s : State) (f : Furnace) :
    (s.followExpire f).isLatched .followFault (numberOf f) = true :=
  (State.isLatched_iff _ _ _).2 ((State.abandonOn_raised (Raised.refl _)).pair _ _
    ((State.isLatched_iff _ _ _).1 (State.isLatched_raise _ _ _)))

theorem State.followDue_running {t0 : Time} (running : s.power[f].follow = .running t0) :
    s.followDue f = decide ((s.profile f).followWindow ≤ (s.time - t0).toNat) := by
  unfold State.followDue
  rw [running]
  rfl

theorem State.followDue_idle (idle : s.power[f].follow = .idle) : s.followDue f = false := by
  unfold State.followDue
  rw [idle]

/-! ### What the allocation reads of a lockout -/

theorem State.allocInputs_ne_of_lockout {t : State} (moved : s.heats[f].lockout ≠ t.heats[f].lockout) :
    s.allocInputs ≠ t.allocInputs := by
  intro same
  have phases := congrArg (fun a : AllocInputs => a.phases[f].2.2) same
  simp only [State.allocInputs, Fin.getElem_fin, Vector.getElem_map] at phases
  exact moved phases

/-- A remade furnace without demand has no grant and no issued power (R105, R107). -/
theorem State.allocated.power_zero {t : State} (h : t.allocated) (none : t.demandOf f = 0) :
    t.power[f].demand = 0 ∧ t.power[f].grant = 0 ∧ t.power[f].issued = 0 := by
  have within := h.grant_le f
  obtain ⟨demand, -, issued⟩ := h f
  omega

/-- Settles O39: the expiry locks the furnace, so that no remake gives it a demand and no evaluation lists it. -/
theorem followExpiryLocksTheFurnace : Obligations.FollowExpiryLocksTheFurnace := by
  unfold Obligations.FollowExpiryLocksTheFurnace
  intro dt f s pin
  refine ⟨fun t0 running => ?_, fun idle => exec_expiry_undue pin rfl (State.followDue_idle idle)⟩
  have timed := exec_expiry_timed (i := .followTimerExpiry dt f) pin rfl
    (State.followDue_running (s := s.advance dt) running)
  refine ⟨fun late unlocked => ?_, timed.2⟩
  obtain ⟨t, acts, ends⟩ := timed.1 late
  have lockout := (s.advance dt).followExpire_lockout f
  have unready : ((s.advance dt).followExpire f).isReady f = false :=
    State.not_isReady_of_locked (by rw [lockout]; exact nofun)
  have locked : t.heats[f].lockout = some .follow := by rw [ends.heat_unready unready, lockout]
  have moved : s.allocInputs ≠ t.allocInputs :=
    State.allocInputs_ne_of_lockout (f := f) (by rw [locked]; exact unlocked)
  obtain ⟨demand, grant, issued⟩ := (ends.allocated moved).power_zero (t.demandOf_follow locked)
  refine ⟨t, acts, locked, ?_, demand, grant, issued, ends.follow_idle (State.followExpire_follow _ f),
    fun listed => ?_, fun g => ?_, ?_, ?_, ?_⟩
  · unfold State.isLatched
    rw [ends.mgmt]
    exact State.followExpire_latched _ f
  · have ready := (ends.ready f).1 listed
    rw [State.not_isReady_of_locked (by rw [locked]; exact nofun)] at ready
    exact Bool.false_ne_true ready
  · exact (ends.ordered g).trans (State.followExpire_kept _ f).ordered
  · rw [ends.watch]; simp
  · rw [ends.tables]; simp
  · rw [ends.mgmt]; simp

end Sys2Proof.Machine
end

section
/-! O49. ALL STOP and RESUME (R118, R183, R184). The run state is an input of the allocation, so either command ends
its event on a remade one; in ALL_STOP that gives no furnace a demand. -/

namespace Sys2Proof.Machine

variable {s : State} {dt : Time}

/-! ### The entry to ALL_STOP -/

section
variable (c : StopCause) (n : Byte)

/-- The run state turns to ALL_STOP with its stop record, and ALL_STOP is raised (R183, steps 1 and 2). -/
def State.stopRecorded (s : State) : State :=
  (s.withWatch { s.watch with run := .allStop, stop := some { cause := c, number := n, time := s.time } }).raise
    .allStop 0

theorem State.enterAllStop_running (run : s.watch.run = .run) :
    s.enterAllStop c n = (s.stopRecorded c n).zeroOrders.remake.placeZeros.tapOnAllStop := by
  unfold State.enterAllStop
  rw [run]
  rfl

theorem State.enterAllStop_watch (run : s.watch.run = .run) : (s.enterAllStop c n).watch =
    { s.watch with run := .allStop, stop := some { cause := c, number := n, time := s.time } } := by
  rw [State.enterAllStop_running c n run]
  simp [State.stopRecorded]

theorem State.enterAllStop_latched (run : s.watch.run = .run) :
    (s.enterAllStop c n).isLatched .allStop 0 = true := by
  rw [State.enterAllStop_running c n run]
  refine (State.isLatched_iff _ _ _).2 ((State.tapOnAllStop_raised (Raised.refl _)).pair _ _ ?_)
  simp only [State.placeZeros_frame, State.remake_frame, State.zeroOrders_frame]
  exact (State.isLatched_iff _ _ _).1 (State.isLatched_raise _ _ _)

theorem State.zeroOrders_ordered (s : State) (f : Furnace) : s.zeroOrders.power[f].ordered = 0 := by
  simp [State.zeroOrders]

theorem State.tapOnAllStop_power (s : State) : s.tapOnAllStop.power = s.power := by simp

theorem State.enterAllStop_ordered (run : s.watch.run = .run) (f : Furnace) :
    (s.enterAllStop c n).power[f].ordered = 0 := by
  obtain ⟨-, -, -, ordered, -⟩ := State.remake_furnace (s := (State.stopRecorded c n s).zeroOrders) f
  rw [State.enterAllStop_running c n run, State.tapOnAllStop_power,
    State.placeZeros_power, ordered, State.zeroOrders_ordered]

end

/-! ### The state that ALL_STOP leaves -/

/-- In ALL_STOP no furnace is ready (R155, condition 9). -/
theorem State.not_isReady_of_allStop (stopped : s.watch.run = .allStop) (f : Furnace) : s.isReady f = false := by
  simp [State.isReady, stopped]

/-- In ALL_STOP every SUPPLY_TRIP output is on (R51). -/
theorem State.outputLevel_supplyTrip {o : OutputNo} (trip : (s.output o).function = fnSupplyTrip)
    (stopped : s.watch.run = .allStop) : s.outputLevel o = true := by
  unfold State.outputLevel
  simp [trip, stopped, fnEmergencyWater, fnSupplyTrip]

theorem State.allocInputs_ne_of_run {t : State} (moved : s.watch.run ≠ t.watch.run) :
    s.allocInputs ≠ t.allocInputs :=
  fun same => moved (congrArg AllocInputs.run same)

/-! ### The commands -/

theorem State.openFrame_self (frame : s.mgmt.frame = { items := 1, results := [], data := [] }) :
    s.openFrame 1 = s := by
  have same : ({ s.mgmt with frame := { items := 1, results := [], data := [] } } : Mgmt) = s.mgmt := by rw [← frame]
  exact congrArg s.withMgmt same

theorem State.itemAllStop_running {b : Bool} {n : Byte} (run : s.watch.run = .run) : s.itemAllStop b n =
    .ok (s.settle (s.enterAllStop (if b then .broadcast else .addressed) n) Causes.none) := by
  unfold State.itemAllStop
  rw [run]

theorem State.itemAllStop_stopped {b : Bool} {n : Byte} (stopped : s.watch.run = .allStop) :
    s.itemAllStop b n = .ok s := by
  unfold State.itemAllStop
  rw [stopped]

/-- ALL STOP in RUN ends an event on the entry to ALL_STOP. -/
theorem exec_allStop_running {b : Bool} {n : Byte} (pin : s.pinLow = false) (run : s.watch.run = .run) :
    ∃ t, exec (.allStop dt b n) s = .next t ∧ EventEnd s ((((s.advance dt).openFrame 1).enterAllStop
      (if b then .broadcast else .addressed) n).reported .ok []) t := by
  have own : ((((s.advance dt).openFrame 1).enterAllStop (if b then .broadcast else .addressed) n).mgmt.frame)
      = { items := 1, results := [], data := [] } := by
    simp only [State.enterAllStop_frame]
    rfl
  refine exec_item_taken (item := fun u => u.itemAllStop b n) pin rfl ?_
  rw [State.openFrame_self own]
  exact State.itemAllStop_running run

/-- Settles O49: the entry to ALL_STOP moves the run state, so the end of its event remakes the allocation to 0. -/
theorem allStopAndResumeAct : Obligations.AllStopAndResumeAct := by
  unfold Obligations.AllStopAndResumeAct
  intro dt b source s pin
  refine ⟨fun run => ?_, fun stopped => ?_, fun barred => ?_, fun stopped off => ?_⟩
  · obtain ⟨t, acts, ends⟩ := exec_allStop_running (dt := dt) (b := b) (n := source) pin run
    have entered : ((s.advance dt).openFrame 1).watch.run = .run := run
    have watch := ends.watch.trans (State.enterAllStop_watch _ source entered)
    have stopped : t.watch.run = .allStop := by rw [watch]
    have moved : s.allocInputs ≠ t.allocInputs := State.allocInputs_ne_of_run (by rw [run, stopped]; exact nofun)
    have tables : t.tables = s.tables := by rw [ends.tables]; simp [State.reported]
    refine ⟨t, acts, ?_, ?_, ends.ready_nil (State.not_isReady_of_allStop stopped), fun f => ⟨?_, ?_⟩,
      fun o trip => ?_, ?_, tables, ?_⟩
    · rw [watch]
      cases b <;> rfl
    · unfold State.isLatched
      rw [ends.mgmt]
      exact State.enterAllStop_latched _ source entered
    · exact (ends.ordered f).trans (State.enterAllStop_ordered _ source entered f)
    · exact (ends.allocated moved).power_zero (t.demandOf_allStop stopped f)
    · rw [ends.outputs o]
      refine State.outputLevel_supplyTrip ?_ stopped
      unfold State.output
      rw [tables]
      exact trip
    · rw [ends.mgmt]; rfl
    · rw [ends.mgmt]; simp [State.reported]
  · refine congrArg Host.Outcome.next ((State.single_high pin).trans ?_)
    rw [State.itemAllStop_stopped (by exact stopped), ItemOut.ok_recorded rfl]
    rfl
  · refine exec_read_refused pin rfl ?_
    by_cases run : s.watch.run = .run
    · exact if_pos run
    · exact (if_neg run).trans (if_pos (barred.resolve_left run))
  · refine exec_item_taken pin rfl ((if_neg ?_).trans ((if_neg ?_).trans ?_))
    · exact fun run => nomatch run.symm.trans stopped
    · exact fun on => Bool.false_ne_true (off.symm.trans on)
    · dsimp only
      rw [State.unlatch_eq]
      rfl

end Sys2Proof.Machine
end

section
/-! O40. The comparison of the holding controller (R125 to R127): what it answers in the holding phases, and that it
holds nothing outside them. -/

namespace Sys2Proof.Machine

/-- The holding phases (R123). -/
theorem Phase.isHolding_iff (x : Phase) :
    x.isHolding = true ↔ x = .holding ∨ x = .tapAssigned ∨ x = .tapping := by
  cases x <;> simp [Phase.isHolding]

/-- Outside the holding phases the controller holds nothing (R127). -/
theorem Holding.after_outside {h : Heat} (outside : h.phase.isHolding = false) (old : Holding) (p : Profile)
    (now : Time) : old.after h p now = Holding.cold := by
  unfold Holding.after
  rw [outside]
  rfl

/-- In a holding phase the controller holds what the comparison answers, with the level of its position (R125, R126). -/
theorem Holding.after_held {h : Heat} (held : h.phase.isHolding = true) {basis : Basis} {x : Position}
    {t : Option Int} (compare : h.compare = (basis, x, t)) (old : Holding) (p : Profile) (now : Time) :
    old.after h p now =
      { position := some x, basis := some basis, compared := t, level := p.level x,
        since := if old.position = some x then old.since else some now } := by
  unfold Holding.after
  rw [held, compare]
  rfl

/-- The position time is kept with the position (R127). -/
theorem Holding.after_since {h : Heat} (held : h.phase.isHolding = true) (old : Holding) (p : Profile) (now : Time) :
    (old.after h p now).since
      = if (old.after h p now).position = old.position then old.since else some now := by
  rw [Holding.after_held held rfl]
  simp only [eq_comm]

theorem Heat.compare_uncertain {h : Heat} (uncertain : h.uncertain = true) :
    h.compare = (.uncertain, .inBand, none) := by
  unfold Heat.compare
  rw [uncertain]
  rfl

theorem Heat.compare_absent {h : Heat} (certain : h.uncertain = false) (absent : h.temp = none) :
    h.compare = (.tpAbsent, .low, none) := by
  unfold Heat.compare
  rw [certain, absent]
  rfl

theorem Heat.compare_temperature {h : Heat} {t : Int} {b : Bands} (certain : h.uncertain = false)
    (temp : h.temp = some t) (bands : h.bands = some b) : h.compare = (.temperature, bandPosition b t, some t) := by
  unfold Heat.compare
  rw [certain, temp, bands]
  rfl

/-! ### The band position (R125) -/

section
variable {b : Bands} {t : Int}

theorem bandPosition_low (below : t < b.holdLow) : bandPosition b t = .low := if_pos below

theorem bandPosition_high (low : b.holdLow ≤ t) (above : b.holdHigh < t) : bandPosition b t = .high := by
  unfold bandPosition
  rw [if_neg low.not_gt, if_pos above]

theorem bandPosition_inBand (low : b.holdLow ≤ t) (high : t ≤ b.holdHigh) : bandPosition b t = .inBand := by
  unfold bandPosition
  rw [if_neg low.not_gt, if_neg high.not_gt]

end

/-- Settles O40: the comparison's three cases by the uncertain flag and Tp, and its position by the two edges of the
hold band. -/
theorem holdingComparesTheBath : Obligations.HoldingComparesTheBath := by
  unfold Obligations.HoldingComparesTheBath
  intro old h p now
  dsimp only
  rw [← Phase.isHolding_iff]
  refine ⟨fun outside => Holding.after_outside (by simpa using outside) old p now,
    fun held => Holding.after_since held old p now, fun held uncertain => ?_, fun held certain absent => ?_,
    fun t b held certain temp bands => ?_⟩
  · rw [Holding.after_held held (Heat.compare_uncertain uncertain)]
    exact ⟨rfl, rfl, rfl, rfl⟩
  · rw [Holding.after_held held (Heat.compare_absent certain absent)]
    exact ⟨rfl, rfl, rfl, rfl⟩
  · rw [Holding.after_held held (Heat.compare_temperature certain temp bands)]
    refine ⟨rfl, rfl, fun below => ?_, fun low above => ?_, fun low high => ?_⟩
    · rw [bandPosition_low below]
      exact ⟨rfl, rfl⟩
    · rw [bandPosition_high low above]
      exact ⟨rfl, rfl⟩
    · rw [bandPosition_inBand low high]
      exact ⟨rfl, rfl⟩

end Sys2Proof.Machine
end

section
/-! O11. Every command keeps the holding state absent outside the holding phases (R123, R124, R127): the end of an event
compares every furnace whose phase has moved, and what a command does before it moves no holding state but by a
comparison. -/

namespace Sys2Proof.Machine

variable {s t : State}

/-! ### What an event's own changes leave of the holding states -/

/-- From `a` to `b` the holding state of every furnace outside the holding phases has stayed, or has gone. -/
def HoldingKept (a b : State) : Prop :=
  ∀ f : Furnace, (b.heats[f].phase).isHolding = false → b.holding[f] = a.holding[f] ∨ b.holding[f] = Holding.cold

/-- What moves no holding state at all, whatever it does to the heats. -/
theorem HoldingKept.same (holding : t.holding = s.holding) : HoldingKept s t := fun _ _ => .inl (by rw [holding])

/-- What moves neither the holding states nor the heats. -/
theorem State.holdingSafe_same (h : s.holdingSafe) (holding : t.holding = s.holding) (heats : t.heats = s.heats) :
    t.holdingSafe := fun f outside => by
  rw [holding]
  rw [heats] at outside
  exact h f outside

/-- A comparison for every furnace leaves nothing outside the holding phases (R127). -/
theorem State.compareAll_holdingSafe (s : State) : s.compareAll.holdingSafe := fun f outside => by
  simp only [State.compareAll_frame] at outside
  rw [State.compareAll_holding]
  exact Holding.after_outside outside _ _ _

/-- SET BAND compares its furnace at once (R129). -/
theorem State.setBands_holdingKept (s : State) (f : Furnace) (b : Bands) : HoldingKept s (s.setBands f b) := by
  intro g outside
  unfold State.setBands at outside ⊢
  simp only [State.compare_frame] at outside
  unfold State.compare
  by_cases other : f = g
  · subst other
    rw [State.setHolding_same]
    exact .inr (Holding.after_outside outside _ _ _)
  · rw [State.setHolding_other _ _ other]
    exact .inl rfl

/-! ### The end of an event -/

/-- The end of an event compares every furnace whose phase the event has moved (R124). -/
theorem EventEnd.holdingSafe {u : State} {x : Causes} (h : EventEnd s u t x) (safe : s.holdingSafe)
    (kept : HoldingKept s u) : t.holdingSafe := by
  intro f outside
  rw [h.holding f]
  split_ifs with quiet
  · obtain ⟨inputs, heat⟩ := quiet
    have phase : s.heats[f].phase = u.heats[f].phase := congrArg Prod.fst inputs
    rw [heat] at outside
    obtain same | gone := kept f outside
    · rw [same]
      exact safe f (by rwa [phase])
    · exact gone
  · exact Holding.after_outside outside _ _ _

theorem State.settle_holdingSafe {s0 : State} {x : Causes} (safe : s0.holdingSafe) (kept : HoldingKept s0 s) :
    (s0.settle s x).holdingSafe := (State.settle_end s0 s x).holdingSafe safe kept

/-- An event whose own changes move no holding state. -/
theorem State.settle_unmoved {s0 : State} {x : Causes} (safe : s0.holdingSafe) (holding : s.holding = s0.holding) :
    (s0.settle s x).holdingSafe := settle_holdingSafe safe (.same holding)

/-! ### Commands -/

theorem State.itemSetParameter_holdingSafe {n : Byte} {v : BitVec 32} (h : s.holdingSafe) :
    (s.itemSetParameter n v).state.holdingSafe := by
  unfold State.itemSetParameter
  dsimp only
  split
  · exact h
  · split_ifs
    · exact h
    · exact h
    · exact h
    · exact h
    · exact settle_unmoved h (by simp)

theorem State.itemResetCircuit_holdingSafe {n : Byte} (h : s.holdingSafe) :
    (s.itemResetCircuit n).state.holdingSafe := by
  unfold State.itemResetCircuit
  split
  · exact h
  · exact ite_item_keeps (ite_item_keeps h (settle_unmoved h (by simp))) h

theorem State.itemWdStart_holdingSafe (h : s.holdingSafe) : s.itemWdStart.state.holdingSafe := by
  unfold State.itemWdStart
  split
  · exact settle_unmoved h rfl
  · exact settle_unmoved h rfl
  · exact h
  · exact h
  · exact h

theorem State.itemWdForce_holdingSafe (h : s.holdingSafe) : s.itemWdForce.state.holdingSafe := by
  have forced : (s.settle s.enterExpired Causes.none).holdingSafe := settle_unmoved h (by simp)
  unfold State.itemWdForce
  split
  · exact forced
  · exact forced
  · exact forced
  · exact forced
  · exact h

theorem State.itemWdRestart_holdingSafe (h : s.holdingSafe) : s.itemWdRestart.state.holdingSafe := by
  unfold State.itemWdRestart
  split
  · exact settle_unmoved h rfl
  · exact h
  · exact h
  · exact h
  · exact h

theorem State.itemHeartbeat_holdingSafe {token : BitVec 16} (h : s.holdingSafe) :
    (s.itemHeartbeat token).state.holdingSafe := by
  have beaten : s.beat.holdingSafe := holdingSafe_same h (by simp) (by simp)
  exact ite_item_keeps (ite_item_keeps beaten (settle_unmoved h (by simp))) h

theorem State.itemAllStop_holdingSafe {b : Bool} {source : Byte} (h : s.holdingSafe) :
    (s.itemAllStop b source).state.holdingSafe := by
  unfold State.itemAllStop
  split
  · exact settle_unmoved h (by simp)
  · exact h

/-- Every command keeps the holding state absent outside the holding phases. -/
theorem State.runCommand_holdingSafe (s : State) (i : Instr) (h : s.holdingSafe) :
    (s.runCommand i).state.holdingSafe := by
  have unmoved {u : State} {x : Causes} (holding : u.holding = s.holding) : (s.settle u x).holdingSafe :=
    settle_unmoved h holding
  cases i
  case setParameter => exact itemSetParameter_holdingSafe h
  case openHeat => exact onFurnace_keeps h fun _ => ite_item_keeps h (ite_item_keeps h (unmoved rfl))
  case drain => exact onFurnace_keeps h fun _ => ite_item_keeps h (unmoved rfl)
  case setMass => exact onFurnace_keeps h fun _ => ite_item_keeps h (ite_item_keeps h (unmoved (by simp)))
  case setBand =>
    exact onFurnace_keeps h fun f =>
      ite_item_keeps h (ite_item_keeps h (settle_holdingSafe h (s.setBands_holdingKept f _)))
  case approve =>
    exact onFurnace_keeps h fun _ => ite_item_keeps h (ite_item_keeps h (ite_item_keeps h (unmoved rfl)))
  case revoke => exact onFurnace_keeps h fun _ => unmoved rfl
  case resetFurnace => exact onFurnace_keeps h fun _ => ite_item_keeps h (ite_item_keeps h (unmoved rfl))
  case resetCircuit => exact itemResetCircuit_holdingSafe h
  case wdStart => exact itemWdStart_holdingSafe h
  case heartbeat => exact itemHeartbeat_holdingSafe h
  case wdPause => exact ite_item_keeps h (ite_item_keeps h (unmoved rfl))
  case wdForce => exact itemWdForce_holdingSafe h
  case wdRestart => exact itemWdRestart_holdingSafe h
  case allStop => exact itemAllStop_holdingSafe h
  case resume => exact ite_item_keeps h (ite_item_keeps h (unmoved rfl))
  case releaseTaps => exact ite_item_keeps (unmoved rfl) h
  all_goals
    refine holdingSafe_same h ?_ ?_
    all_goals simp [State.runCommand]

/-! ### The warm restart and arrivals -/

/-- A warm restart compares every furnace (R132), and what follows the comparisons moves no heat. -/
theorem State.warmRestart_holdingSafe (s : State) : s.warmRestart.holdingSafe := by
  rw [s.warmRestart_eq]
  exact holdingSafe_same (s.cleared.placeZeros.restartTaps.compareAll_holdingSafe) (by simp) (by simp)

theorem State.matchedItem_holdingSafe {i : PointNo} {seq : Byte} {it : SampleItem} (h : s.holdingSafe) :
    (s.matchedItem i seq it).holdingSafe := by
  unfold State.matchedItem
  dsimp only
  split_ifs
  · exact h
  · exact settle_unmoved h (by simp)
  · exact settle_unmoved h (by simp)

theorem State.item_holdingSafe {station seq : Byte} {order : Bool} {it : SampleItem} (h : s.holdingSafe) :
    (s.item station seq order it).holdingSafe := by
  unfold State.item
  split
  · exact matchedItem_holdingSafe h
  · exact h

theorem State.items_holdingSafe {station seq : Byte} {order : Bool} {body : List Byte} (h : s.holdingSafe) :
    (s.items station seq order body).holdingSafe := by
  have taken : ((sampleItems body).foldl (fun s it => s.item station seq order it) s).holdingSafe :=
    List.foldlRecOn _ _ h fun _ hu _ _ => item_holdingSafe hu
  unfold State.items
  dsimp only
  split
  · exact taken
  · exact taken

theorem ArrivalKeeps.holdingSafe : ArrivalKeeps State.holdingSafe where
  loop _ _ h := h
  frame _ _ h := h
  command := State.runCommand_holdingSafe
  restart s _ := s.warmRestart_holdingSafe
  overrun _ h := h
  items _ _ _ _ _ h := State.items_holdingSafe h
  demand _ _ h := State.settle_unmoved h (by simp)
  cancel _ _ h := State.settle_unmoved h (by simp)
  malformed _ h := h

/-! ### The commits of the tables -/

/-- A heat set to HOLDING leaves no other heat out of the holding phases than before. -/
theorem State.setHeat_holding_outside {u : State} {k f : Furnace} {h : Heat} (held : h.phase = .holding)
    (heats : u.heats = s.heats) (outside : ((u.setHeat k h).heats[f].phase).isHolding = false) :
    (s.heats[f].phase).isHolding = false := by
  by_cases own : k = f
  · subst own
    rw [State.setHeat_same, held] at outside
    exact absurd outside (by decide)
  · rwa [State.setHeat_other u h own, heats] at outside

/-- An abandoned assignment returns its heat to HOLDING (R166), and brings no heat out of the holding phases. -/
theorem State.abandon_outside (s : State) (r : Pour) (a : Bool) (f : Furnace)
    (outside : ((s.abandon r a).heats[f].phase).isHolding = false) : (s.heats[f].phase).isHolding = false := by
  have released : (s.abandon r a).heats = (s.releaseFurnace r).heats := by
    unfold State.abandon
    cases a <;> simp
  rw [released] at outside
  exact setHeat_holding_outside rfl (by split <;> simp) outside

theorem State.abandonOn_outside (s : State) (p : Furnace → Bool) (f : Furnace)
    (outside : ((s.abandonOn p).heats[f].phase).isHolding = false) : (s.heats[f].phase).isHolding = false := by
  unfold State.abandonOn at outside
  split at outside
  · split at outside
    · exact s.abandon_outside _ _ f outside
    · exact outside
  · split at outside
    · exact s.abandon_outside _ _ f outside
    · exact outside
  · exact outside

/-- The comparisons of a profile commit (R130), and what the blocks do after them before the event ends (R171, R112,
R115). -/
theorem State.profilesCompared_holdingSafe (s : State) :
    (furnaces.foldl (fun s f => s.suspendFollow f) (furnaces.foldl (fun s f => s.reduceOrder f)
      s.compareAll.tapOnProfile)).holdingSafe := by
  have told : s.compareAll.tapOnProfile.holdingSafe := fun f outside => by
    simp only [State.tapOnProfile_frame]
    exact s.compareAll_holdingSafe f (s.compareAll.abandonOn_outside _ f outside)
  refine holdingSafe_same told ?_ ?_
  · simp [foldl_keeps (fun s : State => s.holding)]
  · simp [foldl_keeps (fun s : State => s.heats)]

theorem State.recommitProfiles_holdingSafe {s0 : State} (safe : s0.holdingSafe) :
    (s0.recommitProfiles s).holdingSafe := by
  have compared (u : State) : HoldingKept s0 (furnaces.foldl (fun s f => s.suspendFollow f)
      (furnaces.foldl (fun s f => s.reduceOrder f) u.compareAll.tapOnProfile)) :=
    fun f outside => .inr (u.profilesCompared_holdingSafe f outside)
  have ended := settle_holdingSafe (x := Causes.testing furnaces) safe (compared
    (furnaces.foldl (fun s f => s.holdAtCommit f) (furnaces.foldl (fun s f => s.reanchorHeat (s0.profile f) f) s)))
  have followed := List.foldlRecOn furnaces (fun s f => s.followAtCommit f) (motive := State.holdingSafe) ended
    fun u h f _ => by
      unfold State.followAtCommit
      split
      · exact settle_unmoved h (by simp)
      · exact h
  have ramped := List.foldlRecOn furnaces (fun s f => s.rampAtCommit f) (motive := State.holdingSafe) followed
    fun u h f _ => by
      unfold State.rampAtCommit
      split
      · exact settle_unmoved h (by simp)
      · exact h
  have placed := List.foldlRecOn furnaces (fun s f => s.replaceOrder f) (motive := State.holdingSafe) ramped
    fun _ h _ _ => holdingSafe_same h (by simp) (by simp)
  exact placed

theorem State.commitEffects_holdingSafe {s0 : State} {n : TableNo} {old : Image} (safe : s0.holdingSafe)
    (holding : s.holding = s0.holding) : (s0.commitEffects s n old).holdingSafe := by
  unfold State.commitEffects
  split
  · exact settle_unmoved safe (by simpa using holding)
  · exact recommitProfiles_holdingSafe safe
  · exact settle_unmoved safe (by simpa using holding)
  · exact settle_unmoved safe (by simpa using holding)

theorem State.finishValidation_holdingSafe (h : s.holdingSafe) : s.finishValidation.holdingSafe := by
  unfold State.finishValidation State.completeValidation
  split
  · split
    · exact holdingSafe_same h (by simp) (by simp)
    · exact commitEffects_holdingSafe h (by simp)
  · exact h

/-! ### Events -/

theorem State.expire_holdingSafe {due : Bool} {k : State → State} (h : s.holdingSafe)
    (holding : (k s).holding = s.holding) : (s.expire due k).holdingSafe := by
  unfold State.expire
  split
  · exact settle_unmoved h holding
  · exact h

theorem State.returnExpire_holdingSafe (h : s.holdingSafe) : s.returnExpire.holdingSafe := by
  unfold State.returnExpire
  split
  next r _ _ =>
    have ended : (s.settle ((s.tiltFault r.furnace).accountPour r) Causes.none).holdingSafe :=
      settle_unmoved h (by simp)
    exact holdingSafe_same ended (by simp) (by simp)
  · exact settle_unmoved h rfl

/-- Every command keeps the holding state absent outside the holding phases. -/
theorem State.exec_holdingSafe {c : Instr} (h : s.holdingSafe) (ht : exec c s = .next t) : t.holdingSafe := by
  have event {dt : Time} {k : State → State} (hk : ∀ u : State, u.holdingSafe → (k u).holdingSafe) :
      (s.event dt k).holdingSafe := State.event_keeps (fun _ hu => hu) hk h
  by_cases hc : (encodeCommand c).isSome = true
  · obtain ⟨dt, source, seq, rfl⟩ | ⟨dt, _, he⟩ := exec_command hc
    · obtain rfl := Host.Outcome.next.inj ht
      exact event fun u hu => ArrivalKeeps.holdingSafe.restartCommand hu
    · rw [he s] at ht
      obtain rfl := Host.Outcome.next.inj ht
      exact event fun u hu => (u.openFrame 1).runCommand_holdingSafe c hu
  cases c
  all_goals first | exact absurd rfl hc | obtain rfl := Host.Outcome.next.inj ht
  case coldReset a r raw =>
    obtain ⟨t, cold, _, _, _, _, _, _, holding⟩ := coldResetMeetsInvariants a r raw s
    obtain rfl := Host.Outcome.next.inj cold
    exact holding.1
  case resetPinHeldLow => exact h
  case frameArrival => exact event fun _ => ArrivalKeeps.holdingSafe.arrive
  case linkCompletion => exact event fun u hu => by unfold State.completeLink; split <;> exact hu
  case validationComplete => exact event fun _ => finishValidation_holdingSafe
  case rawLevelChange => exact event fun _ hu => settle_unmoved hu (by simp)
  case loopSilenceExpiry => exact event fun u hu => by split <;> exact hu
  case refreshTimerExpiry =>
    refine event fun u hu => ?_
    split
    · exact holdingSafe_same hu (by simp) (by simp)
    · exact hu
  case returnTimerExpiry => exact event fun u hu => by split; exacts [returnExpire_holdingSafe hu, hu]
  case tableData dt bytes => exact event fun u hu => (u.openFrame 1).runCommand_holdingSafe (.tableData dt bytes) hu
  all_goals exact event fun _ hu => expire_holdingSafe hu (by simp)

/-- Settles O11: the end of an event compares every furnace whose phase it has moved, and no other operation moves a
holding state or brings a heat out of the holding phases. -/
theorem holdingStateAbsentOutsideHolding : Obligations.HoldingStateAbsentOutsideHolding := by
  unfold Obligations.HoldingStateAbsentOutsideHolding
  intro s t h ht
  unfold step at ht
  split at ht
  · obtain rfl := Host.Outcome.next.inj ht
    exact h
  next c rest _ => exact State.exec_holdingSafe (s := s.withPending rest) h ht

end Sys2Proof.Machine
end

section
/-! O42, O43. How a circuit leaves STARTING and how it enters it again (R145 to R147): TRIP and the circuit state test
as one change of the state. -/

namespace Sys2Proof.Machine

variable {s : State} {c : CircuitNo} {dt : Time}

/-! ### One circuit's slot -/

theorem State.setCircuit_set (s : State) (c : CircuitNo) (x y : Circuit) :
    (s.setCircuit c x).setCircuit c y = s.setCircuit c y :=
  congrArg (fun v => { s with circuits := v }) (Vector.set_set ..)

theorem State.setCircuit_self (s : State) (c : CircuitNo) : s.setCircuit c s.circuits[c] = s :=
  congrArg (fun v => { s with circuits := v }) (Vector.set_getElem_self _)

/-- A circuit in the state that its levels give it, its start timer stopped (R142). -/
def Circuit.levelled (x : Circuit) : Circuit := { x with state := x.byLevels, start := .idle }

theorem State.settleCircuit_levelled (none : s.firstCause c = none) :
    s.settleCircuit c = s.setCircuit c s.circuits[c].levelled := by
  unfold State.settleCircuit
  rw [none]
  rfl

/-! ### TRIP -/

/-- A circuit that has entered TRIP by a cause with a value (R143, R149). -/
def Circuit.inTrip (y : Circuit) (u : State) (c : CircuitNo) (cause : TripCause) (value : Option Int) : Circuit :=
  { y with
    state := .trip, start := .idle, trip := some { cause := cause, time := u.time, value := value }
    water := y.water || u.metalBehind c }

/-- The assignment that a TRIP of circuit c makes the shop abandon (R171), in a state that its entry has left. -/
def State.abandonFor (w u : State) (c : CircuitNo) : State :=
  match u.taps.pour with
  | some r =>
    if (u.taps.station = .assigned ∨ u.taps.station = .permitted)
        ∧ (u.coilOf r.furnace c = true ∨ u.cabinetOf r.furnace c = true) then w.abandoned r
    else w
  | none => w

theorem State.tripped_eq (u : State) (c : CircuitNo) (y : Circuit) (cause : TripCause) (value : Option Int) :
    u.tripped c y cause value =
      ((u.setCircuit c (y.inTrip u c cause value)).raise .circuitTrip (numberOf c)).abandonFor u c := by
  unfold State.tripped State.abandonFor
  rfl

/-- An abandonment of R171 is that of R166, with TAP_ABORT. -/
theorem State.abandon_eq {r : Pour} (station : s.taps.station = .assigned ∨ s.taps.station = .permitted) :
    s.abandon r true = s.abandoned r := by
  unfold State.abandon State.abandoned
  dsimp only
  rw [if_pos rfl]
  obtain station | station := station
  · rw [State.releaseFurnace_assigned station, if_neg (by rw [station]; exact nofun)]
    rfl
  · rw [State.releaseFurnace_permitted station, if_pos station]
    rfl

theorem State.tapOnTrip_eq (s : State) (c : CircuitNo) : s.tapOnTrip c = s.abandonFor s c := by
  unfold State.tapOnTrip State.abandonOn State.abandonFor
  cases pour : s.taps.pour with
  | none => cases s.taps.station <;> rfl
  | some r =>
    cases station : s.taps.station with
    | assigned | permitted => simp [State.abandon_eq, station]
    | idle | pouring | returning => simp

theorem State.waterTest_trip (trip : s.circuits[c].state = .trip) : s.waterTest c =
    s.setCircuit c { s.circuits[c] with water := s.circuits[c].water || s.metalBehind c } := by
  unfold State.waterTest
  cases metal : s.metalBehind c with
  | true => rw [Bool.or_true]; exact if_pos ⟨trip, rfl⟩
  | false => simpa using (s.setCircuit_self c).symm

/-- The entry to TRIP tests the water request after its report, and then reaches the tap coordinator; neither reads
what the other leaves. -/
theorem State.enterTrip_eq (s : State) (c : CircuitNo) (cause : TripCause) :
    s.enterTrip c cause = s.tripped c s.circuits[c] cause (s.circuits[c].causeValue cause) := by
  have raised (x : Circuit) (trip : x.state = .trip) : ((s.setCircuit c x).raise .circuitTrip (numberOf c)).waterTest c
      = (s.setCircuit c { x with water := x.water || s.metalBehind c }).raise .circuitTrip (numberOf c) := by
    have slot : ((s.setCircuit c x).raise .circuitTrip (numberOf c)).circuits[c] = x := State.setCircuit_same s c x
    rw [State.waterTest_trip (by rw [slot]; exact trip), slot]
    exact congrArg (State.raise · .circuitTrip (numberOf c)) (State.setCircuit_set s c x _)
  unfold State.enterTrip
  dsimp only
  rw [raised _ rfl, State.tapOnTrip_eq, State.tripped_eq]
  rfl

theorem State.settleCircuit_tripped {cause : TripCause} (present : s.firstCause c = some cause) :
    s.settleCircuit c = s.tripped c s.circuits[c] cause (s.circuits[c].causeValue cause) :=
  (s.settleCircuit_trips c present).trans (s.enterTrip_eq c cause)

/-- An entry to TRIP leaves nothing of what the circuit's slot held. -/
theorem State.tripped_setCircuit (u : State) (c : CircuitNo) (x y : Circuit) (cause : TripCause) (value : Option Int) :
    (u.setCircuit c x).tripped c y cause value = u.tripped c y cause value := by
  rw [State.tripped_eq, State.tripped_eq, State.setCircuit_set]
  rfl

/-! ### The start timer -/

theorem State.startDue_running {t0 : Time} (running : s.circuits[c].start = .running t0) :
    s.startDue c = decide ((s.cooling c).startWindow * 1000 ≤ (s.time - t0).toNat) := by
  unfold State.startDue
  rw [running]
  rfl

theorem State.startDue_still (still : ∀ t0, s.circuits[c].start ≠ .running t0) : s.startDue c = false := by
  unfold State.startDue
  split
  next t0 running => exact absurd running (still t0)
  next => rfl

theorem State.startExpire_waiting (waits : ¬(s.circuits[c].state = .starting ∧ s.contacts.ind.pumpRun[c] = true)) :
    s.startExpire c = s.setCircuit c { s.circuits[c] with start := .expired } := by
  unfold State.startExpire State.startingTest
  dsimp only
  refine if_neg ?_
  rw [State.setCircuit_same]
  exact fun ⟨starting, _, pump⟩ => waits ⟨starting, pump⟩

/-- The causes that a start expiry finds are those of the circuit whose timer still runs. -/
theorem State.firstCause_start (s : State) (c : CircuitNo) (t : StartTimer) :
    (s.setCircuit c { s.circuits[c] with start := t }).firstCause c = s.firstCause c :=
  firstCause_congr (causePresent_start t)

/-- Settles O42: an expiry that is due ends on one of the three outcomes of R146. -/
theorem startTimersExpire : Obligations.StartTimersExpire := by
  unfold Obligations.StartTimersExpire
  intro dt c s pin
  have expiry {t0 : Time} (running : s.circuits[c].start = .running t0) :=
    exec_expiry_timed (i := .startTimerExpiry dt c) pin rfl (State.startDue_running (s := s.advance dt) running)
  refine ⟨fun t0 running => ⟨fun late => ?_, (expiry running).2⟩,
    fun still => exec_expiry_undue pin rfl (State.startDue_still still)⟩
  obtain ⟨t, acts, ends⟩ := (expiry running).1 late
  have ended (starting : s.circuits[c].state = .starting) (pump : s.contacts.ind.pumpRun[c] = true) :=
    State.startExpire_ends (s.advance dt) c ⟨starting, pump⟩
  have causes := State.firstCause_start (s.advance dt) c .expired
  refine ⟨fun waits => ⟨t, acts, ?_⟩, fun starting pump none => ⟨t, acts, ?_⟩,
    fun cause starting pump present => ⟨t, acts, ?_⟩⟩
  · have waiting : ¬(s.circuits[c].state = .starting ∧ s.contacts.ind.pumpRun[c] = true) := by
      rintro ⟨starting, pump⟩
      exact waits.elim (absurd starting) fun off => absurd (off.symm.trans pump) nofun
    rwa [State.startExpire_waiting (s := s.advance dt) waiting] at ends
  · rw [ended starting pump, State.settleCircuit_levelled (causes.trans none), State.setCircuit_same,
      State.setCircuit_set] at ends
    exact ends
  · rw [ended starting pump, State.settleCircuit_tripped (causes.trans present), State.setCircuit_same,
      State.tripped_setCircuit] at ends
    have value : ({ (s.advance dt).circuits[c] with start := .expired } : Circuit).causeValue cause =
        s.circuits[c].causeValue cause := by
      cases cause with
      | quantity q => cases q <;> rfl
      | _ => rfl
    rw [value] at ends
    exact ends

/-! ### RESET CIRCUIT (R147) -/

/-- Settles O43: the refusals of RESET CIRCUIT, the restart that it makes from TRIP, and the pair that it removes. -/
theorem circuitsAreReset : Obligations.CircuitsAreReset := by
  unfold Obligations.CircuitsAreReset
  intro dt n s pin
  have reset (u : State) {c : CircuitNo} (own : circuitOf n.toNat = some c) : u.itemResetCircuit n =
      if u.circuits[c].state = .trip then
        if (u.firstCause c).isSome then .plain u .state
        else .ok (u.settle ((u.unlatch .circuitTrip (numberOf c)).restartCircuit c) Causes.none)
      else .ok (u.unlatch .circuitTrip (numberOf c)) := by
    unfold State.itemResetCircuit
    rw [own]
  refine ⟨fun outside => exec_read_refused pin rfl ?_, fun c own => ?_⟩
  · unfold State.itemResetCircuit
    rw [outside]
  intro x zero left cleared
  have opened := reset ((s.advance dt).openFrame 1) own
  refine ⟨fun trip ⟨cause, present⟩ => ?_, fun trip none => ?_, fun other => ?_⟩
  · refine exec_read_refused pin rfl (opened.trans ((if_pos trip).trans (if_pos ?_)))
    exact Option.isSome_iff_exists.2 ⟨cause, present⟩
  · have absent : ((s.advance dt).openFrame 1).firstCause c = .none := none
    refine exec_item_taken pin rfl (opened.trans ((if_pos trip).trans ((if_neg ?_).trans ?_)))
    · rw [absent]
      exact nofun
    · rw [State.unlatch_eq]
      rfl
  · have acts : exec (.resetCircuit dt n) s = .next (s.single dt (·.itemResetCircuit n)) := rfl
    rw [acts, State.single_high pin, opened.trans (if_neg other), State.unlatch_eq, ItemOut.ok_recorded rfl]
    rfl

end Sys2Proof.Machine
end

section
/-! O41. Cooling values (R133, R136 to R143, R171). An accepted value tests its circuit once for each step that it
makes of it, a fresh notice being a step that moves no quantity; what the tests leave is one change of the state. -/

namespace Sys2Proof.Machine

/-! ### A run of samples of one quantity (R137 to R139) -/

section
variable {t : Thresholds} {q : Quantity} {n : Nat} {v : Int}

theorem Thresholds.beyond_iff (t : Thresholds) (x v : Int) :
    t.beyond x v = true ↔ if t.low then v < x else x < v := by
  unfold Thresholds.beyond
  split <;> exact decide_eq_true_iff

theorem Quantity.fall_tripCount (q : Quantity) (t : Thresholds) (n : Nat) (v : Int) :
    (q.fall t n v).tripCount = q.tripCount := by
  unfold Quantity.fall
  split
  · rfl
  · split_ifs <;> rfl

theorem Quantity.sample_tripCount (q : Quantity) (t : Thresholds) (n : Nat) (v : Int) :
    (q.sample t n v).tripCount = if t.beyond t.trip v then bump8 q.tripCount else 0 := by
  unfold Quantity.sample
  dsimp only
  split
  · rfl
  · exact Quantity.fall_tripCount _ _ _ _

/-- A value beyond the trip threshold is not clear of its recovery bound. -/
theorem Thresholds.not_clear_of_beyond (hyst : 0 ≤ t.hyst) (beyond : t.beyond t.trip v = true) :
    t.clear t.trip v = false := by
  unfold Thresholds.beyond at beyond
  unfold Thresholds.clear
  split_ifs at beyond ⊢ <;> simp only [decide_eq_true_eq, decide_eq_false_iff_not] at beyond ⊢ <;> omega

/-- At TRIP a value beyond the trip threshold keeps the level. -/
theorem Quantity.sample_level_kept (hyst : 0 ≤ t.hyst) (beyond : t.beyond t.trip v = true) (trip : q.level = .trip) :
    (q.sample t n v).level = .trip := by
  have level : (q.counted t v).level = .trip := trip
  have still : (q.counted t v).riseTo t n = none := by
    unfold Quantity.riseTo
    simp [level, Level.rank]
  unfold Quantity.sample
  dsimp only
  rw [still]
  unfold Quantity.fall
  simp [level, Thresholds.of, Thresholds.not_clear_of_beyond hyst beyond]

/-- A trip count that reaches the persistence count takes the level to TRIP. -/
theorem Quantity.sample_level_reached (hyst : 0 ≤ t.hyst) (beyond : t.beyond t.trip v = true)
    (count : n ≤ (q.sample t n v).tripCount) : (q.sample t n v).level = .trip := by
  by_cases trip : q.level = .trip
  · exact Quantity.sample_level_kept hyst beyond trip
  · have below : (q.counted t v).level.rank < 3 := by
      show q.level.rank < 3
      cases level : q.level with
      | trip => exact absurd level trip
      | ok | warn | derate => decide
    have counted : (q.counted t v).tripCount = (q.sample t n v).tripCount := by
      rw [Quantity.sample_tripCount]
      rfl
    have rises : (q.counted t v).riseTo t n = some .trip := if_pos ⟨below, counted ▸ count⟩
    unfold Quantity.sample
    dsimp only
    rw [rises]

/-- A run of values beyond the trip threshold counts up to its length, and is at TRIP once it is as long as the
persistence count. -/
theorem Quantity.foldl_sample_beyond (hyst : 0 ≤ t.hyst) (most : n ≤ 255) :
    ∀ (vs : List Int) (q : Quantity) (k : Nat), (∀ v ∈ vs, t.beyond t.trip v = true) → min k 255 ≤ q.tripCount →
      (n ≤ k → q.level = .trip) → n ≤ k + vs.length →
      (vs.foldl (fun q v => q.sample t n v) q).level = .trip := by
  intro vs
  induction vs with
  | nil => exact fun q k _ _ level long => level long
  | cons v vs ih =>
    intro q k beyond count _ long
    have first := beyond v List.mem_cons_self
    have counted : min (k + 1) 255 ≤ (q.sample t n v).tripCount := by
      rw [Quantity.sample_tripCount, if_pos first]
      unfold bump8
      omega
    refine ih _ (k + 1) (fun w later => beyond w (List.mem_cons_of_mem v later)) counted
      (fun reached => Quantity.sample_level_reached hyst first (by omega)) ?_
    rw [List.length_cons] at long
    omega

end

/-! ### The steps of a value -/

/-- The quantities of `x` in a circuit with the state, timer, record and request of `y`. -/
def Circuit.under (x y : Circuit) : Circuit :=
  { x with state := y.state, start := y.start, trip := y.trip, water := y.water }

/-- A step of a value moves quantities alone, and reads nothing else of its circuit. -/
def QuantityStep (g : Circuit → Circuit) : Prop := ∀ x y : Circuit, g (x.under y) = (g x).under y

theorem QuantityStep.keeps {g : Circuit → Circuit} (h : QuantityStep g) (x : Circuit) : (g x).under x = g x :=
  (h x x).symm

theorem quantityStep_id : QuantityStep id := fun _ _ => rfl

/-- A quantity takes a sample under the thresholds of an entry. -/
def CoolingEntry.took (e : CoolingEntry) (q : QuantityNo) (v : Int) (x : Circuit) : Circuit :=
  x.setQuantity q ((x.quantity q).sample (e.thresholds q) e.persistence v)

theorem quantityStep_took (e : CoolingEntry) (q : QuantityNo) (v : Int) : QuantityStep (e.took q v) := by
  intro x y
  cases q <;> rfl

/-- The steps of a value of a cooling kind, with the last supply value that a rise is taken against (R136). -/
def CoolingEntry.steps (e : CoolingEntry) (supply : Option Int) (v : Int) : CoolingKind → List (Circuit → Circuit)
  | .flow => [e.took .flow v]
  | .supply => []
  | .ret => e.took .ret v :: (supply.map fun w => e.took .rise (v - w)).toList
  | .pressure => [e.took .pressure v]

/-- The steps of a fresh notice, if the value makes one (R31), and then of the value. -/
def CoolingEntry.noticed (e : CoolingEntry) (fresh : Bool) (supply : Option Int) (v : Int) (k : CoolingKind) :
    List (Circuit → Circuit) := (if fresh then [id] else []) ++ e.steps supply v k

theorem CoolingEntry.noticed_steps (e : CoolingEntry) (fresh : Bool) (supply : Option Int) (v : Int) (k : CoolingKind) :
    ∀ g ∈ e.noticed fresh supply v k, QuantityStep g := by
  intro g mem
  obtain notice | step := List.mem_append.1 mem
  · cases fresh with
    | false => cases notice
    | true =>
      obtain rfl := List.mem_singleton.1 notice
      exact quantityStep_id
  · cases k with
    | flow | pressure =>
      obtain rfl := List.mem_singleton.1 step
      exact quantityStep_took e _ v
    | supply => cases step
    | ret =>
      obtain rfl | rise := List.mem_cons.1 step
      · exact quantityStep_took e _ v
      · simp only [Option.mem_toList, Option.map_eq_some_iff] at rise
        obtain ⟨w, _, rfl⟩ := rise
        exact quantityStep_took e _ _

/-- The circuit as each step of a value hands it to its test. -/
def Circuit.tests (x : Circuit) : List (Circuit → Circuit) → List Circuit
  | [] => []
  | g :: gs => g x :: (g x).tests gs

theorem Circuit.tests_eq_nil {x : Circuit} {gs : List (Circuit → Circuit)} : x.tests gs = [] ↔ gs = [] := by
  cases gs with
  | nil => exact ⟨fun _ => rfl, fun _ => rfl⟩
  | cons g gs => exact ⟨nofun, nofun⟩

theorem CoolingEntry.noticed_tests (e : CoolingEntry) (fresh : Bool) (supply : Option Int) (v : Int) (k : CoolingKind)
    (x : Circuit) : x.tests (e.noticed fresh supply v k) = (if fresh then [x] else []) ++ x.tests (e.steps supply v k) := by
  cases fresh <;> rfl

/-- The circuit that the last step leaves. -/
def Circuit.lastTest (x : Circuit) (gs : List (Circuit → Circuit)) : Circuit := (x.tests gs).getLastD x

@[simp] theorem Circuit.lastTest_nil (x : Circuit) : x.lastTest [] = x := rfl

@[simp] theorem Circuit.lastTest_cons (x : Circuit) (g : Circuit → Circuit) (gs : List (Circuit → Circuit)) :
    x.lastTest (g :: gs) = (g x).lastTest gs := List.getLastD_cons

/-! ### The test after a step (R142) -/

/-- A step of circuit c, and the circuit state test after it. -/
def State.assess (c : CircuitNo) (s : State) (g : Circuit → Circuit) : State :=
  (s.setCircuit c (g s.circuits[c])).circuitTest c

variable {s u : State} {c : CircuitNo} {g : Circuit → Circuit} {gs : List (Circuit → Circuit)}

theorem State.assess_slot (s : State) (c : CircuitNo) (x : Circuit) (g : Circuit → Circuit) :
    State.assess c (s.setCircuit c x) g = (s.setCircuit c (g x)).circuitTest c := by
  unfold State.assess
  rw [State.setCircuit_same, State.setCircuit_set]

theorem State.assess_id (s : State) (c : CircuitNo) : State.assess c s id = s.circuitTest c :=
  congrArg (State.circuitTest · c) (s.setCircuit_self c)

/-- The circuit is in a state that its test moves only by a leak. -/
def Circuit.rests (x : Circuit) (leak : Bool) : Prop :=
  x.state = .disabled ∨ x.state = .trip ∨ (x.state = .starting ∧ leak = false)

theorem State.circuitTest_rests (rests : s.circuits[c].rests s.contacts.ind.leak[c]) : s.circuitTest c = s := by
  unfold State.circuitTest
  obtain disabled | trip | ⟨starting, dry⟩ := rests
  · rw [disabled]
  · rw [trip]
  · rw [starting]
    exact if_neg (by rw [State.causePresent, dry]; exact nofun)

theorem State.circuitTest_leak (starting : s.circuits[c].state = .starting) (leak : s.contacts.ind.leak[c] = true) :
    s.circuitTest c = s.tripped c s.circuits[c] .leak none := by
  unfold State.circuitTest
  rw [starting]
  exact (if_pos leak).trans (s.enterTrip_eq c .leak)

/-- The circuit is in a state that its levels and causes decide (R142). -/
def Circuit.live (x : Circuit) : Prop := x.state = .normal ∨ x.state = .alert ∨ x.state = .derate

theorem State.circuitTest_live (live : s.circuits[c].live) : s.circuitTest c = s.settleCircuit c := by
  unfold State.circuitTest
  obtain normal | alert | derate := live
  · rw [normal]
  · rw [alert]
  · rw [derate]

theorem Circuit.live.enabled {x : Circuit} (live : x.live) : x.state ≠ .disabled := by
  obtain normal | alert | derate := live
  · rw [normal]; exact nofun
  · rw [alert]; exact nofun
  · rw [derate]; exact nofun

theorem Circuit.levelled_live (x : Circuit) : x.levelled.live := by
  show x.byLevels = _ ∨ x.byLevels = _ ∨ x.byLevels = _
  unfold Circuit.byLevels
  dsimp only
  split_ifs <;> simp

/-! ### What the steps leave -/

/-- A resting circuit takes the samples and nothing else moves. -/
theorem State.foldl_assess_rests (steps : ∀ g ∈ gs, QuantityStep g) (x : Circuit)
    (rests : x.rests s.contacts.ind.leak[c]) :
    gs.foldl (State.assess c) (s.setCircuit c x) = s.setCircuit c (x.lastTest gs) := by
  induction gs generalizing x with
  | nil => rfl
  | cons g gs ih =>
    have kept : (g x).rests s.contacts.ind.leak[c] := by
      rw [← (steps g List.mem_cons_self).keeps x]
      exact rests
    have test : (s.setCircuit c (g x)).circuitTest c = s.setCircuit c (g x) :=
      State.circuitTest_rests (by rw [State.setCircuit_same]; exact kept)
    rw [List.foldl_cons, State.assess_slot, test, Circuit.lastTest_cons]
    exact ih (fun h mem => steps h (List.mem_cons_of_mem g mem)) (g x) kept

theorem State.abandonFor_circuits (w u : State) (c : CircuitNo) : (w.abandonFor u c).circuits = w.circuits := by
  unfold State.abandonFor State.abandoned
  dsimp only
  split
  · split_ifs <;> rfl
  · rfl

theorem State.abandonFor_setCircuit (w u : State) (c d : CircuitNo) (x : Circuit) :
    (w.abandonFor u c).setCircuit d x = (w.setCircuit d x).abandonFor u c := by
  have abandoned (r : Pour) : (w.abandoned r).setCircuit d x = (w.setCircuit d x).abandoned r := by
    have permitted : (w.setCircuit d x).taps.station = w.taps.station := rfl
    unfold State.abandoned
    dsimp only
    rw [permitted]
    split_ifs <;> rfl
  unfold State.abandonFor
  split
  · split_ifs
    · exact abandoned _
    · rfl
  · rfl

section
variable (u : State) (c : CircuitNo) (y z : Circuit) (cause : TripCause) (value : Option Int)

theorem State.tripped_slot : (u.tripped c y cause value).circuits[c] = y.inTrip u c cause value := by
  rw [State.tripped_eq]
  simp only [State.abandonFor_circuits]
  exact State.setCircuit_same u c _

theorem State.setCircuit_tripped :
    (u.tripped c y cause value).setCircuit c (z.inTrip u c cause value) = u.tripped c z cause value := by
  rw [State.tripped_eq, State.tripped_eq, State.abandonFor_setCircuit]
  exact congrArg (fun w : State => (w.raise .circuitTrip (numberOf c)).abandonFor u c) (State.setCircuit_set u c _ _)

end

/-- A step moves the quantities of a circuit in TRIP as it moves them outside. -/
theorem QuantityStep.inTrip (h : QuantityStep g) (y : Circuit) (u : State) (cause : TripCause) (value : Option Int) :
    g (y.inTrip u c cause value) = (g y).inTrip u c cause value := by
  have water : (g y).water = y.water := by
    rw [← h.keeps y]
    rfl
  calc g (y.inTrip u c cause value) = (g y).under (y.inTrip u c cause value) := h y (y.inTrip u c cause value)
    _ = (g y).inTrip u c cause value := by
      unfold Circuit.under Circuit.inTrip
      rw [water]

/-- After an entry to TRIP the quantities alone go on. -/
theorem State.foldl_assess_tripped (steps : ∀ g ∈ gs, QuantityStep g) (y : Circuit) (cause : TripCause)
    (value : Option Int) :
    gs.foldl (State.assess c) (u.tripped c y cause value) = u.tripped c (y.lastTest gs) cause value := by
  induction gs generalizing y with
  | nil => rfl
  | cons g gs ih =>
    have step : State.assess c (u.tripped c y cause value) g = u.tripped c (g y) cause value := by
      unfold State.assess
      rw [State.tripped_slot, (steps g List.mem_cons_self).inTrip, State.setCircuit_tripped]
      exact State.circuitTest_rests (.inr (.inl (by rw [State.tripped_slot]; rfl)))
    rw [List.foldl_cons, step, Circuit.lastTest_cons]
    exact ih (fun h mem => steps h (List.mem_cons_of_mem g mem)) (g y)

/-- A leak takes a circuit in STARTING to TRIP at its first test (R142). -/
theorem State.foldl_assess_leak (steps : ∀ g ∈ gs, QuantityStep g) (starting : s.circuits[c].state = .starting)
    (leak : s.contacts.ind.leak[c] = true) (tested : gs ≠ []) :
    gs.foldl (State.assess c) s = s.tripped c (s.circuits[c].lastTest gs) .leak none := by
  obtain ⟨g, gs, rfl⟩ := List.exists_cons_of_ne_nil tested
  have kept : (g s.circuits[c]).state = .starting := by
    rw [← (steps g List.mem_cons_self).keeps]
    exact starting
  have test : State.assess c s g = s.tripped c (g s.circuits[c]) .leak none := by
    unfold State.assess
    rw [State.circuitTest_leak (by rw [State.setCircuit_same]; exact kept) (by exact leak), State.tripped_setCircuit,
      State.setCircuit_same]
  rw [List.foldl_cons, test, Circuit.lastTest_cons]
  exact State.foldl_assess_tripped (fun h mem => steps h (List.mem_cons_of_mem g mem)) _ _ _

/-! ### The steps of a circuit that its levels decide -/

/-- A circuit in a state, with a start timer. -/
def Circuit.inState (x : Circuit) (st : CircuitState) (t : StartTimer) : Circuit := { x with state := st, start := t }

theorem QuantityStep.inState (h : QuantityStep g) (x : Circuit) (st : CircuitState) (t : StartTimer) :
    g (x.inState st t) = (g x).inState st t :=
  calc g (x.inState st t) = (g x).under (x.inState st t) := h x (x.inState st t)
    _ = ((g x).under x).inState st t := rfl
    _ = (g x).inState st t := by rw [h.keeps]

/-- The causes present do not read a circuit's state and timer. -/
theorem State.firstCause_inState (s : State) (c : CircuitNo) (x : Circuit) (st : CircuitState) (t : StartTimer) :
    (s.setCircuit c (x.inState st t)).firstCause c = (s.setCircuit c x).firstCause c := by
  refine firstCause_congr ?_
  funext cause
  cases cause with
  | quantity q => simp only [State.causePresent, State.setCircuit_same]; cases q <;> rfl
  | _ => rfl

section
variable {x : Circuit} {st : CircuitState} {t : StartTimer}

theorem State.circuitTest_levelled (live : (x.inState st t).live) (none : (s.setCircuit c x).firstCause c = none) :
    (s.setCircuit c (x.inState st t)).circuitTest c = s.setCircuit c x.levelled := by
  rw [State.circuitTest_live (by rw [State.setCircuit_same]; exact live),
    State.settleCircuit_levelled ((s.firstCause_inState c x st t).trans none), State.setCircuit_same,
    State.setCircuit_set]
  rfl

theorem State.circuitTest_tripped {z : TripCause} (live : (x.inState st t).live)
    (present : (s.setCircuit c x).firstCause c = some z) :
    (s.setCircuit c (x.inState st t)).circuitTest c = s.tripped c x z (x.causeValue z) := by
  have value : (x.inState st t).causeValue z = x.causeValue z := by
    cases z with
    | quantity q => cases q <;> rfl
    | _ => rfl
  rw [State.circuitTest_live (by rw [State.setCircuit_same]; exact live),
    State.settleCircuit_tripped ((s.firstCause_inState c x st t).trans present), State.setCircuit_same,
    State.tripped_setCircuit, value, State.tripped_eq, State.tripped_eq]
  rfl

end

/-- With no cause at any test the circuit ends in the state of its levels. -/
theorem State.foldl_assess_levels (steps : ∀ g ∈ gs, QuantityStep g) (x : Circuit) (st : CircuitState) (t : StartTimer)
    (live : (x.inState st t).live) (none : ∀ y ∈ x.tests gs, (s.setCircuit c y).firstCause c = none)
    (tested : gs ≠ []) :
    gs.foldl (State.assess c) (s.setCircuit c (x.inState st t)) = s.setCircuit c (x.lastTest gs).levelled := by
  induction gs generalizing x st t with
  | nil => exact absurd rfl tested
  | cons g gs ih =>
    have step := steps g List.mem_cons_self
    rw [List.foldl_cons, State.assess_slot, step.inState,
      State.circuitTest_levelled (by exact live) (none _ List.mem_cons_self), Circuit.lastTest_cons]
    by_cases rest : gs = []
    · rw [rest]
      rfl
    · exact ih (fun h mem => steps h (List.mem_cons_of_mem g mem)) (g x) _ _ (g x).levelled_live
        (fun y mem => none y (List.mem_cons_of_mem _ mem)) rest

/-- The first cause at the first test that finds one takes the circuit to TRIP. -/
theorem State.foldl_assess_trips (steps : ∀ g ∈ gs, QuantityStep g) (x : Circuit) (st : CircuitState) (t : StartTimer)
    (live : (x.inState st t).live) {before after : List Circuit} {y : Circuit} {z : TripCause}
    (tests : x.tests gs = before ++ y :: after)
    (none : ∀ w ∈ before, (s.setCircuit c w).firstCause c = none) (present : (s.setCircuit c y).firstCause c = some z) :
    gs.foldl (State.assess c) (s.setCircuit c (x.inState st t)) = s.tripped c (x.lastTest gs) z (y.causeValue z) := by
  induction gs generalizing x st t before with
  | nil => exact absurd tests (by simp [Circuit.tests])
  | cons g gs ih =>
    have step := steps g List.mem_cons_self
    have later : ∀ h ∈ gs, QuantityStep h := fun h mem => steps h (List.mem_cons_of_mem g mem)
    rw [List.foldl_cons, State.assess_slot, step.inState, Circuit.lastTest_cons]
    cases before with
    | nil =>
      obtain ⟨rfl, _⟩ := List.cons.inj tests
      rw [State.circuitTest_tripped (by exact live) present]
      exact State.foldl_assess_tripped later _ _ _
    | cons w before =>
      obtain ⟨rfl, rest⟩ := List.cons.inj tests
      rw [State.circuitTest_levelled (by exact live) (none _ List.mem_cons_self)]
      exact ih later (g x) _ _ (g x).levelled_live rest fun w mem => none w (List.mem_cons_of_mem _ mem)

/-! ### The delivery (R28, R136) -/

theorem State.supplyValue_congr {a b : State} (tables : b.tables = a.tables) (intake : b.intake = a.intake) :
    b.supplyValue c = a.supplyValue c := by
  unfold State.supplyValue
  rw [tables, intake]

theorem State.coolingValue_disabled (disabled : s.circuits[c].state = .disabled) (k : CoolingKind) (v : Int) :
    s.coolingValue k c v = s := if_pos disabled

theorem State.coolingValue_steps (enabled : s.circuits[c].state ≠ .disabled) (k : CoolingKind) (v : Int) :
    s.coolingValue k c v = ((s.cooling c).steps (s.supplyValue c) v k).foldl (State.assess c) s := by
  refine (if_neg enabled).trans ?_
  cases k with
  | flow | supply | pressure => rfl
  | ret =>
    have supply : (s.evaluate c .ret v).supplyValue c = s.supplyValue c := State.supplyValue_congr (by simp) (by simp)
    have entry : (s.evaluate c .ret v).cooling c = s.cooling c := by
      unfold State.cooling
      rw [(s.evaluate_frame c .ret v).2.2.2.2.1]
    dsimp only
    rw [supply]
    cases s.supplyValue c with
    | none => rfl
    | some w =>
      unfold State.evaluate at entry ⊢
      rw [entry]
      rfl

/-- A value of a cooling kind at its circuit, after a fresh notice if it makes one. -/
def State.cooled (s : State) (fresh : Bool) (k : CoolingKind) (c : CircuitNo) (v : Int) : State :=
  (if fresh then s.circuitTest c else s).coolingValue k c v

theorem State.cooled_disabled (disabled : s.circuits[c].state = .disabled) (fresh : Bool) (k : CoolingKind) (v : Int) :
    s.cooled fresh k c v = s := by
  unfold State.cooled
  rw [State.circuitTest_rests (.inl disabled), ite_self]
  exact State.coolingValue_disabled disabled k v

/-- The test disables no circuit. -/
theorem State.circuitTest_enabled (enabled : s.circuits[c].state ≠ .disabled) :
    (s.circuitTest c).circuits[c].state ≠ .disabled := by
  have tripped (x : TripCause) (value : Option Int) :
      (s.tripped c s.circuits[c] x value).circuits[c].state ≠ .disabled := by
    rw [State.tripped_slot]
    exact nofun
  have settled (live : s.circuits[c].live) : (s.circuitTest c).circuits[c].state ≠ .disabled := by
    rw [State.circuitTest_live live]
    cases cause : s.firstCause c with
    | none =>
      rw [State.settleCircuit_levelled cause, State.setCircuit_same]
      exact s.circuits[c].levelled_live.enabled
    | some x =>
      rw [State.settleCircuit_tripped cause]
      exact tripped _ _
  cases state : s.circuits[c].state with
  | disabled => exact absurd state enabled
  | normal => exact settled (.inl state)
  | alert => exact settled (.inr (.inl state))
  | derate => exact settled (.inr (.inr state))
  | trip =>
    rw [State.circuitTest_rests (.inr (.inl state))]
    exact enabled
  | starting =>
    cases leak : s.contacts.ind.leak[c] with
    | false =>
      rw [State.circuitTest_rests (.inr (.inr ⟨state, leak⟩))]
      exact enabled
    | true =>
      rw [State.circuitTest_leak state leak]
      exact tripped _ _

theorem State.cooled_steps (enabled : s.circuits[c].state ≠ .disabled) (fresh : Bool) (k : CoolingKind) (v : Int) :
    s.cooled fresh k c v = ((s.cooling c).noticed fresh (s.supplyValue c) v k).foldl (State.assess c) s := by
  unfold State.cooled CoolingEntry.noticed
  cases fresh with
  | false => exact State.coolingValue_steps enabled k v
  | true =>
    have supply : (s.circuitTest c).supplyValue c = s.supplyValue c := State.supplyValue_congr (by simp) (by simp)
    have entry : (s.circuitTest c).cooling c = s.cooling c := by
      unfold State.cooling
      rw [(s.circuitTest_frame c).2.2.2.2.1]
    rw [if_pos rfl, if_pos rfl, State.coolingValue_steps (State.circuitTest_enabled enabled), supply, entry,
      List.foldl_append, List.foldl_cons, State.assess_id]
    rfl

theorem State.cooled_intake (s : State) (fresh : Bool) (k : CoolingKind) (c : CircuitNo) (v : Int) :
    (s.cooled fresh k c v).intake = s.intake := by
  unfold State.cooled
  split <;> simp

/-! ### The receiver in a cooling event -/

section
variable (s u : State) (r : Receiver) (c : CircuitNo)

theorem State.abandon_withReceiver (x : Pour) (a : Bool) :
    (s.abandon x a).withReceiver r = (s.withReceiver r).abandon x a := by
  have withdrawn : (s.withdraw x).withReceiver r = (s.withReceiver r).withdraw x :=
    congrArg s.withLoop (s.loop.placePermit_withReceiver r _ _).symm
  have station : (s.withReceiver r).taps.station = s.taps.station := rfl
  have released : (s.releaseFurnace x).withReceiver r = (s.withReceiver r).releaseFurnace x := by
    unfold State.releaseFurnace
    rw [station, ← withdrawn]
    split <;> rfl
  have placed := State.placeStatus_withReceiver
    ((s.releaseFurnace x).withTaps { (s.releaseFurnace x).taps with queue := x.demand :: (s.releaseFurnace x).taps.queue })
    r .requeued (some x.demand.id) (some x.furnace) none
  unfold State.abandon
  rw [← released]
  dsimp only
  split
  · rw [State.raise_withReceiver]
    exact congrArg (fun w : State => w.freeStation.raise .tapAbort (numberOf x.furnace)) placed
  · exact congrArg State.freeStation placed

theorem State.abandonFor_withReceiver (w : State) (same : w.taps = u.taps) :
    (w.abandonFor u c).withReceiver r = (w.withReceiver r).abandonFor u c := by
  unfold State.abandonFor
  split
  · split_ifs with lost
    · rw [← same] at lost
      rw [← State.abandon_eq lost.1, ← State.abandon_eq (by exact lost.1)]
      exact State.abandon_withReceiver w r _ true
    · rfl
  · rfl

theorem State.tripped_withReceiver (y : Circuit) (cause : TripCause) (value : Option Int) :
    (s.tripped c y cause value).withReceiver r = (s.withReceiver r).tripped c y cause value := by
  rw [State.tripped_eq, State.tripped_eq, State.abandonFor_withReceiver _ _ _ _ (by rfl), State.raise_withReceiver]
  rfl

theorem State.circuitTest_withReceiver : (s.circuitTest c).withReceiver r = (s.withReceiver r).circuitTest c := by
  have tripped (cause : TripCause) : (s.enterTrip c cause).withReceiver r = (s.withReceiver r).enterTrip c cause := by
    rw [State.enterTrip_eq, State.enterTrip_eq, State.tripped_withReceiver]
    rfl
  have settled : (s.settleCircuit c).withReceiver r = (s.withReceiver r).settleCircuit c := by
    have causes : (s.withReceiver r).firstCause c = s.firstCause c := rfl
    unfold State.settleCircuit
    rw [causes]
    cases s.firstCause c with
    | none => rfl
    | some cause => exact tripped cause
  have state : (s.withReceiver r).circuits[c].state = s.circuits[c].state := rfl
  have leak : (s.withReceiver r).causePresent c .leak = s.causePresent c .leak := rfl
  unfold State.circuitTest
  rw [state, leak]
  cases s.circuits[c].state with
  | normal | alert | derate => exact settled
  | starting =>
    dsimp only
    split
    · exact tripped .leak
    · rfl
  | trip | disabled => rfl

theorem State.evaluate_withReceiver (q : QuantityNo) (v : Int) :
    (s.evaluate c q v).withReceiver r = (s.withReceiver r).evaluate c q v := State.circuitTest_withReceiver _ r c

theorem State.coolingValue_withReceiver (k : CoolingKind) (v : Int) :
    (s.coolingValue k c v).withReceiver r = (s.withReceiver r).coolingValue k c v := by
  have state : (s.withReceiver r).circuits[c].state = s.circuits[c].state := rfl
  unfold State.coolingValue
  rw [state]
  split
  · rfl
  cases k with
  | flow | pressure => exact State.evaluate_withReceiver _ r c _ v
  | supply => rfl
  | ret =>
    have supply : ((s.withReceiver r).evaluate c .ret v).supplyValue c = (s.evaluate c .ret v).supplyValue c := by
      rw [← State.evaluate_withReceiver]
      rfl
    dsimp only
    rw [supply, ← State.evaluate_withReceiver]
    cases (s.evaluate c .ret v).supplyValue c with
    | none => rfl
    | some w => exact State.evaluate_withReceiver _ r c _ _

theorem State.cooled_withReceiver (fresh : Bool) (k : CoolingKind) (v : Int) :
    (s.cooled fresh k c v).withReceiver r = (s.withReceiver r).cooled fresh k c v := by
  unfold State.cooled
  rw [State.coolingValue_withReceiver, apply_ite (State.withReceiver · r), State.circuitTest_withReceiver]

end

/-! ### The arrival of a cooling value -/

section
variable {i : PointNo} {k : CoolingKind} {v : Int}

theorem CoolingKind.cooling_point (k : CoolingKind) : k.point.cooling = some k := by cases k <;> rfl

theorem PointEntry.staleKey_cooling {e : PointEntry} (kind : e.kind = some k.point)
    (owner : circuitOf e.owner.toNat = some c) : e.staleKey = some (.cooling c k) := by
  unfold PointEntry.staleKey
  rw [kind]
  cases k <;> simp [CoolingKind.point, PointKind.cooling, owner]

theorem PointEntry.causes_cooling {e : PointEntry} (kind : e.kind = some k.point) : e.causes = Causes.none := by
  unfold PointEntry.causes PointEntry.permitFurnaces
  rw [kind]
  cases k <;> rfl

theorem State.deliver_cooling {e : PointEntry} (kind : e.kind = some k.point)
    (owner : circuitOf e.owner.toNat = some c) (s : State) (v : Int) (n : Nat) :
    s.deliver e v n = s.coolingValue k c v := by
  unfold State.deliver
  rw [kind, owner]
  cases k <;> rfl

/-- An accepted item of a cooling point: intake takes it, and its circuit the notice of a stale indication that the item
turns off, and then the value. -/
theorem State.acceptItem_cooling {p : PointLive} (kind : (s.point i).kind = some k.point)
    (owner : circuitOf (s.point i).owner.toNat = some c) (seq : Byte) (it : SampleItem) : s.acceptItem i p seq it =
    ({ s with intake := (s.acceptItem i p seq it).intake } : State).cooled
      (p.stale && s.intake.stale.get (.cooling c k)) k c ((s.point i).value it.raw) := by
  have delivered (u : State) (n : Nat) :=
    State.deliver_cooling (e := s.point i) kind owner u ((s.point i).value it.raw) n
  have noticed (w : State) (own : { s with intake := w.intake } = w) (same : w.intake.stale = s.intake.stale) (n : Nat) :
      ∃ y : Intake, (if p.stale then w.turnPointStale i false else w).deliver (s.point i) ((s.point i).value it.raw) n =
        ({ s with intake := y } : State).cooled
          (p.stale && s.intake.stale.get (.cooling c k)) k c ((s.point i).value it.raw) := by
    rw [← own]
    generalize w.intake = x at same
    have turned : ({ s with intake := x } : State).turnPointStale i false =
        if s.intake.stale.get (.cooling c k) = false then { s with intake := x }
        else ({ s with intake := { x with stale := x.stale.set (.cooling c k) false } } : State).circuitTest c := by
      unfold State.turnPointStale
      rw [show (State.point { s with intake := x } i).staleKey = _ from PointEntry.staleKey_cooling kind owner, ← same]
      rfl
    rw [delivered, turned]
    cases p.stale with
    | false => exact ⟨x, rfl⟩
    | true =>
      cases s.intake.stale.get (.cooling c k) with
      | false => exact ⟨x, rfl⟩
      | true => exact ⟨_, rfl⟩
  have reached : ∃ y : Intake, s.acceptItem i p seq it = ({ s with intake := y } : State).cooled
      (p.stale && s.intake.stale.get (.cooling c k)) k c ((s.point i).value it.raw) := by
    unfold State.acceptItem
    exact noticed _ (by split <;> rfl) (by split <;> rfl) _
  obtain ⟨y, reached⟩ := reached
  have intake : (s.acceptItem i p seq it).intake = y := by rw [reached, State.cooled_intake]
  rw [intake, reached]

/-- The event of an accepted cooling value: intake takes the item at its point, and the circuit the notice and the
value. -/
theorem SampleAccepted.cooled {dt : Time} {bytes : List Byte} {fr : Frame} {p : PointLive}
    (h : SampleAccepted s bytes fr i p v) (kind : (s.point i).kind = some k.point)
    (owner : circuitOf (s.point i).owner.toNat = some c) :
    ∃ t, exec (.frameArrival dt bytes) s = .next t ∧ (∀ j : PointNo, i ≠ j → t.intake.live[j] = s.intake.live[j])
      ∧ EventEnd s
        ((s.sampled dt fr t.intake).cooled (p.stale && s.intake.stale.get (.cooling c k)) k c v) t := by
  obtain ⟨st, raw, taken, unskipped, rfl⟩ := h
  obtain ⟨ch, arrival⟩ := taken.exec (dt := dt)
  rw [State.matchedItem_accepted (s := (s.marked dt bytes).forward fr) taken.live taken.seq unskipped,
    show (((s.marked dt bytes).forward fr).point i).causes = _ from PointEntry.causes_cooling kind] at arrival
  have accepted : ((s.marked dt bytes).forward fr).acceptItem i p fr.seq ⟨ch, st.getLsbD 7, raw⟩ =
      (s.handing dt bytes fr
        (((s.marked dt bytes).forward fr).acceptItem i p fr.seq ⟨ch, st.getLsbD 7, raw⟩).intake).cooled
        (p.stale && s.intake.stale.get (.cooling c k)) k c ((s.point i).value raw) :=
    State.acceptItem_cooling (s := (s.marked dt bytes).forward fr) kind owner fr.seq ⟨ch, st.getLsbD 7, raw⟩
  have others (j : PointNo) (other : i ≠ j) :
      (((s.marked dt bytes).forward fr).acceptItem i p fr.seq ⟨ch, st.getLsbD 7, raw⟩).intake.live[j] =
        s.intake.live[j] := by
    rw [State.acceptItem_live]
    exact Vector.getElem_set_ne _ _ (Fin.val_ne_of_ne other)
  have ended := ((s.marked dt bytes).forward fr).settle_end
    (((s.marked dt bytes).forward fr).acceptItem i p fr.seq ⟨ch, st.getLsbD 7, raw⟩) Causes.none
  have received := EventEnd.received (s := s) (r := Receiver.empty) ended
  have intake := ended.intake
  generalize ((s.marked dt bytes).forward fr).acceptItem i p fr.seq ⟨ch, st.getLsbD 7, raw⟩ = u at *
  generalize ((s.marked dt bytes).forward fr).settle u _ = t at *
  rw [accepted, State.cooled_withReceiver, State.handing_withReceiver, ← intake] at received
  rw [← intake] at others
  exact ⟨_, arrival, others, received⟩

/-- A return value leaves the supply point's live state alone, so the rise is taken against the last supply value. -/
theorem State.supplyValue_other {u : State} (kind : (s.point i).kind = some .returnTemp)
    (tables : u.tables = s.tables) (live : ∀ j : PointNo, i ≠ j → u.intake.live[j] = s.intake.live[j]) :
    u.supplyValue c = s.supplyValue c := by
  unfold State.supplyValue
  rw [tables]
  split
  next j found =>
    have supply : (s.point j).kind = some .supplyTemp := by
      unfold findOwned at found
      have owned := List.find?_some found
      exact of_decide_eq_true (Bool.and_eq_true_iff.1 owned).1
    have other : i ≠ j := by
      rintro rfl
      exact absurd (kind.symm.trans supply) nofun
    rw [live j other]
  next => rfl

/-- The steps that an accepted value makes, in the state that has taken it, of a circuit that is enabled. -/
theorem State.sampled_cooled {dt : Time} {fr : Frame} {x : Intake} (kind : (s.point i).kind = some k.point)
    (live : ∀ j : PointNo, i ≠ j → x.live[j] = s.intake.live[j]) (enabled : s.circuits[c].state ≠ .disabled)
    (fresh : Bool) (v : Int) : (s.sampled dt fr x).cooled fresh k c v =
      ((s.cooling c).noticed fresh (s.supplyValue c) v k).foldl (State.assess c) (s.sampled dt fr x) := by
  have steps : (s.cooling c).noticed fresh ((s.sampled dt fr x).supplyValue c) v k =
      (s.cooling c).noticed fresh (s.supplyValue c) v k := by
    cases k with
    | flow | supply | pressure => rfl
    | ret => rw [State.supplyValue_other (s := s) (u := s.sampled dt fr x) kind rfl live]
  rw [← steps]
  exact State.cooled_steps (by exact enabled) fresh k v

end

/-- Settles O41: the steps of the value run on the circuit, by the state in which the value finds it. -/
theorem persistentSamplesTrip : Obligations.PersistentSamplesTrip := by
  unfold Obligations.PersistentSamplesTrip
  refine ⟨fun q t n hyst least most => ⟨fun vs long beyond => ?_, fun v within => ?_⟩,
    fun dt bytes fr i l v c k s accepted kind owner => ?_⟩
  · exact Quantity.foldl_sample_beyond hyst most vs q 0 (fun v mem => (t.beyond_iff _ v).2 (beyond v mem))
      (Nat.zero_le _) (fun none => absurd none (by omega)) (by omega)
  · rw [Quantity.sample_tripCount, if_neg (mt (t.beyond_iff _ v).1 within)]
  intro x e sampled evaluated tested last
  obtain ⟨t, arrival, live, ends⟩ := accepted.cooled (dt := dt) kind owner
  refine ⟨t, arrival, ?_⟩
  intro u circuit cause decided
  let fresh := l.stale && s.intake.stale.get (.cooling c k)
  have evaluations : evaluated = x.tests (e.steps (s.supplyValue c) v k) := by
    cases k with
    | flow | supply | pressure => rfl
    | ret =>
      dsimp only [evaluated, CoolingEntry.steps]
      cases s.supplyValue c <;> rfl
  have tests : tested = x.tests (e.noticed fresh (s.supplyValue c) v k) := by
    rw [CoolingEntry.noticed_tests, ← evaluations]
    simp only [tested, fresh, Bool.and_eq_true]
  have final : last = x.lastTest (e.noticed fresh (s.supplyValue c) v k) := congrArg (List.getLastD · x) tests
  have whole : u.setCircuit c x = u := u.setCircuit_self c
  have run (enabled : x.state ≠ .disabled) : u.cooled fresh k c v =
      (e.noticed fresh (s.supplyValue c) v k).foldl (State.assess c) (u.setCircuit c x) := by
    rw [whole]
    exact State.sampled_cooled kind live enabled fresh v
  have steps := e.noticed_steps fresh (s.supplyValue c) v k
  have ended (w : State) (h : u.cooled fresh k c v = w) : EventEnd s w t := h ▸ ends
  generalize e.noticed fresh (s.supplyValue c) v k = gs at tests run steps final
  have some_step (ne : tested ≠ []) : gs ≠ [] := mt Circuit.tests_eq_nil.2 (tests ▸ ne)
  rw [final]
  refine ⟨fun still => ended _ ?_, fun trip => ended _ ?_, fun starting dry => ended _ ?_,
    fun starting leak ne => ended _ ?_, fun decides ne none => ended _ ?_,
    fun before y after z decides split none present => ended _ ?_⟩
  · by_cases disabled : x.state = .disabled
    · exact State.cooled_disabled (by exact disabled) fresh k v
    · have none : gs = [] := Circuit.tests_eq_nil.1 (tests ▸ still.resolve_left disabled)
      rw [run disabled, none, whole]
      rfl
  · rw [run (by rw [trip]; exact nofun)]
    exact State.foldl_assess_rests steps x (.inr (.inl trip))
  · rw [run (by rw [starting]; exact nofun)]
    exact State.foldl_assess_rests steps x (.inr (.inr ⟨starting, dry⟩))
  · rw [run (by rw [starting]; exact nofun), whole]
    exact State.foldl_assess_leak steps starting leak (some_step ne)
  · rw [run (Circuit.live.enabled decides)]
    exact State.foldl_assess_levels steps x x.state x.start decides (tests ▸ none) (some_step ne)
  · rw [run (Circuit.live.enabled decides)]
    exact State.foldl_assess_trips steps x x.state x.start decides (tests ▸ split) none present

end Sys2Proof.Machine
end

section
/-! SUPPORT. What an event's own changes make of the demands before its end (R154, R157, R159, R163 to R172): a demand
that the station gives back stands at the queue's head, and no operation brings in another but a DEMAND. -/

namespace Sys2Proof.Machine

variable {s t : State} {r : Pour}

/-! ### The demands of queue and station -/

section
variable {a b : Taps}

/-- What moves neither the queue nor the station. -/
theorem Taps.safe.same (h : a.safe) (queue : b.queue = a.queue) (station : b.station = a.station)
    (pour : b.pour = a.pour) : b.safe := by
  simpa only [Taps.safe, Taps.demandIds, queue, station, pour] using h

/-- The demands of `b` are some of those of `a`, in their order. -/
theorem Taps.safe.fewer (h : a.safe) (ids : b.demandIds.Sublist a.demandIds)
    (held : b.pour.isSome = true ↔ b.station ≠ .idle) : b.safe := by
  obtain ⟨bound, distinct, _⟩ := h
  exact ⟨ids.length_le.trans bound, ids.nodup distinct, held⟩

/-- The station that holds a record stays occupied, with a record of the same demand. -/
theorem Taps.safe.recorded {r' : Pour} (h : a.safe) (held : a.pour = some r) (same : r'.demand = r.demand)
    (queue : b.queue = a.queue) (pour : b.pour = some r') (busy : b.station ≠ .idle) : b.safe := by
  refine Taps.safe.fewer h ?_ (by simp [pour, busy])
  simp [Taps.demandIds, held, pour, queue, same]

/-- The station gives up its record, and the demand with it. -/
theorem Taps.safe.freed (h : a.safe) (queue : b.queue = a.queue) (pour : b.pour = none) (idle : b.station = .idle) :
    b.safe := by
  refine Taps.safe.fewer h ?_ (by simp [pour, idle])
  rw [Taps.demandIds, Taps.demandIds, pour, queue]
  exact List.sublist_append_right _ _

/-- The station gives its demand back to the head of the queue (R166). -/
theorem Taps.safe.requeued (h : a.safe) (held : a.pour = some r) (queue : b.queue = r.demand :: a.queue)
    (pour : b.pour = none) (idle : b.station = .idle) : b.safe := by
  refine Taps.safe.fewer h ?_ (by simp [pour, idle])
  simp [Taps.demandIds, held, pour, queue]

/-- A matched demand leaves the head of the queue for the station (R161). -/
theorem Taps.safe.matched {d : Demand} {r' : Pour} (h : a.safe) (idle : a.station = .idle)
    (head : a.queue.head? = some d) (same : r'.demand = d) (queue : b.queue = a.queue.tail) (pour : b.pour = some r')
    (busy : b.station ≠ .idle) : b.safe := by
  have free : a.pour = none := by
    obtain ⟨_, _, held⟩ := h
    rw [idle] at held
    exact Option.not_isSome_iff_eq_none.1 fun some => held.1 some rfl
  refine Taps.safe.fewer h ?_ (by simp [pour, busy])
  obtain ⟨rest, hq⟩ := List.head?_eq_some_iff.1 head
  simp [Taps.demandIds, free, pour, queue, hq, same]

end

/-- An operation on the condition of its station or its furnace. -/
theorem ite_tapsSafe {p : Prop} [Decidable p] {u v : State} (hu : u.taps.safe) (hv : v.taps.safe) :
    (if p then u else v).taps.safe := by
  split
  · exact hu
  · exact hv

theorem foldl_tapsSafe {β : Type} {g : State → β → State} (step : ∀ u b, u.taps.safe → (g u b).taps.safe) (l : List β)
    (h : s.taps.safe) : (l.foldl g s).taps.safe :=
  List.foldlRecOn (motive := fun u : State => u.taps.safe) l g h fun u hu b _ => step u b hu

/-! ### The tap coordinator -/

theorem State.raise_tapsSafe {k : Kind} {n : Nat} (h : s.taps.safe) : (s.raise k n).taps.safe := by simpa using h

theorem State.completePour_tapsSafe (h : s.taps.safe) : (s.completePour r).taps.safe := by
  rw [State.completePour_eq, State.afterPour]
  exact h.freed (by simp) (by simp) (by simp)

theorem State.completionTest_tapsSafe (h : s.taps.safe) : s.completionTest.taps.safe := by
  unfold State.completionTest
  split
  · exact ite_tapsSafe (completePour_tapsSafe h) h
  · exact h

/-- The return begins with a record of the demand that the station holds (R164). -/
theorem State.returning_tapsSafe {r' : Pour} (h : s.taps.safe) (held : s.taps.pour = some r)
    (same : r'.demand = r.demand) : (s.returning r').taps.safe :=
  h.recorded held same rfl rfl nofun

theorem State.endPour_tapsSafe (h : s.taps.safe) (held : s.taps.pour = some r) : (s.endPour r).taps.safe := by
  unfold State.endPour
  rw [State.startReturn_eq held]
  exact completionTest_tapsSafe (returning_tapsSafe h held rfl)

theorem State.interruptPour_tapsSafe {abort : Bool} (h : s.taps.safe) (held : s.taps.pour = some r) :
    (s.interruptPour r abort).taps.safe := by
  have returned : (s.returning { r with abort := true }).taps.safe := returning_tapsSafe h held rfl
  exact completionTest_tapsSafe (ite_tapsSafe (raise_tapsSafe returned) returned)

theorem State.abandon_tapsSafe {abort : Bool} (h : s.taps.safe) (held : s.taps.pour = some r) :
    (s.abandon r abort).taps.safe := by
  unfold State.abandon
  have back : (((((s.releaseFurnace r).withTaps { (s.releaseFurnace r).taps with
      queue := r.demand :: (s.releaseFurnace r).taps.queue }).placeStatus .requeued (some r.demand.id)
      (some r.furnace) none).freeStation).taps).safe :=
    h.requeued held (by simp) rfl rfl
  exact ite_tapsSafe (raise_tapsSafe back) back

theorem State.abandonOn_tapsSafe {p : Furnace → Bool} (h : s.taps.safe) : (s.abandonOn p).taps.safe := by
  unfold State.abandonOn
  split
  next held => exact ite_tapsSafe (abandon_tapsSafe h held) h
  next held => exact ite_tapsSafe (abandon_tapsSafe h held) h
  · exact h

theorem State.tapOnExpired_tapsSafe (h : s.taps.safe) : s.tapOnExpired.taps.safe := by
  unfold State.tapOnExpired
  split
  next held => exact abandon_tapsSafe h held
  · exact h

theorem State.tapOnAllStop_tapsSafe (h : s.taps.safe) : s.tapOnAllStop.taps.safe := by
  unfold State.tapOnAllStop
  split
  next held => exact abandon_tapsSafe h held
  next held => exact abandon_tapsSafe h held
  next held => exact interruptPour_tapsSafe h held
  · exact h

theorem State.ladleValue_tapsSafe {v : Nat} (h : s.taps.safe) : (s.ladleValue v).taps.safe := by
  have seen : (s.seenLadle v).taps.safe := h.same rfl rfl rfl
  have counted {r : Pour} (held : s.taps.pour = some r) (busy : s.taps.station ≠ .idle) :
      (s.countedPour r v).taps.safe := h.recorded (r' := r.weighed v) held rfl rfl rfl busy
  unfold State.ladleValue
  dsimp only
  split
  next pouring held =>
    have poured := counted held (by rw [show s.taps.station = _ from pouring]; exact nofun)
    exact ite_tapsSafe (endPour_tapsSafe poured rfl) poured
  next returning held => exact counted held (by rw [show s.taps.station = _ from returning]; exact nofun)
  · exact seen

theorem State.startPour_tapsSafe (h : s.taps.safe) (held : s.taps.pour = some r) : (s.startPour r).taps.safe := by
  have tapping : ((s.withTaps { s.taps with
      tiltStart := .idle, station := .pouring,
      pourTimer := .running s.time (s.mgmt.params.pourTimeout * 1000) }).setHeat r.furnace
      { s.heats[r.furnace] with phase := .tapping }).taps.safe :=
    h.recorded (r' := r) held rfl rfl held nofun
  exact ite_tapsSafe (interruptPour_tapsSafe tapping held) tapping

theorem State.tiltValue_tapsSafe {f : Furnace} {v : Nat} (h : s.taps.safe) : (s.tiltValue f v).taps.safe := by
  have seen : (s.seenTilt f v).taps.safe := h.same rfl rfl rfl
  unfold State.tiltValue
  dsimp only
  split
  next held => exact ite_tapsSafe (startPour_tapsSafe seen held) seen
  next held => exact ite_tapsSafe (endPour_tapsSafe seen held) seen
  · exact ite_tapsSafe (completionTest_tapsSafe seen) seen
  · exact seen

theorem State.tiltHomeNotice_tapsSafe {f : Furnace} (h : s.taps.safe) : (s.tiltHomeNotice f).taps.safe := by
  unfold State.tiltHomeNotice
  split
  · exact ite_tapsSafe (completionTest_tapsSafe h) h
  · exact h

theorem State.ladleStale_tapsSafe (h : s.taps.safe) : s.ladleStale.taps.safe := by
  unfold State.ladleStale
  split
  next held => exact interruptPour_tapsSafe h held
  · exact h

theorem State.tiltStale_tapsSafe {f : Furnace} (h : s.taps.safe) : (s.tiltStale f).taps.safe := by
  have faulted : (s.tiltFault f).taps.safe := h.same (by simp) (by simp) (by simp)
  have kept {o : Option Pour} (held : s.taps.pour = o) : (s.tiltFault f).taps.pour = o := by simpa using held
  unfold State.tiltStale
  split
  next held => exact ite_tapsSafe (abandon_tapsSafe faulted (kept held)) h
  next held => exact ite_tapsSafe (interruptPour_tapsSafe faulted (kept held)) h
  · exact ite_tapsSafe (completePour_tapsSafe faulted) h
  · exact h

theorem State.tiltStartExpire_tapsSafe (h : s.taps.safe) : s.tiltStartExpire.taps.safe := by
  unfold State.tiltStartExpire
  split
  next held => exact abandon_tapsSafe h held
  · exact h

theorem State.pourExpire_tapsSafe (h : s.taps.safe) : s.pourExpire.taps.safe := by
  unfold State.pourExpire
  split
  next held => exact interruptPour_tapsSafe h held
  · exact h

/-! ### Demands and cancels -/

/-- A demand of a new id joins a queue with room (R157). -/
theorem Taps.safe.joined {a b : Taps} {d : Demand} (h : a.safe) (new : d.id ∉ a.demandIds)
    (room : a.queue.length + a.pour.toList.length < queueDepth) (queue : b.queue = a.queue ++ [d])
    (station : b.station = a.station) (pour : b.pour = a.pour) : b.safe := by
  obtain ⟨_, distinct, held⟩ := h
  have ids : b.demandIds = a.demandIds ++ [d.id] := by simp [Taps.demandIds, pour, queue]
  refine ⟨?_, ?_, by rw [pour, station]; exact held⟩
  · have length : a.demandIds.length = a.pour.toList.length + a.queue.length := by simp [Taps.demandIds]
    rw [ids, List.length_append, length, List.length_singleton]
    omega
  · rw [ids]
    exact List.nodup_append.2 ⟨distinct, List.nodup_singleton _, fun x hx y hy => by
      obtain rfl := List.mem_singleton.1 hy
      rintro rfl
      exact new hx⟩

/-- A demand that replaces its namesake moves no id (R157). -/
theorem Taps.safe.replaced {a b : Taps} {d : Demand} (h : a.safe)
    (queue : b.queue = a.queue.map fun x => if x.id = d.id then d else x) (station : b.station = a.station)
    (pour : b.pour = a.pour) : b.safe := by
  have ids : b.queue.map (·.id) = a.queue.map (·.id) := by
    rw [queue, List.map_map]
    refine List.map_congr_left fun x _ => ?_
    dsimp only [Function.comp]
    split
    next same => exact same.symm
    · rfl
  have ⟨_, _, held⟩ := h
  refine h.fewer ?_ (by rw [pour, station]; exact held)
  rw [Taps.demandIds, Taps.demandIds, pour, ids]

theorem State.demand_tapsSafe {d : Demand} (h : s.taps.safe) : (s.demand d).taps.safe := by
  have told {u : State} {k : StatusKind} {f : Option Furnace} (hu : u.taps.safe) :
      (u.placeStatus k (some d.id) f none).taps.safe := by simpa using hu
  by_cases bad : d.bad = true
  · rw [State.demand_bad bad]
    exact told h
  by_cases busy : ∃ r, s.taps.pour = some r ∧ r.demand.id = d.id
  · obtain ⟨r, held, same⟩ := busy
    rw [State.demand_busy (eq_false_of_ne_true bad) held same]
    exact told h
  have free (r : Pour) (held : s.taps.pour = some r) : r.demand.id ≠ d.id := fun same => busy ⟨r, held, same⟩
  rw [State.demand_free (eq_false_of_ne_true bad) free]
  obtain ⟨again, full, joins⟩ := State.queueDemand_cases (s := s) d s.taps.pour.toList.length
  by_cases queued : ∃ x ∈ s.taps.queue, x.id = d.id
  · rw [again queued]
    exact told (h.replaced (d := d) rfl rfl rfl)
  have new (x : Demand) (hx : x ∈ s.taps.queue) : x.id ≠ d.id := fun same => queued ⟨x, hx, same⟩
  by_cases room : s.taps.queue.length + s.taps.pour.toList.length < 4
  · rw [joins new room]
    refine told (h.joined (d := d) (fun mem => ?_) room rfl rfl rfl)
    simp only [Taps.demandIds, List.mem_append, List.mem_map, Option.mem_toList] at mem
    obtain ⟨r, held, same⟩ | ⟨x, hx, same⟩ := mem
    · exact free r held same
    · exact new x hx same
  · rw [full new (Nat.not_lt.1 room)]
    exact told h

theorem State.cancelHeld_tapsSafe (h : s.taps.safe) (held : s.taps.pour = some r) : (s.cancelHeld r).taps.safe := by
  have freed : (((s.releaseFurnace r).placeStatus .cancelled (some r.demand.id) (some r.furnace) none).freeStation
      ).taps.safe := h.freed (by simp [State.freeStation]) rfl rfl
  unfold State.cancelHeld
  split
  · exact freed
  · exact freed
  · exact endPour_tapsSafe h held
  · exact h
  · exact h

theorem State.cancel_tapsSafe {i : Byte} (h : s.taps.safe) : (s.cancel i).taps.safe := by
  have told {u : State} {k : StatusKind} (hu : u.taps.safe) : (u.placeStatus k (some i) none none).taps.safe := by
    simpa using hu
  have ⟨_, _, present⟩ := h
  have removed : (s.withTaps { s.taps with
      queue := s.taps.queue.filter fun x => !decide (x.id = i) }).taps.safe :=
    h.fewer ((List.Sublist.refl _).append (List.filter_sublist.map _)) present
  unfold State.cancel
  refine ite_tapsSafe (told removed) ?_
  split
  next held => exact ite_tapsSafe (cancelHeld_tapsSafe h held) (told h)
  · exact told h

/-! ### The cooling monitor and the watchdog -/

theorem State.enterTrip_tapsSafe {c : CircuitNo} {x : TripCause} (h : s.taps.safe) : (s.enterTrip c x).taps.safe := by
  unfold State.enterTrip
  exact abandonOn_tapsSafe (by simpa using h)

theorem State.settleCircuit_tapsSafe {c : CircuitNo} (h : s.taps.safe) : (s.settleCircuit c).taps.safe := by
  unfold State.settleCircuit
  split
  · exact enterTrip_tapsSafe h
  · exact h

theorem State.circuitTest_tapsSafe {c : CircuitNo} (h : s.taps.safe) : (s.circuitTest c).taps.safe := by
  unfold State.circuitTest
  split
  · exact settleCircuit_tapsSafe h
  · exact settleCircuit_tapsSafe h
  · exact settleCircuit_tapsSafe h
  · exact ite_tapsSafe (enterTrip_tapsSafe h) h
  · exact h
  · exact h

theorem State.startingTest_tapsSafe {c : CircuitNo} (h : s.taps.safe) : (s.startingTest c).taps.safe :=
  ite_tapsSafe (settleCircuit_tapsSafe h) h

theorem State.evaluate_tapsSafe {c : CircuitNo} {q : QuantityNo} {v : Int} (h : s.taps.safe) :
    (s.evaluate c q v).taps.safe := circuitTest_tapsSafe h

theorem State.coolingValue_tapsSafe {k : CoolingKind} {c : CircuitNo} {v : Int} (h : s.taps.safe) :
    (s.coolingValue k c v).taps.safe := by
  refine ite_tapsSafe h ?_
  cases k with
  | flow => exact evaluate_tapsSafe h
  | pressure => exact evaluate_tapsSafe h
  | supply => exact h
  | ret =>
    dsimp only
    split
    · exact evaluate_tapsSafe (evaluate_tapsSafe h)
    · exact evaluate_tapsSafe h

theorem State.dropQuantity_tapsSafe {c : CircuitNo} {q : QuantityNo} {kept : Bool} (h : s.taps.safe) :
    (s.dropQuantity c q kept).taps.safe := ite_tapsSafe h (circuitTest_tapsSafe h)

theorem State.recheckPoints_tapsSafe {c : CircuitNo} (h : s.taps.safe) : (s.recheckPoints c).taps.safe :=
  ite_tapsSafe h (dropQuantity_tapsSafe (dropQuantity_tapsSafe (dropQuantity_tapsSafe (dropQuantity_tapsSafe h))))

theorem State.recommitCircuit_tapsSafe {m : Image} {c : CircuitNo} (h : s.taps.safe) :
    (s.recommitCircuit m c).taps.safe := by
  unfold State.recommitCircuit
  split
  · exact h
  · exact circuitTest_tapsSafe h
  · exact h
  · exact ite_tapsSafe (startingTest_tapsSafe h) h

theorem State.enterExpired_tapsSafe (h : s.taps.safe) : s.enterExpired.taps.safe := by
  unfold State.enterExpired
  exact tapOnExpired_tapsSafe (by simpa using h)

theorem State.enterAllStop_tapsSafe {c : StopCause} {n : Byte} (h : s.taps.safe) :
    (s.enterAllStop c n).taps.safe := by
  unfold State.enterAllStop
  split
  · exact h
  · exact tapOnAllStop_tapsSafe (by simpa using h)

/-! ### The contact unit -/

theorem State.edge_tapsSafe {i : InputNo} {rising : Bool} (h : s.taps.safe) : (s.edge i rising).taps.safe := by
  simpa using h

theorem State.sendNotices_tapsSafe {old : Indications} (h : s.taps.safe) : (s.sendNotices old).taps.safe := by
  unfold State.sendNotices State.estopNotice
  refine foldl_tapsSafe (fun _ _ h => ite_tapsSafe h (tiltHomeNotice_tapsSafe h)) _ ?_
  refine foldl_tapsSafe (fun _ _ h => ite_tapsSafe h (startingTest_tapsSafe h)) _ ?_
  refine foldl_tapsSafe (fun _ _ h => ite_tapsSafe h (circuitTest_tapsSafe h)) _ ?_
  refine foldl_tapsSafe (fun _ _ h => ite_tapsSafe h (circuitTest_tapsSafe h)) _ ?_
  exact ite_tapsSafe h (ite_tapsSafe (enterAllStop_tapsSafe h) h)

theorem State.refreshIndications_tapsSafe (h : s.taps.safe) : s.refreshIndications.taps.safe := sendNotices_tapsSafe h

theorem State.filteredChange_tapsSafe {i : InputNo} (h : s.taps.safe) : (s.filteredChange i).taps.safe :=
  edge_tapsSafe (refreshIndications_tapsSafe h)

theorem State.rawChange_tapsSafe {i : InputNo} {closed : Bool} (h : s.taps.safe) : (s.rawChange i closed).taps.safe :=
  ite_tapsSafe h (ite_tapsSafe h (ite_tapsSafe (filteredChange_tapsSafe h) h))

theorem State.recommitContacts_tapsSafe {m : Image} (h : s.taps.safe) : (s.recommitContacts m).taps.safe := by
  have inputs : (inputNos.foldl (fun s i => s.recommitInput i) s).taps.safe :=
    foldl_tapsSafe (fun _ _ h => by simpa using h) _ h
  unfold State.recommitContacts
  simpa only [State.recommitOutputs_frame] using refreshIndications_tapsSafe inputs

/-! ### Point intake -/

theorem State.staleNotice_tapsSafe {key : StaleKey} (h : s.taps.safe) : (s.staleNotice key).taps.safe := by
  cases key with
  | power f => simpa [State.staleNotice] using h
  | cooling c k => exact circuitTest_tapsSafe h
  | ladle => exact ladleStale_tapsSafe h
  | tilt f => exact tiltStale_tapsSafe h

theorem State.freshToOwner_tapsSafe {key : StaleKey} (h : s.taps.safe) : (s.freshToOwner key).taps.safe := by
  cases key with
  | power f => exact h
  | cooling c k => exact circuitTest_tapsSafe h
  | ladle => exact h
  | tilt f => exact h

theorem State.turnPointStale_tapsSafe {i : PointNo} {on : Bool} (h : s.taps.safe) :
    (s.turnPointStale i on).taps.safe := by
  unfold State.turnPointStale
  split
  · exact ite_tapsSafe h (ite_tapsSafe (staleNotice_tapsSafe h) (freshToOwner_tapsSafe h))
  · exact h

theorem State.flagStale_tapsSafe {i : PointNo} (h : s.taps.safe) : (s.flagStale i).taps.safe := by simpa using h

theorem State.deliver_tapsSafe {e : PointEntry} {v : Int} {n : Nat} (h : s.taps.safe) :
    (s.deliver e v n).taps.safe := by
  unfold State.deliver
  dsimp only
  split
  · simpa using h
  · simpa using h
  · exact h.same (by simp) (by simp) (by simp)
  · exact h.same (by simp) (by simp) (by simp)
  · exact ladleValue_tapsSafe h
  · exact tiltValue_tapsSafe h
  · exact coolingValue_tapsSafe h
  · exact coolingValue_tapsSafe h
  · exact coolingValue_tapsSafe h
  · exact coolingValue_tapsSafe h
  · exact h

theorem State.acceptItem_tapsSafe {i : PointNo} {p : PointLive} {seq : Byte} {it : SampleItem} (h : s.taps.safe) :
    (s.acceptItem i p seq it).taps.safe := by
  unfold State.acceptItem
  refine deliver_tapsSafe ?_
  dsimp only
  split
  · exact turnPointStale_tapsSafe (ite_tapsSafe h h)
  · exact ite_tapsSafe h h

theorem State.recommitNotice_tapsSafe {a b : StaleInd} {key : StaleKey} (h : s.taps.safe) :
    (s.recommitNotice a b key).taps.safe := by
  unfold State.recommitNotice
  split
  · exact staleNotice_tapsSafe h
  · exact freshToOwner_tapsSafe h
  · exact h

theorem State.recommitPoints_tapsSafe {m : Image} (h : s.taps.safe) : (s.recommitPoints m).taps.safe := by
  unfold State.recommitPoints
  refine foldl_tapsSafe (fun _ _ h => recheckPoints_tapsSafe h) _ ?_
  refine foldl_tapsSafe (fun _ _ h => recommitNotice_tapsSafe h) _ ?_
  rw [State.withStale_taps]
  exact foldl_tapsSafe (fun _ _ h => ite_tapsSafe (flagStale_tapsSafe h) h) pointNos h

/-! ### Follow timers, profile commits and parameters -/

theorem State.followExpire_tapsSafe {f : Furnace} (h : s.taps.safe) : (s.followExpire f).taps.safe := by
  unfold State.followExpire
  exact abandonOn_tapsSafe (by simpa using h)

/-- The state of a profile commit before its event ends: the blocks' own parts (R77, R72, R130, R171, R112, R115). -/
def State.profilesCommitted (s0 s : State) : State :=
  let s := furnaces.foldl (fun s f => s.reanchorHeat (s0.profile f) f) s
  let s := furnaces.foldl (fun s f => s.holdAtCommit f) s
  let s := s.compareAll.tapOnProfile
  let s := furnaces.foldl (fun s f => s.reduceOrder f) s
  furnaces.foldl (fun s f => s.suspendFollow f) s

/-- After the event's end the timers that the commit runs out expire, and the orders are placed anew (log entry 26). -/
theorem State.recommitProfiles_eq (s0 s : State) : s0.recommitProfiles s =
    (furnaces.foldl (fun s f => s.replaceOrder f) (furnaces.foldl (fun s f => s.rampAtCommit f)
      (furnaces.foldl (fun s f => s.followAtCommit f)
        (s0.settle (s0.profilesCommitted s) (Causes.testing furnaces))))).driveOutputs := rfl

theorem State.profilesCommitted_ready (s0 s : State) : (s0.profilesCommitted s).taps.ready = s.taps.ready := by
  simp [State.profilesCommitted, foldl_keeps (fun s : State => s.taps.ready)]

theorem State.profilesCommitted_tapsSafe {s0 : State} (h : s.taps.safe) : (s0.profilesCommitted s).taps.safe := by
  unfold State.profilesCommitted
  refine foldl_tapsSafe (fun _ _ h => by simpa using h) _ ?_
  refine foldl_tapsSafe (fun _ _ h => by simpa using h) _ (abandonOn_tapsSafe ?_)
  simp only [State.compareAll_frame]
  refine foldl_tapsSafe (fun _ _ h => by simpa using h) _ ?_
  exact foldl_tapsSafe (fun _ _ h => by simpa using h) _ h

theorem State.paramWritten_tapsSafe {n : Nat} (h : s.taps.safe) : (s.paramWritten n).taps.safe := by
  unfold State.paramWritten
  split
  · exact ite_tapsSafe h h
  · exact ite_tapsSafe (enterExpired_tapsSafe h) h
  · exact foldl_tapsSafe (fun _ _ h => h.same (by simp) (by simp) (by simp)) _ h
  · exact h

end Sys2Proof.Machine
end

section
/-! O8 and O9. What every command does to the ready list and to the demands (R154 to R172): the end of an event lists
the ready furnaces and keeps the demands, and what ends no event moves nothing that readiness reads and no demand. -/

namespace Sys2Proof.Machine

variable {s t : State}

/-! ### The end of an event -/

/-- An evaluation lists no furnace twice (R156): the new furnaces are not among those kept. -/
theorem State.listedAnew_nodup (h : s.taps.readyFurnaces.Nodup) : (s.listedAnew.map (·.furnace)).Nodup := by
  unfold State.listedAnew
  rw [List.map_append, List.map_map]
  refine List.nodup_append.2 ⟨(List.filter_sublist.map _).nodup h, ?_, fun f kept g new => ?_⟩
  · exact ((List.nodup_finRange 6).filter _).map fun _ _ same => same
  · rintro rfl
    have listed : f ∈ s.taps.readyFurnaces := (List.filter_sublist.map _).subset kept
    simp [listed] at new

/-- The end of an event lists exactly the ready furnaces, each once (R155, R156, R161). -/
theorem EventEnd.readySafe {u : State} {x : Causes} (h : EventEnd s u t x) (distinct : u.taps.readyFurnaces.Nodup) :
    t.readySafe := by
  obtain ⟨_, _, _, _, ends⟩ := h.tap
  refine ⟨?_, h.ready⟩
  rw [Taps.readyFurnaces, ends.listed]
  exact (List.filter_sublist.map _).nodup (State.listedAnew_nodup distinct)

/-- The end of an event moves the queue's head to the station in a match, and the station on in a grant (R161, R162). -/
theorem EventEnd.tapsSafe {u : State} {x : Causes} (h : EventEnd s u t x) (safe : u.taps.safe) : t.taps.safe := by
  obtain ⟨m, g, matched, granted, ends⟩ := h.tap
  have after : ({ u.taps with
      queue := t.taps.queue, station := (u.stationAfter m).1, pour := (u.stationAfter m).2 } : Taps).safe := by
    rw [ends.queue]
    cases m with
    | none => exact safe.same rfl rfl rfl
    | some p =>
      have made := (matched p.1 p.2).1 rfl
      exact safe.matched made.station made.head rfl rfl rfl nofun
  cases g with
  | none =>
    obtain ⟨same, _⟩ := ends.waiting rfl
    exact after.same rfl (congrArg Prod.fst same) (congrArg Prod.snd same)
  | some r =>
    obtain ⟨station, pour, _⟩ := ends.permitted r rfl
    have held := ((granted r).1 rfl).assigned
    exact after.recorded (congrArg Prod.snd held) (by rfl) rfl pour (by rw [station]; exact nofun)

/-! ### What a command keeps -/

/-- From `a` to `b` the ready list and the demands stay safe. -/
structure TapsKept (a b : State) : Prop where
  ready : a.readySafe → b.readySafe
  demands : a.taps.safe → b.taps.safe

theorem TapsKept.refl (s : State) : TapsKept s s := ⟨id, id⟩

theorem TapsKept.trans {a b c : State} (h : TapsKept a b) (k : TapsKept b c) : TapsKept a c :=
  ⟨k.ready ∘ h.ready, k.demands ∘ h.demands⟩

theorem TapsKept.fold {β : Type} {g : State → β → State} (step : ∀ u b, TapsKept u (g u b)) (l : List β)
    (h : TapsKept s t) : TapsKept s (l.foldl g t) :=
  List.foldlRecOn (motive := TapsKept s) l g h fun u hu b _ => hu.trans (step u b)

/-- Nothing that readiness reads has moved, no list and no demand. -/
structure TapInputsKept (a b : State) : Prop where
  heats : b.heats = a.heats := by rfl
  circuits : b.circuits = a.circuits := by rfl
  profiles : b.tables.profile.active = a.tables.profile.active := by rfl
  expecting : b.watch.state.expecting = a.watch.state.expecting := by rfl
  run : b.watch.run = a.watch.run := by rfl
  dipAge : b.taps.dipAge = a.taps.dipAge := by rfl
  ready : b.taps.ready = a.taps.ready := by rfl
  queue : b.taps.queue = a.taps.queue := by rfl
  station : b.taps.station = a.taps.station := by rfl
  pour : b.taps.pour = a.taps.pour := by rfl

theorem TapInputsKept.isReady (h : TapInputsKept s t) (f : Furnace) : t.isReady f = s.isReady f := by
  have profile : t.profile f = s.profile f := by unfold State.profile; rw [h.profiles]
  unfold State.isReady State.availableMass State.circuitFit State.circuitState
  simp only [h.heats, h.circuits, profile, h.expecting, h.run, h.dipAge]

theorem TapInputsKept.kept (h : TapInputsKept s t) : TapsKept s t where
  ready safe := by simpa only [State.readySafe, Taps.readyFurnaces, h.ready, h.isReady] using safe
  demands safe := safe.same h.queue h.station h.pour

/-- An event whose own changes leave the ready list, and keep the demands safe. -/
theorem State.settle_tapsKept {u : State} {x : Causes} (ready : u.taps.ready = s.taps.ready)
    (demands : s.taps.safe → u.taps.safe) : TapsKept s (s.settle u x) where
  ready safe := by
    refine (s.settle_end u x).readySafe ?_
    rw [Taps.readyFurnaces, ready]
    exact safe.1
  demands safe := (s.settle_end u x).tapsSafe (demands safe)

/-- An event whose own changes leave the queue and the station as well. -/
theorem State.settle_tapsQuiet {u : State} {x : Causes} (ready : u.taps.ready = s.taps.ready := by rfl)
    (queue : u.taps.queue = s.taps.queue := by rfl) (station : u.taps.station = s.taps.station := by rfl)
    (pour : u.taps.pour = s.taps.pour := by rfl) : TapsKept s (s.settle u x) :=
  settle_tapsKept ready fun safe => safe.same queue station pour

/-! ### Commands -/

theorem State.itemSetParameter_tapsKept (s : State) (n : Byte) (v : BitVec 32) :
    TapsKept s (s.itemSetParameter n v).state := by
  unfold State.itemSetParameter
  dsimp only
  split
  · exact TapsKept.refl s
  · split_ifs
    · exact TapsKept.refl s
    · exact TapsKept.refl s
    · exact TapsKept.refl s
    · exact TapsKept.refl s
    · exact settle_tapsKept (by simp) fun safe => paramWritten_tapsSafe safe

theorem State.itemResetCircuit_tapsKept (s : State) (n : Byte) : TapsKept s (s.itemResetCircuit n).state := by
  unfold State.itemResetCircuit
  split
  · exact TapsKept.refl s
  next c _ =>
    have removed : TapsKept s (s.unlatch .circuitTrip (numberOf c)) := TapInputsKept.kept {}
    exact ite_item_keeps (ite_item_keeps (TapsKept.refl s) settle_tapsQuiet) removed

/-- A heartbeat moves the watchdog between EXPECT_A and EXPECT_B. -/
theorem State.beat_tapsKept (s : State) : TapsKept s s.beat := by
  unfold State.beat
  split
  next was => exact TapInputsKept.kept { expecting := by rw [was]; rfl }
  next was => exact TapInputsKept.kept { expecting := by rw [was]; rfl }
  · exact TapsKept.refl s
  · exact TapsKept.refl s
  · exact TapsKept.refl s

theorem State.settle_tapsExpired (s : State) : TapsKept s (s.settle s.enterExpired Causes.none) :=
  settle_tapsKept (by simp) enterExpired_tapsSafe

theorem State.itemHeartbeat_tapsKept (s : State) (token : BitVec 16) : TapsKept s (s.itemHeartbeat token).state :=
  ite_item_keeps (ite_item_keeps s.beat_tapsKept s.settle_tapsExpired) (TapsKept.refl s)

theorem State.itemWdStart_tapsKept (s : State) : TapsKept s s.itemWdStart.state := by
  unfold State.itemWdStart
  split
  · exact settle_tapsQuiet
  · exact settle_tapsQuiet
  · exact TapsKept.refl s
  · exact TapsKept.refl s
  · exact TapsKept.refl s

theorem State.itemWdForce_tapsKept (s : State) : TapsKept s s.itemWdForce.state := by
  unfold State.itemWdForce
  split
  · exact s.settle_tapsExpired
  · exact s.settle_tapsExpired
  · exact s.settle_tapsExpired
  · exact s.settle_tapsExpired
  · exact TapsKept.refl s

theorem State.itemWdRestart_tapsKept (s : State) : TapsKept s s.itemWdRestart.state := by
  unfold State.itemWdRestart
  split
  · exact settle_tapsQuiet
  · exact TapsKept.refl s
  · exact TapsKept.refl s
  · exact TapsKept.refl s
  · exact TapsKept.refl s

theorem State.itemAllStop_tapsKept (s : State) (b : Bool) (source : Byte) :
    TapsKept s (s.itemAllStop b source).state := by
  unfold State.itemAllStop
  split
  · exact settle_tapsKept (by simp) enterAllStop_tapsSafe
  · exact TapsKept.refl s

theorem State.runCommand_tapsKept (s : State) (i : Instr) : TapsKept s (s.runCommand i).state := by
  have refused := TapsKept.refl s
  cases i
  case setParameter => exact s.itemSetParameter_tapsKept _ _
  case openHeat =>
    exact onFurnace_keeps refused fun _ => ite_item_keeps refused (ite_item_keeps refused settle_tapsQuiet)
  case drain => exact onFurnace_keeps refused fun _ => ite_item_keeps refused settle_tapsQuiet
  case setMass =>
    exact onFurnace_keeps refused fun _ => ite_item_keeps refused (ite_item_keeps refused
      (settle_tapsQuiet (by simp) (by simp) (by simp) (by simp)))
  case setBand =>
    exact onFurnace_keeps refused fun _ => ite_item_keeps refused (ite_item_keeps refused settle_tapsQuiet)
  case approve =>
    exact onFurnace_keeps refused fun _ => ite_item_keeps refused (ite_item_keeps refused
      (ite_item_keeps refused settle_tapsQuiet))
  case revoke => exact onFurnace_keeps refused fun _ => settle_tapsQuiet
  case resetFurnace =>
    exact onFurnace_keeps refused fun _ => ite_item_keeps refused (ite_item_keeps refused settle_tapsQuiet)
  case resetCircuit => exact s.itemResetCircuit_tapsKept _
  case wdStart => exact s.itemWdStart_tapsKept
  case heartbeat => exact s.itemHeartbeat_tapsKept _
  case wdPause => exact ite_item_keeps refused (ite_item_keeps refused settle_tapsQuiet)
  case wdForce => exact s.itemWdForce_tapsKept
  case wdRestart => exact s.itemWdRestart_tapsKept
  case allStop => exact s.itemAllStop_tapsKept _ _
  case resume => exact ite_item_keeps refused (ite_item_keeps refused settle_tapsQuiet)
  case releaseTaps => exact ite_item_keeps settle_tapsQuiet refused
  case tableData dt bytes =>
    refine TapInputsKept.kept ⟨?_, ?_, (s.itemTableData_supplyKept bytes).profiles, ?_, ?_, ?_, ?_, ?_, ?_, ?_⟩
    all_goals simp [State.runCommand]
  case reloadStaging =>
    refine TapInputsKept.kept ⟨?_, ?_, s.itemReloadStaging_supplyKept.profiles, ?_, ?_, ?_, ?_, ?_, ?_, ?_⟩
    all_goals simp [State.runCommand]
  all_goals
    refine TapInputsKept.kept ⟨?_, ?_, ?_, ?_, ?_, ?_, ?_, ?_, ?_, ?_⟩
    all_goals simp [State.runCommand]

/-! ### The warm restart and arrivals -/

/-- A warm restart empties the list and the queue (R175), and with the watchdog STOPPED no furnace is ready. -/
theorem State.warmRestart_tapsKept (s : State) : TapsKept s s.warmRestart where
  ready _ := by
    have stopped : s.warmRestart.watch.state = .stopped := by
      obtain ⟨_, _, _, _, _, _, _, watch⟩ := s.warmRestart_blocks
      rw [watch]
      rfl
    rw [State.readySafe, Taps.readyFurnaces, s.warmRestart_taps]
    exact ⟨List.nodup_nil, fun f => by simp [State.isReady, stopped, WatchState.expecting]⟩
  demands _ := by
    rw [s.warmRestart_taps]
    exact ⟨Nat.zero_le _, List.nodup_nil, by simp⟩

theorem State.matchedItem_tapsKept (s : State) (i : PointNo) (seq : Byte) (it : SampleItem) :
    TapsKept s (s.matchedItem i seq it) := by
  unfold State.matchedItem
  dsimp only
  split_ifs
  · exact TapInputsKept.kept {}
  · exact settle_tapsQuiet (by simp) (by simp) (by simp) (by simp)
  · exact settle_tapsKept (by simp) acceptItem_tapsSafe

theorem State.item_tapsKept (s : State) (station seq : Byte) (order : Bool) (it : SampleItem) :
    TapsKept s (s.item station seq order it) := by
  unfold State.item
  split
  · exact s.matchedItem_tapsKept _ _ _
  · exact TapInputsKept.kept {}

theorem State.items_tapsKept (s : State) (station seq : Byte) (order : Bool) (body : List Byte) :
    TapsKept s (s.items station seq order body) := by
  have taken : TapsKept s ((sampleItems body).foldl (fun s it => s.item station seq order it) s) :=
    (TapsKept.refl s).fold (fun u it => u.item_tapsKept _ _ _ it) _
  unfold State.items
  dsimp only
  split
  · exact taken
  · exact taken.trans (TapInputsKept.kept {})

theorem State.openFrame_tapsKept (s : State) (n : Nat) : TapsKept s (s.openFrame n) := TapInputsKept.kept {}

theorem ItemOut.recorded_tapsKept (o : ItemOut) : TapsKept o.state o.recorded := TapInputsKept.kept {}

/-- A command outside any frame. -/
theorem State.single_tapsKept (s : State) (i : Instr) : TapsKept s ((s.openFrame 1).runCommand i).recorded :=
  ((s.openFrame_tapsKept 1).trans ((s.openFrame 1).runCommand_tapsKept i)).trans (ItemOut.recorded_tapsKept _)

theorem ArrivalKeeps.tapsKept (a : State) : ArrivalKeeps (TapsKept a) where
  loop _ _ h := h.trans (TapInputsKept.kept {})
  frame _ _ h := h.trans (TapInputsKept.kept {})
  command s i h := h.trans (s.runCommand_tapsKept i)
  restart s h := h.trans s.warmRestart_tapsKept
  overrun _ h := h.trans (TapInputsKept.kept {})
  items s _ _ _ _ h := h.trans (s.items_tapsKept _ _ _ _)
  demand _ _ h := h.trans (State.settle_tapsKept (by simp) State.demand_tapsSafe)
  cancel _ _ h := h.trans (State.settle_tapsKept (by simp) State.cancel_tapsSafe)
  malformed _ h := h.trans (TapInputsKept.kept {})

/-! ### The commits of the tables -/

theorem State.driveOutputs_tapsKept (s : State) : TapsKept s s.driveOutputs := TapInputsKept.kept {}

theorem State.followAtCommit_tapsKept (s : State) (f : Furnace) : TapsKept s (s.followAtCommit f) := by
  unfold State.followAtCommit
  split
  · exact settle_tapsKept (by simp) followExpire_tapsSafe
  · exact TapsKept.refl s

theorem State.rampAtCommit_tapsKept (s : State) (f : Furnace) : TapsKept s (s.rampAtCommit f) := by
  unfold State.rampAtCommit
  split
  · exact settle_tapsQuiet (by simp) (by simp) (by simp) (by simp)
  · exact TapsKept.refl s

theorem State.replaceOrder_tapsKept (s : State) (f : Furnace) : TapsKept s (s.replaceOrder f) :=
  TapInputsKept.kept (by constructor <;> simp)

/-- What stands of the lists and the demands when a profile commit's event ends is kept by the timers that it runs out,
each with its own end, and by the orders that it places (log entry 26). -/
theorem State.recommitProfiles_tapsKept {s0 : State} (ready : s.taps.ready = s0.taps.ready)
    (demands : s0.taps.safe → s.taps.safe) : TapsKept s0 (s0.recommitProfiles s) := by
  have ended : TapsKept s0 (s0.settle (s0.profilesCommitted s) (Causes.testing furnaces)) :=
    settle_tapsKept ((s0.profilesCommitted_ready s).trans ready) fun safe => profilesCommitted_tapsSafe (demands safe)
  rw [State.recommitProfiles_eq]
  refine TapsKept.trans ?_ (State.driveOutputs_tapsKept _)
  refine TapsKept.fold replaceOrder_tapsKept _ ?_
  refine TapsKept.fold rampAtCommit_tapsKept _ ?_
  exact TapsKept.fold followAtCommit_tapsKept _ ended

theorem State.commitEffects_tapsKept {s0 : State} {n : TableNo} {old : Image} (taps : s.taps = s0.taps) :
    TapsKept s0 (s0.commitEffects s n old) := by
  have ready : s.taps.ready = s0.taps.ready := by rw [taps]
  have demands (safe : s0.taps.safe) : s.taps.safe := by rwa [taps]
  unfold State.commitEffects
  split
  · exact settle_tapsKept (by simpa using ready) fun safe => recommitPoints_tapsSafe (demands safe)
  · exact recommitProfiles_tapsKept ready demands
  · exact settle_tapsKept (by simpa using ready) fun safe =>
      foldl_tapsSafe (fun _ _ h => recommitCircuit_tapsSafe h) _ (demands safe)
  · exact settle_tapsKept (by simpa using ready) fun safe => recommitContacts_tapsSafe (demands safe)

theorem State.finishValidation_tapsKept (s : State) : TapsKept s s.finishValidation := by
  unfold State.finishValidation State.completeValidation
  split
  · split
    · exact TapInputsKept.kept {}
    · exact commitEffects_tapsKept rfl
  · exact TapsKept.refl s

/-! ### Events -/

theorem State.expire_tapsKept {due : Bool} {k : State → State} (ready : (k s).taps.ready = s.taps.ready)
    (demands : s.taps.safe → (k s).taps.safe) : TapsKept s (s.expire due k) := by
  unfold State.expire
  split
  · exact settle_tapsKept ready demands
  · exact TapsKept.refl s

theorem State.returnExpire_tapsKept (s : State) : TapsKept s s.returnExpire := by
  unfold State.returnExpire
  split
  next r _ _ =>
    have accounted : TapsKept s (s.settle ((s.tiltFault r.furnace).accountPour r) Causes.none) :=
      settle_tapsKept (by simp) fun safe => safe.freed (by simp) rfl rfl
    exact accounted.trans (TapInputsKept.kept (by constructor <;> simp))
  · exact settle_tapsQuiet

theorem State.event_tapsKept {dt : Time} {k : State → State} (hk : ∀ u : State, TapsKept u (k u)) :
    TapsKept s (s.event dt k) :=
  State.event_keeps (P := TapsKept s)
    (fun _ h => h.trans (TapInputsKept.kept {}))
    (fun u h => h.trans (hk u)) (TapsKept.refl s)

/-- Every command keeps the ready list and the demands safe. -/
theorem exec_tapsKept {c : Instr} (ht : exec c s = .next t) : TapsKept s t := by
  have event {dt : Time} {k : State → State} (hk : ∀ u : State, TapsKept u (k u)) : TapsKept s (s.event dt k) :=
    State.event_tapsKept hk
  have expiry {dt : Time} {due : State → Bool} {k : State → State} (ready : ∀ u, (k u).taps.ready = u.taps.ready)
      (demands : ∀ u : State, u.taps.safe → (k u).taps.safe) : TapsKept s (s.event dt fun u => u.expire (due u) k) :=
    event fun u => State.expire_tapsKept (ready u) (demands u)
  by_cases hc : (encodeCommand c).isSome = true
  · obtain ⟨dt, source, seq, rfl⟩ | ⟨dt, _, he⟩ := exec_command hc
    · obtain rfl := Host.Outcome.next.inj ht
      exact event fun u => (ArrivalKeeps.tapsKept u).restartCommand (u.openFrame_tapsKept 1)
    · rw [he s] at ht
      obtain rfl := Host.Outcome.next.inj ht
      exact event fun u => u.single_tapsKept c
  cases c
  all_goals first | exact absurd rfl hc | obtain rfl := Host.Outcome.next.inj ht
  case coldReset a r raw =>
    obtain ⟨t, cold, _, _, _, ready, demands, _⟩ := coldResetMeetsInvariants a r raw s
    obtain rfl := Host.Outcome.next.inj cold
    exact ⟨fun _ => ready, fun _ => demands⟩
  case resetPinHeldLow => exact TapInputsKept.kept {}
  case frameArrival => exact event fun u => (ArrivalKeeps.tapsKept u).arrive (TapsKept.refl u)
  case linkCompletion =>
    refine event fun u => ?_
    unfold State.completeLink
    split <;> exact TapInputsKept.kept {}
  case validationComplete => exact event fun u => u.finishValidation_tapsKept
  case rawLevelChange =>
    exact event fun u => State.settle_tapsKept (by simp) State.rawChange_tapsSafe
  case persistenceTimerExpiry => exact expiry (fun u => by simp) fun u => State.filteredChange_tapsSafe
  case staleTimerExpiry =>
    exact expiry (fun u => by simp) fun u h => State.turnPointStale_tapsSafe (State.flagStale_tapsSafe h)
  case loopSilenceExpiry =>
    refine event fun u => ?_
    split <;> exact TapInputsKept.kept {}
  case refreshTimerExpiry =>
    refine event fun u => ?_
    split
    · exact TapInputsKept.kept (by constructor <;> simp)
    · exact TapsKept.refl u
  case followTimerExpiry => exact expiry (fun u => by simp) fun u => State.followExpire_tapsSafe
  case startTimerExpiry => exact expiry (fun u => by simp) fun u h => State.startingTest_tapsSafe h
  case tiltStartTimerExpiry => exact expiry (fun u => by simp) fun u => State.tiltStartExpire_tapsSafe
  case pourTimerExpiry => exact expiry (fun u => by simp) fun u => State.pourExpire_tapsSafe
  case returnTimerExpiry =>
    refine event fun u => ?_
    split
    · exact u.returnExpire_tapsKept
    · exact TapsKept.refl u
  case watchdogTimerExpiry => exact expiry (fun u => by simp) fun u => State.enterExpired_tapsSafe
  case tableData dt bytes => exact event fun u => u.single_tapsKept (.tableData dt bytes)
  all_goals exact expiry (fun u => by simp) fun u h => h.same (by simp) (by simp) (by simp)

/-- A step runs one command, or idles. -/
theorem step_tapsKept (ht : step s = .next t) : TapsKept s t := by
  unfold step at ht
  split at ht
  · obtain rfl := Host.Outcome.next.inj ht
    exact TapsKept.refl s
  next c rest _ =>
    have run := exec_tapsKept (s := s.withPending rest) ht
    exact ⟨run.ready, run.demands⟩

/-- Settles O8: the end of an event lists exactly the ready furnaces, each once, and nothing else moves what readiness
reads. -/
theorem readyListHoldsTheReadyFurnaces : Obligations.ReadyListHoldsTheReadyFurnaces := by
  unfold Obligations.ReadyListHoldsTheReadyFurnaces
  exact fun _ _ safe ht => (step_tapsKept ht).ready safe

/-- Settles O9: a match and an abandonment move a demand between queue and station, a DEMAND of a new id joins where
there is room, and everything else takes demands away or leaves them. -/
theorem demandsStayDistinctAndBounded : Obligations.DemandsStayDistinctAndBounded := by
  unfold Obligations.DemandsStayDistinctAndBounded
  exact fun _ _ safe ht => (step_tapsKept ht).demands safe

end Sys2Proof.Machine
end

section
/-! O45. The tilt-start and pour timers (R164 to R168): each expiry takes the one branch of it that the station
takes. -/

namespace Sys2Proof.Machine

variable {s : State} {dt : Time} {r : Pour}

/-- A permit whose furnace never tilted is withdrawn, and its assignment abandoned with TAP_ABORT (R166, R167). -/
theorem State.tiltStartExpire_permitted (station : s.taps.station = .permitted) (pour : s.taps.pour = some r) :
    s.tiltStartExpire = s.abandoned r := by
  unfold State.tiltStartExpire
  rw [station, pour]
  exact State.abandon_eq (.inr station)

/-- What the abandonment of a permitted assignment leaves (R166). -/
theorem State.abandoned_permitted (station : s.taps.station = .permitted) (r : Pour) : s.abandoned r =
    (({ s with
      loop := s.loop.placePermit r.furnace { action := .withdraw, drive := r.drive.getD 0, demand := r.demand.id }
      heats := s.heats.set r.furnace { s.heats[r.furnace] with phase := .holding }
      taps := { s.taps with
        queue := r.demand :: s.taps.queue, station := .idle, pour := none, tiltStart := .idle } } : State).placeStatus
      .requeued (some r.demand.id) (some r.furnace) none).raise .tapAbort (numberOf r.furnace) := by
  unfold State.abandoned
  dsimp only
  rw [if_pos station]

theorem State.tiltStartExpire_other (station : s.taps.station ≠ .permitted) : s.tiltStartExpire = s := by
  unfold State.tiltStartExpire
  split
  next permitted _ => exact absurd permitted station
  next => rfl

theorem State.pourExpire_pouring (station : s.taps.station = .pouring) (pour : s.taps.pour = some r) :
    s.pourExpire = s.interruptPour r true := by
  unfold State.pourExpire
  rw [station, pour]

theorem State.pourExpire_other (station : s.taps.station ≠ .pouring) : s.pourExpire = s := by
  unfold State.pourExpire
  split
  next pouring _ => exact absurd pouring station
  next => rfl

/-- A pour interrupted at home completes at once (R165, R168). -/
theorem State.interruptPour_home (home : s.isHome r.furnace) : s.interruptPour r true =
    ((s.returning { r with abort := true }).raise .tapAbort (numberOf r.furnace)).afterPour
      { r with abort := true } := by
  refine State.completionTest_home (s := (s.returning { r with abort := true }).raise .tapAbort (numberOf r.furnace))
    (by rfl) (by rfl) ?_
  exact home

/-- Settles O45: an expiry that is due ends its event on the branch of the station, and another lets time pass. -/
theorem tiltStartAndPourTimersExpire : Obligations.TiltStartAndPourTimersExpire := by
  unfold Obligations.TiltStartAndPourTimersExpire
  intro dt r s pin pour f now withdraw
  refine ⟨fun t0 ms running => ?_, fun t0 ms running => ?_⟩
  · obtain ⟨late, early⟩ := exec_expiry_timed (i := .tiltStartTimerExpiry dt) (limit := ms)
      (elapsed := (now - t0).toNat) (act := State.tiltStartExpire) pin rfl
      (congrArg (FixedTimer.due now) running)
    refine ⟨fun due permitted => ?_, fun due other => ?_, early⟩
    · have ends := late due
      rwa [State.tiltStartExpire_permitted (s := s.advance dt) permitted pour,
        State.abandoned_permitted (by exact permitted)] at ends
    · have ends := late due
      rwa [State.tiltStartExpire_other (s := s.advance dt) other] at ends
  · obtain ⟨late, early⟩ := exec_expiry_timed (i := .pourTimerExpiry dt) (limit := ms)
      (elapsed := (now - t0).toNat) (act := State.pourExpire) pin rfl
      (congrArg (FixedTimer.due now) running)
    refine ⟨fun due pouring away => ?_, fun due pouring home => ?_, fun due other => ?_, early⟩
    · have notHome : ¬(s.advance dt).isHome f := by
        rw [State.isHome_iff, Bool.and_eq_true]
        rintro ⟨tilt, indication⟩
        obtain tiltOff | indicationOff := away
        · exact Bool.false_ne_true (tiltOff.symm.trans tilt)
        · exact Bool.false_ne_true (indicationOff.symm.trans indication)
      have ends := late due
      rwa [State.pourExpire_pouring (s := s.advance dt) pouring pour, State.interruptPour_away notHome] at ends
    · have ends := late due
      rwa [State.pourExpire_pouring (s := s.advance dt) pouring pour, State.interruptPour_home (by exact home)] at ends
    · have ends := late due
      rwa [State.pourExpire_other (s := s.advance dt) other] at ends

end Sys2Proof.Machine
end

section
/-! O53. The shop parameters (R194, R195), the lock (R196), and the hold of the taps (R160, R161) as single items. -/

namespace Sys2Proof.Machine

variable {s : State} {dt : Time}

/-! ### The parameters by their numbers -/

/-- A written parameter reads as its value. -/
theorem Params.get_put_same {p : Params} {k old : Nat} (v : Nat) (known : p.get k = some old) :
    (p.put k v).get k = some v := by
  unfold Params.get at known
  split at known
  case h_18 => exact nomatch known
  all_goals rfl

/-- A parameter whose number is not written reads as before. -/
theorem Params.get_put_other (p : Params) {j k : Nat} (v : Nat) (other : j ≠ k) : (p.put k v).get j = p.get j := by
  unfold Params.put
  split
  case h_18 => rfl
  all_goals
    unfold Params.get
    split
    all_goals first | rfl | exact absurd rfl other

theorem paramFits_iff (k : Nat) (v : Int) :
    paramFits k v = true ↔ ((paramRange k).1 : Int) ≤ v ∧ v ≤ ((paramRange k).2 : Int) := by
  simp [paramFits]

theorem Params.tokenClash_iff (p : Params) (k v : Nat) :
    p.tokenClash k v = true ↔ (k = 10 ∧ v = p.tokenB) ∨ (k = 11 ∧ v = p.tokenA) := by
  simp [Params.tokenClash]

/-! ### SET PARAMETER and READ PARAMETER -/

section
variable {n : Byte} {v : BitVec 32} {old : Nat}

theorem State.itemSetParameter_unknown (unknown : s.mgmt.params.get n.toNat = none) :
    s.itemSetParameter n v = .plain s .range := by
  unfold State.itemSetParameter
  dsimp only
  rw [unknown]

theorem State.itemSetParameter_locked (known : s.mgmt.params.get n.toNat = some old) (locked : s.mgmt.locked = true) :
    s.itemSetParameter n v = .plain s .locked := by
  unfold State.itemSetParameter
  dsimp only
  rw [known]
  exact if_pos locked

theorem State.itemSetParameter_range (known : s.mgmt.params.get n.toNat = some old) (unlocked : s.mgmt.locked = false)
    (barred : paramFits n.toNat v.toInt = false ∨ s.mgmt.params.tokenClash n.toNat v.toNat = true) :
    s.itemSetParameter n v = .plain s .range := by
  unfold State.itemSetParameter
  dsimp only
  rw [known]
  dsimp only
  rw [unlocked, if_neg Bool.false_ne_true]
  cases fits : paramFits n.toNat v.toInt with
  | false => rfl
  | true => exact if_pos (barred.resolve_left (by rw [fits]; exact nofun))

theorem State.itemSetParameter_taken (known : s.mgmt.params.get n.toNat = some old) (unlocked : s.mgmt.locked = false)
    (fits : paramFits n.toNat v.toInt = true) (free : s.mgmt.params.tokenClash n.toNat v.toNat = false) :
    s.itemSetParameter n v = if old = v.toNat then .ok s else .ok
      (s.settle ((s.withParams (s.mgmt.params.put n.toNat v.toNat)).paramWritten n.toNat) Causes.none) := by
  unfold State.itemSetParameter
  dsimp only
  rw [known]
  dsimp only
  rw [unlocked, if_neg Bool.false_ne_true, fits, free]
  rfl

end

theorem State.paramWritten_params (s : State) (k : Nat) : (s.paramWritten k).mgmt.params = s.mgmt.params := by simp

theorem State.paramWritten_openFrame (s : State) (k : Nat) (p : Params) :
    (((s.openFrame 1).withParams p).paramWritten k).mgmt.frame = { items := 1, results := [], data := [] } := by
  simp [State.openFrame]

/-- Only three parameters act at once: the two timeouts and the dip max age (R195). -/
theorem State.paramWritten_quiet {k : Nat} (silence : k ≠ 8) (watchdog : k ≠ 9) (dip : k ≠ 12) (s : State) :
    s.paramWritten k = s := by
  unfold State.paramWritten
  split
  · exact absurd rfl silence
  · exact absurd rfl watchdog
  · exact absurd rfl dip
  · rfl

/-- A write of a new value ends an event on the written parameter and what it does at once. -/
theorem exec_setParameter_written {n : Byte} {v : BitVec 32} {old : Nat} (pin : s.pinLow = false)
    (known : s.mgmt.params.get n.toNat = some old) (unlocked : s.mgmt.locked = false)
    (fits : paramFits n.toNat v.toInt = true) (free : s.mgmt.params.tokenClash n.toNat v.toNat = false)
    (new : old ≠ v.toNat) : ∃ t, exec (.setParameter dt n v) s = .next t ∧ EventEnd s
      (((((s.advance dt).openFrame 1).withParams (s.mgmt.params.put n.toNat v.toNat)).paramWritten n.toNat).reported
        .ok []) t := by
  refine exec_item_taken (item := fun u => u.itemSetParameter n v) pin rfl ?_
  rw [State.openFrame_self (State.paramWritten_openFrame _ _ _)]
  exact (State.itemSetParameter_taken (s := (s.advance dt).openFrame 1) known unlocked fits free).trans (if_neg new)

/-! ### Single items -/

/-- An item that is taken and moves `u` outside the frame alone. -/
theorem exec_item_ok {i : Instr} {item : State → ItemOut} {u : State} (pin : s.pinLow = false)
    (acts : exec i s = .next (s.single dt item))
    (taken : item ((s.advance dt).openFrame 1) = .ok (u.openFrame 1)) : exec i s = .next (u.reported .ok []) := by
  rw [acts, State.single_high pin, taken, ItemOut.ok_recorded rfl]
  rfl

theorem State.metalAnywhere_iff (s : State) : s.metalAnywhere = true ↔ ∃ f : Furnace, 0 < s.heats[f].mass := by
  simp [State.metalAnywhere, mem_furnaces]

/-- Settles O53: the refusals in R194's order, what a taken write leaves, and the flags of lock and hold. -/
theorem parametersLockAndHoldAct : Obligations.ParametersLockAndHoldAct := by
  unfold Obligations.ParametersLockAndHoldAct
  intro dt number value s pin c k p inRange clash ok
  have fits_iff : paramFits k value.toInt = true ↔ inRange := paramFits_iff _ _
  have clash_iff : p.tokenClash k value.toNat = true ↔ clash := p.tokenClash_iff _ _
  refine ⟨fun unknown => ⟨?_, ?_⟩, fun old known => ⟨fun locked => ?_, fun unlocked barred => ?_,
    fun unlocked range free same => ?_, fun unlocked range free new => ?_, ?_⟩, ?_, fun metal => ?_, fun empty => ?_,
    ?_, fun idle => ?_, fun held => ?_⟩
  · exact exec_read_refused pin rfl (State.itemSetParameter_unknown (by exact unknown))
  · refine exec_read_refused pin rfl ?_
    unfold State.itemReadParameter
    rw [show ((s.advance dt).openFrame 1).mgmt.params.get number.toNat = none from unknown]
  · exact exec_read_refused pin rfl (State.itemSetParameter_locked (by exact known) locked)
  · refine exec_read_refused pin rfl (State.itemSetParameter_range (by exact known) unlocked ?_)
    exact barred.imp (fun out => eq_false_of_ne_true (mt fits_iff.1 out)) clash_iff.2
  · refine exec_item_ok (item := fun u => u.itemSetParameter number value) (u := s.advance dt) pin rfl ?_
    exact (State.itemSetParameter_taken (s := (s.advance dt).openFrame 1) known unlocked (fits_iff.2 range)
      (eq_false_of_ne_true (mt clash_iff.1 free))).trans (if_pos same)
  · obtain ⟨t, acts, ends⟩ := exec_setParameter_written (dt := dt) pin known unlocked (fits_iff.2 range)
      (eq_false_of_ne_true (mt clash_iff.1 free)) new
    have params : t.mgmt.params = p.put k value.toNat := by
      rw [ends.mgmt]
      exact State.paramWritten_params _ _
    refine ⟨t, acts, ?_, fun j other => ?_, ?_, fun silence watchdog dip => ?_⟩
    · rw [params]
      exact Params.get_put_same _ known
    · rw [params]
      exact Params.get_put_other _ _ other
    · rw [ends.mgmt]
      rfl
    · rw [State.paramWritten_quiet silence watchdog dip] at ends
      rw [params]
      exact ends
  · have acts : exec (.readParameter dt number) s = .next (((s.advance dt).openFrame 1).itemReadParameter
        number).recorded := congrArg Host.Outcome.next (State.single_high pin)
    rw [acts, State.itemReadParameter,
      show ((s.advance dt).openFrame 1).mgmt.params.get number.toNat = some old from known]
    dsimp only
    rw [State.answer_opened (by simp [enc32, bytes32])]
    rfl
  · exact exec_item_ok (item := State.itemLock)
      (u := (s.advance dt).withMgmt { s.mgmt with locked := true }) pin rfl rfl
  · exact exec_read_refused pin rfl (if_pos ((State.metalAnywhere_iff _).2 metal))
  · refine exec_item_ok (item := State.itemUnlock)
      (u := (s.advance dt).withMgmt { s.mgmt with locked := false }) pin rfl (if_neg ?_)
    rw [State.metalAnywhere_iff]
    rintro ⟨f, some⟩
    exact absurd (empty f) (Nat.ne_of_gt some)
  · exact exec_item_ok (item := State.itemHoldTaps)
      (u := (s.advance dt).withTaps { s.taps with held := true }) pin rfl rfl
  · refine exec_item_ok (item := State.itemReleaseTaps) (u := s.advance dt) pin rfl (if_neg ?_)
    rw [show ((s.advance dt).openFrame 1).taps.held = false from idle]
    exact Bool.false_ne_true
  · exact exec_item_taken (item := State.itemReleaseTaps) pin rfl (if_pos held)

end Sys2Proof.Machine
end

section
/-! O47. The watchdog commands (R176 to R178, R180 to R182) as single items. Each command has one set of states that it
acts in; an item that expires the watchdog ends its event on the entry to EXPIRED, whatever its result. -/

namespace Sys2Proof.Machine

variable {s : State} {dt : Time}

theorem WatchState.expecting_iff (w : WatchState) : w.expecting = true ↔ w = .expectA ∨ w = .expectB := by
  cases w <;> simp [WatchState.expecting]

theorem WatchState.expecting_false_iff (w : WatchState) :
    w.expecting = false ↔ w = .stopped ∨ w = .paused ∨ w = .expired := by
  cases w <;> simp [WatchState.expecting]

/-! ### Each command where it acts and where it is refused -/

theorem State.itemWdStart_taken (resting : s.watch.state = .stopped ∨ s.watch.state = .paused) :
    s.itemWdStart = .ok (s.settle s.enterExpectA Causes.none) := by
  unfold State.itemWdStart
  obtain was | was := resting <;> rw [was]

theorem State.itemWdStart_refused
    (other : s.watch.state = .expectA ∨ s.watch.state = .expectB ∨ s.watch.state = .expired) :
    s.itemWdStart = .plain s .state := by
  unfold State.itemWdStart
  obtain was | was | was := other <;> rw [was]

theorem State.beat_expectA (was : s.watch.state = .expectA) :
    s.beat = s.withWatch { s.watch with state := .expectB, expected := .b, timer := .running s.time } := by
  unfold State.beat
  rw [was]

theorem State.beat_expectB (was : s.watch.state = .expectB) : s.beat = s.enterExpectA := by
  unfold State.beat
  rw [was]
  rfl

theorem State.itemHeartbeat_right {token : BitVec 16} (expecting : s.watch.state.expecting = true)
    (right : token.toNat = s.expectedToken) : s.itemHeartbeat token = .ok s.beat :=
  (if_pos expecting).trans (if_pos right)

theorem State.itemHeartbeat_wrong {token : BitVec 16} (expecting : s.watch.state.expecting = true)
    (wrong : token.toNat ≠ s.expectedToken) :
    s.itemHeartbeat token = .plain (s.settle s.enterExpired Causes.none) .state :=
  (if_pos expecting).trans (if_neg wrong)

theorem State.itemHeartbeat_refused {token : BitVec 16} (still : s.watch.state.expecting = false) :
    s.itemHeartbeat token = .plain s .state :=
  if_neg (ne_true_of_eq_false still)

theorem State.anyOrdered_iff (s : State) :
    furnaces.any (fun f => decide (0 < s.power[f].ordered)) = true ↔ ∃ f : Furnace, s.power[f].ordered ≠ 0 := by
  simp [mem_furnaces, Nat.pos_iff_ne_zero]

theorem State.itemWdPause_taken (expecting : s.watch.state.expecting = true)
    (unordered : ∀ f : Furnace, s.power[f].ordered = 0) : s.itemWdPause =
      .ok (s.settle (s.withWatch { s.watch with state := .paused, timer := .idle }) Causes.none) := by
  unfold State.itemWdPause
  rw [expecting, if_neg nofun, if_neg fun ordered => ?_]
  obtain ⟨f, some⟩ := s.anyOrdered_iff.1 ordered
  exact some (unordered f)

theorem State.itemWdPause_refused
    (barred : s.watch.state.expecting = false ∨ ∃ f : Furnace, s.power[f].ordered ≠ 0) :
    s.itemWdPause = .plain s .state := by
  unfold State.itemWdPause
  cases expecting : s.watch.state.expecting with
  | false => rfl
  | true => exact if_pos (s.anyOrdered_iff.2 (barred.resolve_left (by rw [expecting]; exact nofun)))

theorem State.itemWdForce_taken (live : s.watch.state ≠ .expired) :
    s.itemWdForce = .ok (s.settle s.enterExpired Causes.none) := by
  unfold State.itemWdForce
  split
  case h_5 was => exact absurd was live
  all_goals rfl

theorem State.itemWdForce_refused (expired : s.watch.state = .expired) : s.itemWdForce = .plain s .state := by
  unfold State.itemWdForce
  rw [expired]

theorem State.itemWdRestart_taken (expired : s.watch.state = .expired) :
    s.itemWdRestart = .ok (s.settle (s.enterExpectA.unlatch .watchdogExpired 0) Causes.none) := by
  unfold State.itemWdRestart
  rw [expired]

theorem State.itemWdRestart_refused (live : s.watch.state ≠ .expired) : s.itemWdRestart = .plain s .state := by
  unfold State.itemWdRestart
  split
  case h_1 was => exact absurd was live
  all_goals rfl

/-! ### The end of an event that expires the watchdog -/

/-- What an event that ends on the entry to EXPIRED leaves of watchdog, pairs and ready list (R155, R182). -/
theorem EventEnd.expired {u t : State} {x : Causes} (h : EventEnd s u.enterExpired t x) :
    t.watch = { u.watch with state := .expired, timer := .idle, expiries := min 255 (u.watch.expiries + 1) }
      ∧ t.isLatched .watchdogExpired 0 = true ∧ t.taps.ready = [] := by
  have watch := h.watch.trans u.enterExpired_watch
  refine ⟨watch, ?_, h.ready_nil (State.not_isReady_of_expired (by rw [watch]))⟩
  rw [State.isLatched_iff, h.latched, ← State.isLatched_iff]
  exact u.enterExpired_latched

/-- A command outside any frame whose item expires the watchdog, with any result. -/
theorem exec_item_expires {i : Instr} {item : State → ItemOut} {r : Result} (pin : s.pinLow = false)
    (acts : exec i s = .next (s.single dt item))
    (expires : item ((s.advance dt).openFrame 1) =
      .plain (((s.advance dt).openFrame 1).settle ((s.advance dt).openFrame 1).enterExpired Causes.none) r) :
    ∃ t, exec i s = .next t
      ∧ t.watch = { s.watch with state := .expired, timer := .idle, expiries := min 255 (s.watch.expiries + 1) }
      ∧ t.isLatched .watchdogExpired 0 = true ∧ t.taps.ready = []
      ∧ t.mgmt.frame = { items := 1, results := [r], data := [] } := by
  have ends := ((s.advance dt).openFrame 1).settle_end ((s.advance dt).openFrame 1).enterExpired Causes.none
  obtain ⟨watch, latched, ready⟩ := ends.expired
  refine ⟨_, acts.trans (congrArg Host.Outcome.next (State.single_high pin)), ?_⟩
  rw [expires]
  refine ⟨watch, latched, ready, ?_⟩
  rw [ItemOut.recorded_frame, ItemOut.plain_state, ends.mgmt]
  simp [State.openFrame]

/-- Settles O47: by command, its item in the states that it acts in and in the others. -/
theorem watchdogCommandsAct : Obligations.WatchdogCommandsAct := by
  unfold Obligations.WatchdogCommandsAct
  intro dt token s pin
  have expecting := (WatchState.expecting_iff s.watch.state).2
  have still := (WatchState.expecting_false_iff s.watch.state).2
  refine ⟨fun resting => ?_, fun other => ?_, fun was right => ?_, fun was right => ?_, fun waits wrong => ?_,
    fun rests => ?_, fun waits unordered => ?_, fun barred => ?_, fun live => ?_, fun expired => ?_,
    fun expired => ?_, fun live => ?_⟩
  · exact exec_item_taken pin rfl (State.itemWdStart_taken (by exact resting))
  · exact exec_read_refused pin rfl (State.itemWdStart_refused (by exact other))
  · refine exec_item_ok (item := (·.itemHeartbeat token)) pin rfl
      ((State.itemHeartbeat_right (s := (s.advance dt).openFrame 1) (expecting (.inl was)) right).trans ?_)
    rw [State.beat_expectA (s := (s.advance dt).openFrame 1) was]
    rfl
  · refine exec_item_ok (item := (·.itemHeartbeat token)) pin rfl
      ((State.itemHeartbeat_right (s := (s.advance dt).openFrame 1) (expecting (.inr was)) right).trans ?_)
    rw [State.beat_expectB (s := (s.advance dt).openFrame 1) was]
    rfl
  · exact exec_item_expires pin rfl (State.itemHeartbeat_wrong (by exact expecting waits) wrong)
  · exact exec_read_refused pin rfl (State.itemHeartbeat_refused (by exact still rests))
  · exact exec_item_taken pin rfl (State.itemWdPause_taken (by exact expecting waits) unordered)
  · refine exec_read_refused pin rfl (State.itemWdPause_refused ?_)
    obtain stopped | paused | expired | ordered := barred
    · exact .inl (still (.inl stopped))
    · exact .inl (still (.inr (.inl paused)))
    · exact .inl (still (.inr (.inr expired)))
    · exact .inr ordered
  · exact exec_item_expires pin rfl (State.itemWdForce_taken (by exact live))
  · exact exec_read_refused pin rfl (State.itemWdForce_refused (by exact expired))
  · refine exec_item_taken pin rfl ((State.itemWdRestart_taken (by exact expired)).trans ?_)
    rw [State.unlatch_eq]
    rfl
  · exact exec_read_refused pin rfl (State.itemWdRestart_refused (by exact live))

end Sys2Proof.Machine
end

section
/-! O50. SELECT TABLE and RELOAD STAGING (R190, R193) as single items: each check in its order, and what is taken. -/

namespace Sys2Proof.Machine

variable {s : State} {dt : Time}

theorem tableOf_none {n : Nat} (h : 3 < n) : tableOf n = none := by
  obtain ⟨k, rfl⟩ := Nat.exists_eq_add_of_lt h
  unfold tableOf
  split
  case h_5 => rfl
  all_goals omega

section
variable {table copy : Byte} {offset : BitVec 16} {t : TableNo}

theorem State.itemSelectTable_unknown (h : 3 < table.toNat) :
    s.itemSelectTable table copy offset = .plain s .range := by
  rw [State.itemSelectTable, tableOf_none h]

/-- There are two copies, whatever the table number (R190). -/
theorem State.itemSelectTable_noCopy (h : 1 < copy.toNat) : s.itemSelectTable table copy offset = .plain s .range := by
  unfold State.itemSelectTable
  split
  · rfl
  · exact if_pos h

theorem State.itemSelectTable_beyond (named : tableOf table.toNat = some t) (which : copy.toNat ≤ 1)
    (beyond : t.size ≤ offset.toNat) : s.itemSelectTable table copy offset = .plain s .range := by
  rw [State.itemSelectTable, named]
  exact (if_neg (Nat.not_lt.2 which)).trans (if_pos beyond)

theorem State.itemSelectTable_taken (named : tableOf table.toNat = some t) (which : copy.toNat ≤ 1)
    (inside : offset.toNat < t.size) : s.itemSelectTable table copy offset = .ok (s.withMgmt { s.mgmt with
      selection := some { table := t, active := decide (copy = 1), pointer := offset.toNat } }) := by
  rw [State.itemSelectTable, named]
  exact (if_neg (Nat.not_lt.2 which)).trans (if_neg (Nat.not_le.2 inside))

end

theorem State.itemReloadStaging_busy (busy : s.validating = true) : s.itemReloadStaging = .plain s .busy :=
  if_pos busy

theorem State.itemReloadStaging_state (idle : s.validating = false) (unselected : s.mgmt.selection = none) :
    s.itemReloadStaging = .plain s .state := by
  rw [State.itemReloadStaging, idle, unselected]
  rfl

section
variable {x : Selection}

theorem State.itemReloadStaging_locked (idle : s.validating = false) (chosen : s.mgmt.selection = some x)
    (locked : s.lockedTable x.table = true) : s.itemReloadStaging = .plain s .locked := by
  rw [State.itemReloadStaging, idle, chosen]
  exact if_pos locked

theorem State.itemReloadStaging_taken (idle : s.validating = false) (chosen : s.mgmt.selection = some x)
    (free : s.lockedTable x.table = false) : s.itemReloadStaging = .ok { s with
      tables := s.tables.setCopies x.table
        { staging := (s.tables.copies x.table).active, active := (s.tables.copies x.table).active } } := by
  rw [State.itemReloadStaging, idle, chosen]
  exact if_neg (ne_true_of_eq_false free)

end

/-- Settles O50: by command, its checks in their order and the state that it leaves when taken. -/
theorem tablesAreSelectedAndReloaded : Obligations.TablesAreSelectedAndReloaded := by
  unfold Obligations.TablesAreSelectedAndReloaded
  intro dt table copy offset s pin sel ok choice
  refine ⟨fun barred => ?_, fun t named which => ⟨fun beyond => ?_, fun inside => ?_⟩, fun busy => ?_,
    fun idle => ⟨fun unselected => ?_, fun x chosen => ⟨fun locked => ?_, fun unlocked => ?_⟩⟩⟩
  · exact exec_read_refused pin rfl
      (barred.elim State.itemSelectTable_unknown State.itemSelectTable_noCopy)
  · exact exec_read_refused pin rfl (State.itemSelectTable_beyond named which beyond)
  · exact exec_item_ok (u := (s.advance dt).withMgmt { s.mgmt with selection := some (choice t) }) pin rfl
      (State.itemSelectTable_taken named which inside)
  · exact exec_read_refused pin rfl (State.itemReloadStaging_busy (State.validating_iff.2 busy))
  · exact exec_read_refused pin rfl
      (State.itemReloadStaging_state (State.not_validating_iff.2 idle) (by exact unselected))
  · exact exec_read_refused pin rfl (State.itemReloadStaging_locked (State.not_validating_iff.2 idle)
      (by exact chosen) (State.lockedTable_iff.2 locked))
  · exact exec_item_ok (item := State.itemReloadStaging) (u := { s.advance dt with
        tables := s.tables.setCopies x.table
          { staging := (s.tables.copies x.table).active, active := (s.tables.copies x.table).active } }) pin rfl
      (State.itemReloadStaging_taken (s := (s.advance dt).openFrame 1) (State.not_validating_iff.2 idle) chosen
        (State.not_lockedTable unlocked))

end Sys2Proof.Machine
end

section
/-! O54. CLEAR CONDITION and CLEAR COUNTERS (R197, R199, R201) as single items. -/

namespace Sys2Proof.Machine

variable {s : State} {dt : Time}

theorem kindOf_code (k : Kind) : kindOf k.code = some k := by
  cases k <;> rfl

theorem kindOf_none {n : Nat} (h : n = 0 ∨ 15 < n) : kindOf n = none := by
  unfold kindOf
  split
  case h_16 => rfl
  all_goals omega

/-- The informational kinds of R197, listed. -/
theorem Kind.informational_iff (k : Kind) : k.informational = true ↔
    k = .stale ∨ k = .tapAbort ∨ k = .validationFailed ∨ k = .overheld ∨ k = .dipLow ∨ k = .overcharge
      ∨ k = .chargeRefused ∨ k = .loopDown ∨ k = .mgmtOverrun := by
  cases k <;> simp [Kind.informational]

section
variable {kind subject : Byte} {k : Kind}

theorem State.itemClearCondition_unknown (h : kind.toNat = 0 ∨ 15 < kind.toNat) :
    s.itemClearCondition kind subject = .plain s .range := by
  rw [State.itemClearCondition, kindOf_none h]

theorem State.itemClearCondition_kind (code : k.code = kind.toNat) : s.itemClearCondition kind subject =
    if !k.informational then .plain s .state
    else if !s.isLatched k subject.toNat then .plain s .absent
    else .ok (s.unlatch k subject.toNat) := by
  rw [State.itemClearCondition, ← code, kindOf_code]

theorem State.itemClearCondition_state (code : k.code = kind.toNat) (held : k.informational = false) :
    s.itemClearCondition kind subject = .plain s .state := by
  rw [State.itemClearCondition_kind code, held]
  rfl

theorem State.itemClearCondition_absent (code : k.code = kind.toNat) (free : k.informational = true)
    (absent : s.isLatched k subject.toNat = false) : s.itemClearCondition kind subject = .plain s .absent := by
  rw [State.itemClearCondition_kind code, free, absent]
  rfl

theorem State.itemClearCondition_taken (code : k.code = kind.toNat) (free : k.informational = true)
    (latched : s.isLatched k subject.toNat = true) :
    s.itemClearCondition kind subject = .ok (s.unlatch k subject.toNat) := by
  rw [State.itemClearCondition_kind code, free, latched]
  rfl

end

/-- Settles O54: the checks of CLEAR CONDITION in their order, and the zeros of CLEAR COUNTERS. -/
theorem conditionsAndCountersAreCleared : Obligations.ConditionsAndCountersAreCleared := by
  unfold Obligations.ConditionsAndCountersAreCleared
  intro dt kind subject s pin c informational left
  refine ⟨fun unknown => ?_, fun k code => ⟨fun held => ?_, fun free absent => ?_, fun free latched => ?_⟩, ?_⟩
  · exact exec_read_refused pin rfl (State.itemClearCondition_unknown unknown)
  · exact exec_read_refused pin rfl
      (State.itemClearCondition_state code (eq_false_of_ne_true (mt k.informational_iff.1 held)))
  · refine exec_read_refused pin rfl
      (State.itemClearCondition_absent code (k.informational_iff.2 free) (eq_false_of_ne_true ?_))
    rw [State.isLatched_iff]
    rintro ⟨x, among, pair⟩
    exact absent x among pair
  · refine exec_item_ok (item := (·.itemClearCondition kind subject))
      (u := (s.advance dt).withMgmt { s.mgmt with latched := left k }) pin rfl ?_
    refine (State.itemClearCondition_taken (s := (s.advance dt).openFrame 1) code (k.informational_iff.2 free)
      ((State.isLatched_iff _ _ _).2 latched)).trans ?_
    rw [State.unlatch_eq]
    rfl
  · exact exec_item_ok (item := State.itemClearCounters)
      (u := { s.advance dt with
        loop := { s.loop with counters := LoopCounters.zero }
        intake := { s.intake with counters := IntakeCounters.zero }
        orderClamps := 0, taps := { s.taps with malformed := 0 } }) pin rfl rfl

end Sys2Proof.Machine
end

section
/-! O12. The bytes of a command item and the command that they spell (R188, R205, R211): the fields of two and four
bytes first, then the two tables of R211 against each other. -/

namespace Sys2Proof.Machine

variable {source seq : Byte} {broadcast : Bool} {bytes : List Byte} {i : Instr}

/-! ### Fields of two and four bytes (R205) -/

theorem word16_extract (w : BitVec 16) : word16 (w.extractLsb' 8 8) (w.extractLsb' 0 8) = w :=
  BitVec.extractLsb'_append_extractLsb' (w := 8) (len := 8)

theorem word32_extract (w : BitVec 32) :
    word32 (w.extractLsb' 24 8) (w.extractLsb' 16 8) (w.extractLsb' 8 8) (w.extractLsb' 0 8) = w := by
  have high : word16 (w.extractLsb' 24 8) (w.extractLsb' 16 8) = w.extractLsb' 16 16 :=
    BitVec.extractLsb'_append_extractLsb'_eq_extractLsb' rfl
  have low : word16 (w.extractLsb' 8 8) (w.extractLsb' 0 8) = w.extractLsb' 0 16 :=
    BitVec.extractLsb'_append_extractLsb'_eq_extractLsb' rfl
  rw [word32, high, low]
  exact BitVec.extractLsb'_append_extractLsb' (w := 16) (len := 16)

@[simp] theorem bytes16_word16 (a b : Byte) : bytes16 (word16 a b) = [a, b] :=
  congrArg₂ (fun hi lo => [hi, lo]) BitVec.extractLsb'_append_eq_left BitVec.extractLsb'_append_eq_right

/-- The bytes of two halves, the high one first. -/
theorem bytes32_append (hi lo : BitVec 16) : bytes32 (hi ++ lo) = bytes16 hi ++ bytes16 lo := by
  have high (k : Nat) : (hi ++ lo).extractLsb' (16 + k) 8 = hi.extractLsb' k 8 := by
    rw [BitVec.extractLsb'_append_eq_of_le (Nat.le_add_right 16 k), Nat.add_sub_cancel_left]
  have low (k : Nat) (fits : k + 8 ≤ 16) : (hi ++ lo).extractLsb' k 8 = lo.extractLsb' k 8 :=
    BitVec.extractLsb'_append_eq_of_add_le fits
  simp only [bytes32, bytes16, List.cons_append, List.nil_append, List.cons.injEq, and_true]
  exact ⟨high 8, high 0, low 8 (by decide), low 0 (by decide)⟩

@[simp] theorem bytes32_word32 (a b c d : Byte) : bytes32 (word32 a b c d) = [a, b, c, d] := by
  rw [word32, bytes32_append, bytes16_word16, bytes16_word16]
  rfl

/-! ### From a command to its bytes and back -/

/-- What encodes a command decodes to it: the frame gives ALL STOP and RESTART what their byte does not carry. -/
theorem decodeCommand_of_encodeCommand (spelled : encodeCommand i = some bytes) (now : elapsed i = some 0)
    (stop : ∀ b src, i = .allStop 0 b src → b = broadcast ∧ src = source)
    (restart : ∀ src q, i = .restart 0 src q → src = source ∧ q = seq) :
    decodeCommand source seq broadcast bytes = some i := by
  cases i <;> cases spelled <;> cases now
  case allStop b src =>
    obtain ⟨rfl, rfl⟩ := stop b src rfl
    rfl
  case restart src q =>
    obtain ⟨rfl, rfl⟩ := restart src q rfl
    rfl
  case selectTable t c o => exact congrArg (fun w => some (Instr.selectTable 0 t c w)) (word16_extract o)
  case heartbeat t => exact congrArg (fun w => some (Instr.heartbeat 0 w)) (word16_extract t)
  case setParameter n v => exact congrArg (fun w => some (Instr.setParameter 0 n w)) (word32_extract v)
  case openHeat f n => exact congrArg (fun w => some (Instr.openHeat 0 f w)) (word32_extract n)
  case setMass f m => exact congrArg (fun w => some (Instr.setMass 0 f w)) (word32_extract m)
  case approve f n m => exact congrArg (fun w => some (Instr.approve 0 f w m)) (word32_extract n)
  case setBand f a b c d => simp [decodeCommand, bytes16, word16_extract]
  all_goals rfl

/-! ### From bytes to a command and back -/

/-- The bytes of the command that a row of R211 gives for a code: the code's byte first. -/
theorem encodeCommand_of_row {c : Byte} {n : Nat} {rest : List Byte} {j : Instr} (code : c.toNat = n)
    (row : some j = some i) (spelled : encodeCommand j = some (BitVec.ofNat 8 n :: rest)) :
    encodeCommand i = some (c :: rest) := by
  rw [← Option.some.inj row, spelled, ← code, BitVec.ofNat_toNat, BitVec.setWidth_eq]

theorem encodeCommand_of_decodeBare {c : Byte} (h : decodeBare source seq broadcast c.toNat = some i) :
    encodeCommand i = some [c] := by
  unfold decodeBare at h
  split at h
  case h_15 => cases h
  all_goals next code => exact encodeCommand_of_row code h rfl

theorem encodeCommand_of_decodeOne {c a : Byte} (h : decodeOne c.toNat a = some i) :
    encodeCommand i = some [c, a] := by
  unfold decodeOne at h
  split at h
  case h_11 => cases h
  all_goals next code => exact encodeCommand_of_row code h rfl

/-- The argument bytes of HEARTBEAT are one field. -/
theorem encodeCommand_of_decodeTwo {c a b : Byte} (h : decodeTwo c.toNat a b = some i) :
    encodeCommand i = some [c, a, b] := by
  unfold decodeTwo at h
  split at h
  case h_1 code => exact encodeCommand_of_row code h (congrArg (fun arg => some (0x21 :: arg)) (bytes16_word16 a b))
  case h_7 => cases h
  all_goals next code => exact encodeCommand_of_row code h rfl

/-- Bytes that spell a command are that command's bytes: by the number of bytes, the codes of that length (R211). -/
theorem encodeCommand_of_decodeCommand (h : decodeCommand source seq broadcast bytes = some i) :
    encodeCommand i = some bytes := by
  unfold decodeCommand at h
  split at h
  case h_1 => exact encodeCommand_of_decodeBare h
  case h_2 => exact encodeCommand_of_decodeOne h
  case h_3 => exact encodeCommand_of_decodeTwo h
  case h_8 => cases h
  all_goals
    split_ifs at h
    all_goals
      obtain rfl := Option.some.inj h
      simp [encodeCommand, *]

/-- Settles O12: each of the two tables undoes the other. -/
theorem commandBytesRoundTrip : Obligations.CommandBytesRoundTrip := by
  unfold Obligations.CommandBytesRoundTrip
  intro source seq broadcast
  refine ⟨fun _ _ => decodeCommand_of_encodeCommand, fun bytes i decoded => ?_⟩
  obtain ⟨-, now, -⟩ := decodeCommand_spells decoded
  exact ⟨encodeCommand_of_decodeCommand decoded, now⟩

end Sys2Proof.Machine
end

section
/-! O1. What a step takes from the queue: the command at its front, or nothing. -/

namespace Sys2Proof.Machine

theorem step_of_pending_cons {s : State} {c : Instr} {rest : List Instr} (waiting : s.pending = c :: rest) :
    step s = exec c (s.withPending rest) := by
  unfold step
  rw [waiting]

theorem step_of_pending_nil {s : State} (idle : s.pending = []) : step s = .next s := by
  unfold step
  rw [idle]

/-- Settles O1, by the two shapes of the queue. -/
theorem stepTakesFrontCommand : Obligations.StepTakesFrontCommand := by
  unfold Obligations.StepTakesFrontCommand
  exact ⟨fun _ _ _ waiting => step_of_pending_cons waiting, fun _ idle => step_of_pending_nil idle⟩

end Sys2Proof.Machine
end
